-- ==== Sys2Proof/Word.lean ====
section
/-! DEFINITION. Plain abbreviations shared by every file: bytes, timers and clamping.
A timer is `none` while stopped and holds the moment of its next expiry, in milliseconds of the
station's time base, while running (notes/assumptions/1.md). -/

namespace Sys2Proof

/-- One byte of a frame's payload (R199). -/
abbrev Byte := BitVec 8

/-- A timer of the station: `none` when stopped, otherwise the moment at which it expires. -/
abbrev Timer := Option Nat

/-- Clamping to a range, as section 4.3 of the scope file gives it. -/
def clampInt (lo hi x : Int) : Int := max lo (min hi x)

end Sys2Proof
end

