-- ==== Sys2Proof/Config.lean ====
section
/-! DEFINITION. What the part fixes and no setup item changes: timer lengths in milliseconds, counts
and ranges. Each constant cites the rule that gives it. No constant here is a free value: the spec
leaves no result of a command open. -/

namespace Sys2Proof.Config

/-- Highest absolute height, 200.0000 m in 0.1 mm (section 4.3, R93). -/
def heightMax : Nat := 2000000
/-- Maturity at which a layer saturates (R58). -/
def maturityCap : Nat := 1200000
/-- Most layers of the stack (R48). -/
def maxLayers : Nat := 16
/-- Maturity units in one °C·h (section 4.3). -/
def unitsPerDegreeHour : Nat := 600
/-- Top of the transducer range (R83). -/
def transducerTop : Int := 320
/-- Upper clamp of a channel target (R42). -/
def targetTop : Int := 300
/-- Clamp of the rate scale, in percent (R18). -/
def rateScaleMax : Nat := 150
/-- Period of the cure sample timer (R66). -/
def samplePeriod : Nat := 60000
/-- Interval of the probe samples (R106). -/
def probePeriod : Nat := 1000
/-- Period of the SETUP REQUEST timer (R164). -/
def requestPeriod : Nat := 5000
/-- Length of the setup window (R165). -/
def windowLength : Nat := 60000
/-- Length of a mute (R148). -/
def muteLength : Nat := 5000
/-- Length of the busy-line timer (R149). -/
def busyLength : Nat := 10
/-- Transmit error count at which a mute starts (R147). -/
def errorLimit : Nat := 16
/-- Length of the clear pending timer (R193). -/
def clearPendingLength : Nat := 2000
/-- Length of unbroken crystal running before the time base changes (R196). -/
def crystalRunLength : Nat := 10000
/-- Least low period of the local clear input that acts (R16), in milliseconds. -/
def localClearLow : Nat := 50
/-- Low threshold of the field supply, 19.0 V, in tenths of a volt (R194, R207). -/
def supplyLowLevel : Nat := 190
/-- Recovery threshold of the field supply, 20.5 V, in tenths of a volt (R194, R207). -/
def supplyRecoveryLevel : Nat := 205
/-- Least logic supply without a brown-out reset, 2.95 V, in millivolts (R207). -/
def logicSupplyLevel : Nat := 2950
/-- Voltage between the loop pins below which the halt loop is sensed asserted, 2 V, in millivolts
(R207). -/
def haltLoopLevel : Nat := 2000
/-- Current of a sensor input below which it is open, 3.6 mA, in microamperes (R207). -/
def openCurrent : Nat := 3600
/-- Current of a sensor input at the foot of its scale, 4 mA, in microamperes (R207). -/
def currentFoot : Nat := 4000
/-- Span of a sensor input's scale, from 4 to 20 mA, in microamperes (R207). -/
def currentSpan : Nat := 16000
/-- Top of the fill probe's scale (R207). -/
def probeTop : Int := 16000
/-- The strap pins' reading that `State.reset` was made with (notes/assumptions/3.md). -/
def resetStrap : BitVec 6 := 17

end Sys2Proof.Config
end

