-- ==== Sys2Proof/Syntax.lean ====
section
/-! DEFINITION. The commands of the station: one constructor per row of spec/opcode_table.json, with the
operands the rules give the row (the table itself lists none; notes/assumptions/4.md says where each
operand comes from). -/

namespace Sys2Proof

/-- The four jack channels (section 4.4). -/
inductive Ch where
  | c1 | c2 | c3 | c4
  deriving DecidableEq, Repr

/-- What a measuring input presents at a reading: an open sensor or a value (R68, R83, R106). -/
inductive SensorReading where
  | openCircuit
  | value (v : Int)
  deriving DecidableEq, Repr

/-- A frame as a receiver reads it off the deck line (R142, R150, R199). -/
structure RxFrame where
  /-- It began with a start. -/
  startSeen : Bool
  priority : BitVec 2
  sender : BitVec 6
  kind : BitVec 3
  length : BitVec 5
  payload : List Byte
  check : BitVec 16
  /-- A code violation fell in its self-clocked part. -/
  codeViolation : Bool
  /-- It closed with an end where one is due (R200). -/
  endSeen : Bool
  deriving DecidableEq, Repr

/-- The commands and events of spec/opcode_table.json.

A console command carries the sender number of its COMMAND frame, the target byte and the argument
byte (R13, R204). A frame carries its sender number and its payload. A reading carries the channel
and what the sensor presented. A reset carries the strap pins' value and the level of the jack
inhibit input at its end (R162, R189). -/
inductive Instr where
  | start (sender : BitVec 6) (target argument : Byte)
  | stop (sender : BitVec 6) (target argument : Byte)
  | pause (sender : BitVec 6) (target argument : Byte)
  | resume (sender : BitVec 6) (target argument : Byte)
  | clear (sender : BitVec 6) (target argument : Byte)
  | rateScale (sender : BitVec 6) (target argument : Byte)
  | feedHold (sender : BitVec 6) (target argument : Byte)
  /-- `lowMs` is the length of the low period, counted from the later of its falling edge and the end
  of reset, in whole milliseconds (R16). -/
  | localClear (lowMs : Nat)
  /-- The 224 payload bits, bit 0 of R202 being the most significant. -/
  | report (sender : BitVec 6) (payload : BitVec 224)
  | setupData (sender : BitVec 6) (target item : Byte) (value : BitVec 32)
  | setupCommit (sender : BitVec 6) (target check : Byte)
  | peerSetupRequest (sender : BitVec 6) (payload : BitVec 40)
  | frameDiscarded (frame : RxFrame)
  | powerOnReset (strap : BitVec 6) (inhibit : Bool)
  /-- `cutRewrite` says that the brown-out fell inside a rewrite of the retained record (R171). -/
  | brownOutReset (strap : BitVec 6) (inhibit cutRewrite : Bool)
  | setupRequestTimerExpiry
  | windowExpiry
  | joinListenExpiry
  | cycleTimerExpiry
  | cycleCompletion
  | bankBStart
  | deferredValveOpening (ch : Ch)
  | transducerReading (ch : Ch) (reading : SensorReading)
  | tExtExpiry (ch : Ch)
  | holdEnd (ch : Ch)
  | tRetExpiry (ch : Ch)
  | blindRetractionEnd (ch : Ch)
  | cureSampleEvent (reading : SensorReading)
  | probeSample (reading : SensorReading)
  | blankTimerExpiry
  | settleTimerExpiry
  | feedTimerExpiry
  | reportTimerExpiry
  | lineIdle
  | attemptStart
  | arbitrationLost
  | transmitError
  | sentWhole
  | muteTimerExpiry
  | busyLineTimerExpiry
  | haltLoopSensedAsserted
  | haltLoopSensedReleased
  | clearPendingTimerExpiry
  | supplyLow
  | supplyRecovery
  | inhibitAsserted
  | inhibitReleased
  | crystalStopped
  | crystalCycleSeen
  | crystalRunTimerExpiry
  | lineNotIdle
  deriving DecidableEq, Repr

end Sys2Proof
end

