-- ==== Sys2Proof/Machine/Items.lean ====
section
/-! DEFINITION. The setup record and its 87 items with their ranges and defaults (R206). -/

namespace Sys2Proof.Machine

/-- Range and default of one setup item; `gap` is a value inside the range that the item does not
allow (SUP_CLASS(1) allows WARN, LATCH and TRIP but not HOLD, section 10.1). -/
structure ItemSpec where
  lo : Int
  hi : Int
  default : Int
  gap : Option Int := none
  deriving DecidableEq, Repr

/-- One value per setup item, in order of identifier (R161, R206). -/
structure SetupRecord where
  values : Vector Int 87
  deriving DecidableEq, Repr

/-- Items 1 to 33: the rise program. -/
def programItems : List ItemSpec :=
  [⟨0, 2000000, 0, none⟩, ⟨1, 8, 1, none⟩]
    ++ List.replicate 8 ⟨1, 2000000, 100000, none⟩
    ++ List.replicate 8 ⟨0, 600, 150, none⟩
    ++ List.replicate 8 ⟨0, 1000, 100, none⟩
    ++ List.replicate 7 ⟨0, 1, 0, none⟩

/-- Items 34 to 43: cycle time, ramp, strokes, limits and the form. -/
def plannerItems : List ItemSpec :=
  [⟨30, 900, 300, none⟩, ⟨0, 300, 50, none⟩, ⟨100, 300, 200, none⟩, ⟨10, 100, 30, none⟩,
   ⟨0, 100, 20, none⟩, ⟨50, 2000, 500, none⟩, ⟨1000, 9000, 3000, none⟩,
   ⟨9000, 15000, 12000, none⟩, ⟨200, 4000, 1000, none⟩, ⟨10, 2000, 120, none⟩]

/-- Items 44 to 53: the cure curve. -/
def cureItems : List ItemSpec :=
  [⟨-50, 50, 0, none⟩, ⟨-300, 100, -100, none⟩, ⟨-300, 900, 600, none⟩, ⟨1, 3, 3, none⟩,
   ⟨-300, 900, 100, none⟩, ⟨-300, 900, 300, none⟩, ⟨0, 2000, 800, none⟩,
   ⟨0, 2000, 1000, none⟩, ⟨0, 2000, 600, none⟩, ⟨1, 60, 10, none⟩]

/-- Items 54 to 60: the jack channels. -/
def channelItems : List ItemSpec :=
  [⟨1, 15, 15, none⟩, ⟨0, 1, 0, none⟩, ⟨50, 2000, 200, none⟩, ⟨2, 60, 20, none⟩,
   ⟨2, 60, 20, none⟩, ⟨5, 50, 20, none⟩, ⟨0, 50, 10, none⟩]

/-- Items 61 to 66: the concrete feed. -/
def feedItems : List ItemSpec :=
  [⟨200, 14900, 3000, none⟩, ⟨100, 14000, 1000, none⟩, ⟨1, 10, 3, none⟩,
   ⟨30, 900, 300, none⟩, ⟨0, 10, 3, none⟩, ⟨1, 8, 2, none⟩]

/-- Items 67 to 74: the roster and the links. -/
def peerItems : List ItemSpec :=
  [⟨2, 59, 59, none⟩, ⟨200, 2000, 500, none⟩, ⟨2, 8, 4, none⟩, ⟨0, 1, 1, none⟩,
   ⟨1, 59, 1, none⟩, ⟨0, 59, 0, none⟩, ⟨0, 59, 0, none⟩, ⟨0, 59, 0, none⟩]

/-- Items 75 to 87: the classes, coded WARN 0, HOLD 1, LATCH 2, TRIP 3, and the two limits. -/
def supervisionItems : List ItemSpec :=
  [⟨0, 3, 2, some 1⟩, ⟨2, 3, 3, none⟩, ⟨2, 3, 2, none⟩, ⟨0, 3, 1, none⟩, ⟨0, 2, 1, none⟩,
   ⟨0, 1, 0, none⟩, ⟨2, 3, 3, none⟩, ⟨0, 1, 1, none⟩, ⟨0, 1, 0, none⟩, ⟨0, 1, 0, none⟩,
   ⟨0, 1, 0, none⟩, ⟨50, 3000, 400, none⟩, ⟨20, 500, 100, none⟩]

/-- The item table of R206, in order of identifier. -/
def itemTable : List ItemSpec :=
  programItems ++ plannerItems ++ cureItems ++ channelItems ++ feedItems ++ peerItems
    ++ supervisionItems

/-- The entry of the item with identifier `id` (1 to 87). -/
def itemSpec (id : Nat) : ItemSpec := itemTable.getD (id - 1) ⟨0, 0, 0, none⟩

/-- An identifier that R206 lists. -/
def itemListed (id : Nat) : Bool := decide (1 ≤ id) && decide (id ≤ 87)

/-- A value lies within the range of its item (R165, R205, R206). -/
def itemInRange (id : Nat) (v : Int) : Bool :=
  decide ((itemSpec id).lo ≤ v) && decide (v ≤ (itemSpec id).hi) && (itemSpec id).gap != some v

/-- The record of all defaults (R206). -/
def defaultRecord : SetupRecord := ⟨⟨(itemTable.map ItemSpec.default).toArray, rfl⟩⟩

end Sys2Proof.Machine
end

