-- ==== Sys2Proof/Machine/State.lean ====
section
/-! DEFINITION. The state of the station, block by block as section 2.2 of the scope file divides it,
and the state right after reset. Every item is owned by one block; INVENTORY.md lists each with the
rule that names it. -/

namespace Sys2Proof.Machine

/-! ### Names of the spec -/

/-- The station modes (R1). -/
inductive Mode where
  | setup | locked | joining | standing | climbing | paused | stopped | topped | reduced
  deriving DecidableEq, Repr

/-- The causes of a refused START (R5). -/
inductive RefusalCause where
  | notReady | neighbour | fault | stackEmpty
  deriving DecidableEq, Repr

/-- The channel states (R81). -/
inductive ChState where
  | off | rest | extend | hold | retract | inhibited | fault
  deriving DecidableEq, Repr

/-- The feed states IDLE, ASKING and OPEN (R111). -/
inductive FeedState where
  | idle | asking | opened
  deriving DecidableEq, Repr

/-- The liveness of a peer record (R126). -/
inductive Liveness where
  | unheard | live | silent
  deriving DecidableEq, Repr

/-- The limit causes of the plan record (R21). -/
inductive LimitCause where
  | none | held | segment | level | deck | exit | fill | ramp | program | strokeMax
  deriving DecidableEq, Repr

/-- The classes of a supervision (R182); REDUCED is SUPPLY LOW's own. -/
inductive FaultClass where
  | warn | hold | latch | trip | reduced
  deriving DecidableEq, Repr

/-- The sixteen supervisions' conditions, the first three per channel (section 10.2). An entry of the
latched set is named the same way (R181). -/
inductive Cond where
  | extendTimeout (ch : Ch)
  | retractTimeout (ch : Ch)
  | transducer (ch : Ch)
  | jackSpread
  | neighbourLost
  | peerSilent
  | tilt
  | probe
  | temperature
  | line
  | duplicateNumber
  | clockFallback
  | feedTimeout
  | supplyLow
  | haltLoop
  | inhibit
  deriving DecidableEq, Repr

/-! ### Four like things, one per channel -/

/-- One value for each of the channels 1 to 4. -/
structure PerChannel (α : Type) where
  ch1 : α
  ch2 : α
  ch3 : α
  ch4 : α
  deriving DecidableEq, Repr

/-! ### Mode controller -/

/-- The pause-cause set: each member at most once and at most one SEGMENT ENTRY(k) (R6). -/
structure PauseSet where
  operator : Bool
  faultHold : Bool
  rejoin : Bool
  segment : Option Nat
  deriving DecidableEq, Repr

/-- What the mode controller owns (chapter 1, R20). -/
structure ModeCtl where
  mode : Mode
  pause : PauseSet
  /-- The segment release set, in rising order without repeats (R10). -/
  released : List Nat
  rateScale : Nat
  feedHold : Bool
  refusal : Option RefusalCause
  returnMode : Option Mode
  deriving DecidableEq, Repr

/-! ### Rise planner -/

/-- The plan record (R21). An inactive channel's target is 0. -/
structure PlanRecord where
  rise : Nat
  candidate : Option Nat
  cause : LimitCause
  belowMin : Bool
  segment : Option Nat
  targets : PerChannel Nat
  deriving DecidableEq, Repr

/-- What the rise planner owns: the ramp count and the last plan record (R21). -/
structure Planner where
  ramp : Nat
  last : PlanRecord
  deriving DecidableEq, Repr

/-! ### Stroke sequencer -/

/-- Whether a channel still waits for the first reading that decides its homing, and which reset
course set it there (R105). -/
inductive Homing where
  | none | atCommit | atRestore
  deriving DecidableEq, Repr

/-- The channel record (R81). `deferred` holds the moment of a valve opening put off by the dead time
(R82); which valve it is follows from the state. -/
structure Channel where
  state : ChState
  climbed : Nat
  target : Nat
  startPending : Bool
  x : Option Nat
  readingValid : Bool
  xPeak : Nat
  blind : Bool
  pressureOpen : Bool
  dumpOpen : Bool
  pressureClosed : Nat
  dumpClosed : Nat
  strokeTimer : Timer
  deferred : Option Nat
  homing : Homing
  deriving DecidableEq, Repr

/-- What the stroke sequencer owns (chapter 5). -/
structure Sequencer where
  cycleTimer : Timer
  expiryHeld : Bool
  chans : PerChannel Channel
  height : Nat
  strokeCount : Nat
  deriving DecidableEq, Repr

/-! ### Layer stack -/

/-- One layer (R47). -/
structure Layer where
  seq : Nat
  bottom : Nat
  top : Nat
  placed : Nat
  maturity : Nat
  adopted : Bool
  deriving DecidableEq, Repr

/-- What the layer stack owns; `layers` runs from bottom to top (R48). -/
structure Stack where
  layers : List Layer
  concreteTop : Option Nat
  nextSeq : Nat
  reckoning : Bool
  deriving DecidableEq, Repr

/-! ### Cure integrator -/

/-- What the cure integrator owns (R66, R70, R79). -/
structure Cure where
  clock : Nat
  sampleTimer : Timer
  lastTemp : Option Int
  missed : Nat
  rate : Nat
  /-- The temperature in use at the last sample event (R79). -/
  inUse : Option Int
  deriving DecidableEq, Repr

/-! ### Feed controller -/

/-- What the feed controller owns (R111). -/
structure Feed where
  state : FeedState
  settled : Bool
  settleTimer : Timer
  feedTimer : Timer
  gate : Bool
  depth : Option Nat
  blankTimer : Timer
  /-- The probe reading is valid (R109). -/
  probeValid : Bool
  /-- The 1 s interval of the probe samples (R106). -/
  probeTimer : Timer
  deriving DecidableEq, Repr

/-! ### Peer table -/

/-- One peer record with the number it belongs to (R126). -/
structure Peer where
  number : Nat
  liveness : Liveness
  miss : Nat
  heard : Bool
  height : Option Nat
  strokeCount : Option Nat
  feed : Option FeedState
  deficit : Option Nat
  topMaturity : Option Nat
  deriving DecidableEq, Repr

/-- What the peer table owns (chapter 7): the records in rising order of number, the duplicate count
and mark, and the link list in the order of its forming (R134). -/
structure Peers where
  records : List Peer
  dupMiss : Nat
  dupHeard : Bool
  links : List Nat
  deriving DecidableEq, Repr

/-! ### Line interface -/

/-- The priorities a station's report carries: 1 urgent, 2 periodic (R141). -/
inductive Prio where
  | urgent | periodic
  deriving DecidableEq, Repr

/-- The REPORT slot with its priority, and the follow-on request while it is SENDING (R141). -/
inductive ReportSlot where
  | empty
  | pending (p : Prio)
  | sending (p : Prio) (followOn : Option Prio)
  deriving DecidableEq, Repr

/-- The SETUP REQUEST slot (R141). -/
inductive SetupSlot where
  | empty | pending | sending
  deriving DecidableEq, Repr

/-- The frame of the attempt under way, as gathered at its start (R158, R199). -/
structure TxFrame where
  priority : Nat
  sender : Nat
  kind : Nat
  payload : List Nat
  check : Nat
  deriving DecidableEq, Repr

/-- What the line interface owns (R141). -/
structure Line where
  report : ReportSlot
  setupRequest : SetupSlot
  idle : Bool
  errors : Nat
  muted : Bool
  muteTimer : Timer
  busyTimer : Timer
  reportTimer : Timer
  sender : Nat
  frame : Option TxFrame
  deriving DecidableEq, Repr

/-! ### Join unit -/

/-- The setup stages (R161). -/
inductive SetupStage where
  | waiting | window | committed | closed
  deriving DecidableEq, Repr

/-- The last commit result (R161, R167, R204). -/
inductive CommitResult where
  | none
  | check (staged : Nat)
  | range (item : Nat)
  | rule (order : Nat)
  deriving DecidableEq, Repr

/-- The join kinds (R161). -/
inductive JoinKind where
  | none | afterCommit | afterRestore
  deriving DecidableEq, Repr

/-- The join states (R161). -/
inductive JoinState where
  | none | listening | waitingForLink | done
  deriving DecidableEq, Repr

/-- What an image of the retained record keeps, less its generation and check (R170). -/
structure Kept where
  number : Nat
  setup : SetupRecord
  mode : Mode
  climbed : PerChannel Nat
  strokeCount : Nat
  layers : List Layer
  released : List Nat
  latched : List Cond
  deriving DecidableEq, Repr

/-- One image of the retained record (R170). -/
structure Image where
  kept : Kept
  generation : Nat
  check : Nat
  deriving DecidableEq, Repr

/-- What the join unit owns (R161). An image marked invalid, or lost with the hold-up store, is
`none`. -/
structure Join where
  ownNumber : Nat
  stage : SetupStage
  staged : SetupRecord
  marks : Vector Bool 87
  committed : Option SetupRecord
  windowTimer : Timer
  requestTimer : Timer
  itemsReceived : Nat
  lastCommit : CommitResult
  kind : JoinKind
  listenTimer : Timer
  state : JoinState
  /-- The retained mode held from a restore to the end of its join (R173). -/
  restoredMode : Option Mode
  imageA : Option Image
  imageB : Option Image
  deriving DecidableEq, Repr

/-! ### Supervisor -/

/-- The cause of a latched HALT LOOP (R192). -/
inductive HaltCause where
  | self | other
  deriving DecidableEq, Repr

/-- What the supervisor owns (R181). The class of each supervision is read from the setup record in
force, so it is not held a second time. `present` and `latched` hold no repeats. -/
structure Supervisor where
  present : List Cond
  latched : List Cond
  armed : Bool
  haltCause : Option HaltCause
  clearPending : Bool
  clearTimer : Timer
  /-- The halt drive is pulling. -/
  drive : Bool
  /-- The halt loop is sensed asserted. -/
  loopSensed : Bool
  /-- The supply state is LOW. -/
  supplyLow : Bool
  /-- The time base is the crystal. -/
  onCrystal : Bool
  crystalTimer : Timer
  deriving DecidableEq, Repr

/-! ### A report's fields -/

/-- The stack fields of a report, present when the stack holds a layer (R61, R203). -/
structure StackView where
  depth : Nat
  bottomMaturity : Nat
  topMaturity : Nat
  topSeq : Nat
  topAge : Nat
  deriving DecidableEq, Repr

/-- The fields of a REPORT (R157, R202). -/
structure Report where
  mode : Mode
  feed : FeedState
  belowMin : Bool
  adopted : Bool
  operator : Bool
  faultHold : Bool
  rejoin : Bool
  segmentEntry : Option Nat
  refusal : Option RefusalCause
  cause : LimitCause
  segment : Option Nat
  stack : Option StackView
  rateScale : Nat
  height : Option Nat
  strokeCount : Nat
  channels : PerChannel ChState
  candidate : Option Nat
  temperature : Option Int
  cureRate : Nat
  deficit : Option Nat
  /-- The 32 fault set bits, bit 0 of the fault set table being the most significant. -/
  faults : Nat
  deriving DecidableEq, Repr

/-! ### The whole station -/

/-- The state of the station. `now` is the model's count of milliseconds of the station's time base
since the end of the last reset (notes/assumptions/1.md); `strap` and `inhibitInput` are the pins an
event leaves standing; `pending` is the queue of commands. -/
structure State where
  now : Nat
  strap : BitVec 6
  inhibitInput : Bool
  ctl : ModeCtl
  plan : Planner
  seq : Sequencer
  stack : Stack
  cure : Cure
  feed : Feed
  peers : Peers
  line : Line
  join : Join
  sup : Supervisor
  pending : List Instr
  deriving DecidableEq, Repr

/-- The reasons the station could stop with a fault. There is none: the spec gives every command an
effect in every state, if only to be ignored. -/
inductive Fault where
  deriving DecidableEq, Repr

/-- The reasons a command could be refused. -/
inductive Refusal where
  /-- Raised by an arm of `exec` whose command has no meaning yet. Safe: no next state is claimed. No
  arm raises it. -/
  | notModelled (mnemonic : String)
  deriving DecidableEq, Repr

/-! ### After reset -/

/-- A channel after a power-on reset (R105). -/
def State.resetChannel : Channel :=
  { state := .off, climbed := 0, target := 0, startPending := false, x := none,
    readingValid := false, xPeak := 0, blind := false, pressureOpen := false, dumpOpen := false,
    pressureClosed := 0, dumpClosed := 0, strokeTimer := none, deferred := none, homing := .none }

/-- A peer record after a reset (R140). -/
def State.resetPeer (n : Nat) : Peer :=
  { number := n, liveness := .unheard, miss := 0, heard := false, height := none,
    strokeCount := none, feed := none, deficit := none, topMaturity := none }

/-- The station right after a power-on reset with the strap pins reading `Config.resetStrap`, the jack
inhibit input released and nothing commanded (R20, R22, R63, R80, R105, R124, R140, R160, R163, R180,
R198). -/
def State.reset : State :=
  { now := 0
    strap := Config.resetStrap
    inhibitInput := false
    ctl := { mode := .setup, pause := ⟨false, false, false, none⟩, released := [],
             rateScale := 100, feedHold := false, refusal := none, returnMode := none }
    plan := { ramp := 0, last := ⟨0, none, .none, false, none, ⟨0, 0, 0, 0⟩⟩ }
    seq := { cycleTimer := none, expiryHeld := false,
             chans := ⟨State.resetChannel, State.resetChannel, State.resetChannel,
               State.resetChannel⟩,
             height := 0, strokeCount := 0 }
    stack := { layers := [], concreteTop := none, nextSeq := 0, reckoning := false }
    cure := { clock := 0, sampleTimer := some 60000, lastTemp := none, missed := 0, rate := 0,
              inUse := none }
    feed := { state := .idle, settled := false, settleTimer := none, feedTimer := none,
              gate := false, depth := none, blankTimer := none, probeValid := false,
              probeTimer := some 1000 }
    peers := { records := (((List.range 59).map (· + 1)).filter (· != 17)).map State.resetPeer,
               dupMiss := 0, dupHeard := false, links := [] }
    line := { report := .empty, setupRequest := .pending, idle := false, errors := 0,
              muted := false, muteTimer := none, busyTimer := none, reportTimer := some 500,
              sender := 17, frame := none }
    join := { ownNumber := 17, stage := .waiting, staged := defaultRecord,
              marks := Vector.replicate 87 false, committed := none, windowTimer := none,
              requestTimer := some 5000, itemsReceived := 0, lastCommit := .none, kind := .none,
              listenTimer := none, state := .none, restoredMode := none, imageA := none,
              imageB := none }
    sup := { present := [.clockFallback], latched := [], armed := false, haltCause := none,
             clearPending := false, clearTimer := none, drive := false, loopSensed := false,
             supplyLow := false, onCrystal := false, crystalTimer := none }
    pending := [] }

end Sys2Proof.Machine
end

