-- ==== Sys2Proof/Machine/Operands.lean ====
section
/-! DEFINITION. What commands read: the channels, the setup items in force by name (R206), the addressing
of console frames (R13, R165, R167) and the judging of sensor readings (R68, R83, R106). -/

namespace Sys2Proof

/-- The channels in order. -/
def Ch.all : List Ch := [.c1, .c2, .c3, .c4]

/-- Bank A is channels 1 and 3, bank B channels 2 and 4 (section 4.4). -/
def Ch.bankA : Ch → Bool
  | .c1 => true
  | .c2 => false
  | .c3 => true
  | .c4 => false

/-- The place of a channel in a channel mask and in a report, from 0. -/
def Ch.index : Ch → Nat
  | .c1 => 0
  | .c2 => 1
  | .c3 => 2
  | .c4 => 3

namespace Machine

/-! ### Four like things -/

def PerChannel.get {α : Type} (p : PerChannel α) : Ch → α
  | .c1 => p.ch1
  | .c2 => p.ch2
  | .c3 => p.ch3
  | .c4 => p.ch4

def PerChannel.set {α : Type} (p : PerChannel α) (c : Ch) (a : α) : PerChannel α :=
  match c with
  | .c1 => { p with ch1 := a }
  | .c2 => { p with ch2 := a }
  | .c3 => { p with ch3 := a }
  | .c4 => { p with ch4 := a }

/-- The four values, each worked out from its channel. -/
def PerChannel.ofFn {α : Type} (f : Ch → α) : PerChannel α := ⟨f .c1, f .c2, f .c3, f .c4⟩

def PerChannel.map {α β : Type} (f : α → β) (p : PerChannel α) : PerChannel β :=
  ⟨f p.ch1, f p.ch2, f p.ch3, f p.ch4⟩

def PerChannel.toList {α : Type} (p : PerChannel α) : List α := [p.ch1, p.ch2, p.ch3, p.ch4]

/-! ### Setup items by name (R206) -/

/-- The value of the item with identifier `id`; 0 for an identifier that is not listed. -/
def SetupRecord.item (r : SetupRecord) (id : Nat) : Int := r.values.toList.getD (id - 1) 0

/-- The value of an item whose range holds no negative number. -/
def SetupRecord.nat (r : SetupRecord) (id : Nat) : Nat := (r.item id).toNat

/-- The record with one item replaced; unchanged where the identifier is not listed. -/
def SetupRecord.put (r : SetupRecord) (id : Nat) (v : Int) : SetupRecord :=
  ⟨r.values.setIfInBounds (id - 1) v⟩

def SetupRecord.programStart (r : SetupRecord) : Nat := r.nat 1
def SetupRecord.segCount (r : SetupRecord) : Nat := r.nat 2
def SetupRecord.segLen (r : SetupRecord) (k : Nat) : Nat := r.nat (2 + k)
def SetupRecord.segRate (r : SetupRecord) (k : Nat) : Nat := r.nat (10 + k)
def SetupRecord.segLead (r : SetupRecord) (k : Nat) : Nat := r.nat (18 + k)
/-- SEG_HOLD(k), for k from 2 to 8. -/
def SetupRecord.segHold (r : SetupRecord) (k : Nat) : Bool := r.item (25 + k) == 1
def SetupRecord.cycleTime (r : SetupRecord) : Nat := r.nat 34
def SetupRecord.rampStep (r : SetupRecord) : Nat := r.nat 35
def SetupRecord.strokeNominal (r : SetupRecord) : Nat := r.nat 36
def SetupRecord.strokeMin (r : SetupRecord) : Nat := r.nat 37
def SetupRecord.trimMax (r : SetupRecord) : Nat := r.nat 38
def SetupRecord.deckSpread (r : SetupRecord) : Nat := r.nat 39
def SetupRecord.concreteMin (r : SetupRecord) : Nat := r.nat 40
def SetupRecord.formHeight (r : SetupRecord) : Nat := r.nat 41
def SetupRecord.layerMin (r : SetupRecord) : Nat := r.nat 42
/-- M_exit in maturity units (section 3.1). -/
def SetupRecord.exitUnits (r : SetupRecord) : Nat := r.nat 43 * Config.unitsPerDegreeHour
def SetupRecord.tempTrim (r : SetupRecord) : Int := r.item 44
def SetupRecord.datum (r : SetupRecord) : Int := r.item 45
def SetupRecord.tempCap (r : SetupRecord) : Int := r.item 46
def SetupRecord.cureSegs (r : SetupRecord) : Nat := r.nat 47
def SetupRecord.knee1 (r : SetupRecord) : Int := r.item 48
def SetupRecord.knee2 (r : SetupRecord) : Int := r.item 49
def SetupRecord.slope1 (r : SetupRecord) : Int := r.item 50
def SetupRecord.slope2 (r : SetupRecord) : Int := r.item 51
def SetupRecord.slope3 (r : SetupRecord) : Int := r.item 52
def SetupRecord.tempHold (r : SetupRecord) : Nat := r.nat 53
/-- CH_ACTIVE names the channel (the channel mask of R206). -/
def SetupRecord.active (r : SetupRecord) (c : Ch) : Bool := (r.nat 54).testBit c.index
def SetupRecord.banked (r : SetupRecord) : Bool := r.item 55 == 1
/-- T_dead in ms. -/
def SetupRecord.deadTime (r : SetupRecord) : Nat := r.nat 56
/-- T_ext in ms. -/
def SetupRecord.extendTime (r : SetupRecord) : Nat := r.nat 57 * 1000
/-- T_ret in ms. -/
def SetupRecord.retractTime (r : SetupRecord) : Nat := r.nat 58 * 1000
def SetupRecord.home (r : SetupRecord) : Nat := r.nat 59
def SetupRecord.jawLoss (r : SetupRecord) : Nat := r.nat 60
def SetupRecord.depthCall (r : SetupRecord) : Nat := r.nat 61
def SetupRecord.depthFull (r : SetupRecord) : Nat := r.nat 62
/-- FEED_SETTLE in ms. -/
def SetupRecord.settleTime (r : SetupRecord) : Nat := r.nat 63 * 1000
/-- T_feed in ms. -/
def SetupRecord.feedTime (r : SetupRecord) : Nat := r.nat 64 * 1000
/-- T_blank in ms. -/
def SetupRecord.blankTime (r : SetupRecord) : Nat := r.nat 65 * 1000
def SetupRecord.gateMax (r : SetupRecord) : Nat := r.nat 66
def SetupRecord.roster (r : SetupRecord) : Nat := r.nat 67
/-- T_rep in ms. -/
def SetupRecord.reportPeriod (r : SetupRecord) : Nat := r.nat 68
def SetupRecord.missLimit (r : SetupRecord) : Nat := r.nat 69
def SetupRecord.linkRing (r : SetupRecord) : Bool := r.item 70 == 1
def SetupRecord.ringFirst (r : SetupRecord) : Nat := r.nat 71
/-- The ring's highest number: RING_LAST, or ROSTER_N where RING_LAST is 0 (R134, R168). -/
def SetupRecord.ringLast (r : SetupRecord) : Nat := if r.nat 72 = 0 then r.roster else r.nat 72
def SetupRecord.linkX1 (r : SetupRecord) : Nat := r.nat 73
def SetupRecord.linkX2 (r : SetupRecord) : Nat := r.nat 74
def SetupRecord.tiltMax (r : SetupRecord) : Nat := r.nat 86
def SetupRecord.spreadMax (r : SetupRecord) : Nat := r.nat 87

/-- The setup record in force: the committed one, or the defaults before a commit (R161). -/
def State.setup (s : State) : SetupRecord := s.join.committed.getD defaultRecord

/-! ### The rise program (R26) -/

/-- The start of segment `k`, k from 1. -/
def SetupRecord.segStart (r : SetupRecord) (k : Nat) : Nat :=
  r.programStart + ((List.range (k - 1)).map fun j => r.segLen (j + 1)).sum

/-- The program top: the end of segment SEG_COUNT. -/
def SetupRecord.programTop (r : SetupRecord) : Nat := r.segStart (r.segCount + 1)

/-- The segments whose entry holds take part in the program, 2 to SEG_COUNT. -/
def SetupRecord.heldSegments (r : SetupRecord) : List Nat :=
  [2, 3, 4, 5, 6, 7, 8].filter fun k => decide (k ≤ r.segCount) && r.segHold k

/-! ### Frames from consoles and stations -/

/-- A sender number of an operator console, 60 to 63. -/
def isConsole (sender : BitVec 6) : Bool := decide (60 ≤ sender.toNat)

/-- A console frame for every station or for this one (R13, R165, R167, R205). -/
def addressed (s : State) (sender : BitVec 6) (target : Byte) : Bool :=
  isConsole sender && (target.toNat == 0 || target.toNat == s.join.ownNumber)

/-- The modes in which deck commands are taken (R13). -/
def Mode.takesCommands : Mode → Bool
  | .setup => false
  | .locked => false
  | .joining => false
  | .standing => true
  | .climbing => true
  | .paused => true
  | .stopped => true
  | .topped => true
  | .reduced => false

/-- CLIMBING or PAUSED: the modes in which the cycle timer runs. -/
def Mode.climbs : Mode → Bool
  | .setup => false
  | .locked => false
  | .joining => false
  | .standing => false
  | .climbing => true
  | .paused => true
  | .stopped => false
  | .topped => false
  | .reduced => false

/-- STANDING, CLIMBING or PAUSED: the modes that allow feeding and have entry checks (R11, R110). -/
def Mode.works : Mode → Bool
  | .setup => false
  | .locked => false
  | .joining => false
  | .standing => true
  | .climbing => true
  | .paused => true
  | .stopped => false
  | .topped => false
  | .reduced => false

/-- The five modes the retained record can keep (R170). They are the modes that take commands. -/
def Mode.retainable (m : Mode) : Bool := m.takesCommands

/-- The mode, or in REDUCED the return mode (R17, R171). -/
def State.effectiveMode (s : State) : Mode :=
  match s.ctl.mode with
  | .reduced => s.ctl.returnMode.getD .reduced
  | m => m

/-- The station height is set: from a restore at the reset itself, otherwise from the end of the join
(R108, R137). -/
def State.heightSet (s : State) : Bool :=
  s.join.kind == .afterRestore || s.join.state == .done

/-! ### Sensor readings -/

/-- A transducer reading is valid when the sensor is not open and shows 0 to 320 (R83). -/
def transducerValue : SensorReading → Option Nat
  | .openCircuit => none
  | .value v => if 0 ≤ v ∧ v ≤ Config.transducerTop then some v.toNat else none

/-- A probe sample is valid when the input is not open and shows 0 to F (R106). -/
def probeValue (form : Nat) : SensorReading → Option Nat
  | .openCircuit => none
  | .value v => if 0 ≤ v ∧ v ≤ form then some v.toNat else none

/-- A raw temperature is valid when the input is not open and shows −400 to +1,000 (R68). -/
def temperatureValue : SensorReading → Option Int
  | .openCircuit => none
  | .value v => if -400 ≤ v ∧ v ≤ 1000 then some v else none

end Machine

end Sys2Proof
end

