-- ==== Sys2Proof/Machine/Frame.lean ====
section
/-! DEFINITION. Frames bit by bit: the checks (R201), the frame a station sends (R199), the tests by which
a frame arrives whole (R150, R200) and the REPORT payload (R202, R203). -/

namespace Sys2Proof.Machine

/-! ### Bits and checks -/

/-- The `w` lowest bits of a number, most significant first. -/
def natBits (w v : Nat) : List Bool := (List.range w).map fun i => v.testBit (w - 1 - i)

/-- The register of R201 over a message: it shifts left by one place at each bit, and takes the
generator pattern by exclusive-or where the bit shifted out differs from the message bit. -/
def checkRegister (w pattern : Nat) (reg : Nat) : List Bool → Nat
  | [] => reg
  | b :: bs =>
    match reg.testBit (w - 1) != b with
    | true => checkRegister w pattern ((reg <<< 1) % 2 ^ w ^^^ pattern) bs
    | false => checkRegister w pattern ((reg <<< 1) % 2 ^ w) bs

/-- x^16 + x^14 + x^13 + x^11 + x^10 + x^9 + x^8 + x^6 + x^5 + x + 1, below x^16 (R201). -/
def framePattern : Nat :=
  2 ^ 14 + 2 ^ 13 + 2 ^ 11 + 2 ^ 10 + 2 ^ 9 + 2 ^ 8 + 2 ^ 6 + 2 ^ 5 + 2 + 1

/-- x^8 + x^6 + x^3 + x^2 + 1, below x^8 (R201). -/
def setupPattern : Nat := 2 ^ 6 + 2 ^ 3 + 2 ^ 2 + 1

/-- The frame check: 16 bits, preset to all ones. -/
def frameCheck (message : List Bool) : Nat := checkRegister 16 framePattern 0xFFFF message

/-- A value as a 32-bit two's complement number. -/
def word32 (v : Int) : Nat := (v % 4294967296).toNat

/-- The 8-bit check of R201 over 32-bit values: the setup check and the check of a retained image. -/
def wordsCheck (words : List Int) : Nat :=
  checkRegister 8 setupPattern 0 (words.flatMap fun v => natBits 32 (word32 v))

/-- The setup check over a record (R164, R167). -/
def SetupRecord.check (r : SetupRecord) : Nat := wordsCheck r.values.toList

/-- The message of a frame check: from the first arbitration bit to the last payload bit. -/
def frameMessage (priority sender kind : Nat) (payload : List Nat) : List Bool :=
  natBits 2 priority ++ natBits 6 sender ++ natBits 3 kind ++ natBits 5 payload.length
    ++ payload.flatMap (natBits 8)

/-- The `n` bytes of a number, most significant first. -/
def bytesOf (n v : Nat) : List Nat := (List.range n).map fun i => v / 256 ^ (n - 1 - i) % 256

/-- The number that bytes spell, most significant first. -/
def ofBytes (bs : List Nat) : Nat := bs.foldl (fun a b => a * 256 + b) 0

/-! ### Frames sent and received -/

/-- The frame a station sends, its check worked over the whole message (R199, R201). -/
def TxFrame.make (priority sender kind : Nat) (payload : List Nat) : TxFrame :=
  { priority := priority, sender := sender, kind := kind, payload := payload,
    check := frameCheck (frameMessage priority sender kind payload) }

/-- The arbitration value of a frame (R144). -/
def TxFrame.arbitration (f : TxFrame) : Nat := f.priority * 64 + f.sender

/-- The frame as every party on a sound line reads it. -/
def TxFrame.received (f : TxFrame) : RxFrame :=
  { startSeen := true, priority := BitVec.ofNat 2 f.priority, sender := BitVec.ofNat 6 f.sender,
    kind := BitVec.ofNat 3 f.kind, length := BitVec.ofNat 5 f.payload.length,
    payload := f.payload.map (BitVec.ofNat 8), check := BitVec.ofNat 16 f.check,
    codeViolation := false, endSeen := true }

/-- The payload length of a kind, for the five known kinds (R199, R200). -/
def kindLength : Nat → Option Nat
  | 1 => some 28
  | 2 => some 3
  | 3 => some 6
  | 4 => some 2
  | 5 => some 5
  | _ => none

/-- A frame arrives whole (R150, R200, R201). Its priority is not compared with its kind. -/
def rxWhole (f : RxFrame) : Bool :=
  f.startSeen && f.endSeen && !f.codeViolation
    && kindLength f.kind.toNat == some f.length.toNat
    && f.payload.length == f.length.toNat
    && f.check.toNat
        == frameCheck (frameMessage f.priority.toNat f.sender.toNat f.kind.toNat
            (f.payload.map BitVec.toNat))

/-- The command of a frame that arrived whole, by its kind (R151, R204). -/
def commandOfWhole (f : RxFrame) : Instr :=
  let bytes := f.payload.map BitVec.toNat
  let byte (i : Nat) : Byte := BitVec.ofNat 8 (bytes.getD i 0)
  match f.kind.toNat with
  | 1 => .report f.sender (BitVec.ofNat 224 (ofBytes bytes))
  | 2 =>
    match (byte 1).toNat with
    | 1 => .start f.sender (byte 0) (byte 2)
    | 2 => .stop f.sender (byte 0) (byte 2)
    | 3 => .pause f.sender (byte 0) (byte 2)
    | 4 => .resume f.sender (byte 0) (byte 2)
    | 5 => .clear f.sender (byte 0) (byte 2)
    | 6 => .rateScale f.sender (byte 0) (byte 2)
    | 7 => .feedHold f.sender (byte 0) (byte 2)
    | _ => .frameDiscarded f
  | 3 => .setupData f.sender (byte 0) (byte 1) (BitVec.ofNat 32 (ofBytes (bytes.drop 2)))
  | 4 => .setupCommit f.sender (byte 0) (byte 1)
  | 5 => .peerSetupRequest f.sender (BitVec.ofNat 40 (ofBytes bytes))
  | _ => .frameDiscarded f

/-- The command that a frame another party sent brings about at its end: discarded where it fails a
test for arriving whole, and without effect where its command code is not listed (R13, R150, R151). -/
def commandOfFrame (f : RxFrame) : Instr :=
  if rxWhole f then commandOfWhole f else .frameDiscarded f

/-! ### The REPORT payload (R202) -/

/-- Fields of given widths packed into one number, the first field most significant. -/
def packFields : List (Nat × Nat) → Nat
  | [] => 0
  | (w, v) :: rest => v % 2 ^ w * 2 ^ (rest.map Prod.fst).sum + packFields rest

/-- The fields of given widths read back from a number. -/
def unpackFields : List Nat → Nat → List Nat
  | [], _ => []
  | w :: rest, n => n / 2 ^ rest.sum % 2 ^ w :: unpackFields rest n

/-- The widths of the REPORT payload's fields, in the order of the table of R202. -/
def reportWidths : List Nat :=
  [4, 2, 1, 1, 1, 1, 1, 4, 3, 4, 4, 5, 8, 21, 16, 3, 3, 3, 3, 9, 11, 11, 16, 16, 11, 12, 14, 32, 4]

def Mode.code : Mode → Nat
  | .setup => 0
  | .locked => 1
  | .joining => 2
  | .standing => 3
  | .climbing => 4
  | .paused => 5
  | .stopped => 6
  | .topped => 7
  | .reduced => 8

def Mode.ofCode : Nat → Option Mode
  | 0 => some .setup
  | 1 => some .locked
  | 2 => some .joining
  | 3 => some .standing
  | 4 => some .climbing
  | 5 => some .paused
  | 6 => some .stopped
  | 7 => some .topped
  | 8 => some .reduced
  | _ => none

def FeedState.code : FeedState → Nat
  | .idle => 0
  | .asking => 1
  | .opened => 2

def FeedState.ofCode : Nat → Option FeedState
  | 0 => some .idle
  | 1 => some .asking
  | 2 => some .opened
  | _ => none

/-- Refusal cause, 0 absent. -/
def refusalCode : Option RefusalCause → Nat
  | none => 0
  | some .notReady => 1
  | some .neighbour => 2
  | some .fault => 3
  | some .stackEmpty => 4

def refusalOfCode : Nat → Option (Option RefusalCause)
  | 0 => some none
  | 1 => some (some .notReady)
  | 2 => some (some .neighbour)
  | 3 => some (some .fault)
  | 4 => some (some .stackEmpty)
  | _ => none

def LimitCause.code : LimitCause → Nat
  | .none => 0
  | .held => 1
  | .segment => 2
  | .level => 3
  | .deck => 4
  | .exit => 5
  | .fill => 6
  | .ramp => 7
  | .program => 8
  | .strokeMax => 9

def LimitCause.ofCode : Nat → Option LimitCause
  | 0 => some .none
  | 1 => some .held
  | 2 => some .segment
  | 3 => some .level
  | 4 => some .deck
  | 5 => some .exit
  | 6 => some .fill
  | 7 => some .ramp
  | 8 => some .program
  | 9 => some .strokeMax
  | _ => none

def ChState.code : ChState → Nat
  | .off => 0
  | .rest => 1
  | .extend => 2
  | .hold => 3
  | .retract => 4
  | .inhibited => 5
  | .fault => 6

def ChState.ofCode : Nat → Option ChState
  | 0 => some .off
  | 1 => some .rest
  | 2 => some .extend
  | 3 => some .hold
  | 4 => some .retract
  | 5 => some .inhibited
  | 6 => some .fault
  | _ => none

/-- The field values of a report, in the order of R202. Bits 220 to 223 are sent as 0. -/
def Report.codes (r : Report) : List Nat :=
  [r.mode.code, r.feed.code, r.belowMin.toNat, r.adopted.toNat, r.operator.toNat,
   r.faultHold.toNat, r.rejoin.toNat, r.segmentEntry.getD 0, refusalCode r.refusal, r.cause.code,
   r.segment.getD 0, (r.stack.map StackView.depth).getD 0, r.rateScale, r.height.getD 2097151,
   r.strokeCount, r.channels.ch1.code, r.channels.ch2.code, r.channels.ch3.code,
   r.channels.ch4.code, r.candidate.getD 511, (r.stack.map StackView.bottomMaturity).getD 0,
   (r.stack.map StackView.topMaturity).getD 0, (r.stack.map StackView.topSeq).getD 0,
   (r.stack.map StackView.topAge).getD 0,
   (r.temperature.map fun t => (t + 450).toNat).getD 2047, r.cureRate, r.deficit.getD 16383,
   r.faults, 0]

/-- The 224 bits of a report as a number (R202). -/
def encodeReport (r : Report) : Nat := packFields (reportWidths.zip r.codes)

/-- The codes of R202 that the table gives: a report with any other is not entered (R203). With stack depth 0
the maturities are bits sent as 0 (R203), which a receiver ignores (R200). The fault set passes whatever its 32 bits hold, bit 28 at 1 beside bit 27 at 0 among them (notes/assumptions/27.md). -/
def codesGiven : List Nat → Bool
  | [mode, feed, _, _, _, _, _, seg, refusal, cause, cur, depth, scale, height, _, a, b, c, d, cand,
      bot, top, _, _, temp, rate, deficit, _, _] =>
    decide (mode ≤ 8) && decide (feed ≤ 2) && (seg == 0 || (decide (2 ≤ seg) && decide (seg ≤ 8)))
      && decide (refusal ≤ 4) && decide (cause ≤ 9) && decide (cur ≤ 8) && decide (depth ≤ 16)
      && decide (scale ≤ 150) && (decide (height ≤ 2000000) || height == 2097151)
      && decide (a ≤ 6) && decide (b ≤ 6) && decide (c ≤ 6) && decide (d ≤ 6)
      && (decide (cand ≤ 300) || cand == 511) && (depth == 0 || (decide (bot ≤ 2000) && decide (top ≤ 2000)))
      && (decide (temp ≤ 1500) || temp == 2047) && decide (rate ≤ 2400)
      && (decide (deficit ≤ 15000) || deficit == 16383)
  | _ => false

/-- A station in this mode reports its height: in any but SETUP, LOCKED and JOINING (R104, R203). -/
def Mode.reportsHeight : Mode → Bool
  | .setup | .locked | .joining => false
  | _ => true

/-- The fields read from their codes. By R203 the height of a report in SETUP, LOCKED or JOINING is absent
(R126, R137), the candidate rise and the current segment are absent with limit cause NONE and the stack fields
with stack depth 0, whatever their bits hold; any other field is absent where its own code says so
(notes/assumptions/33.md). The planned rise is not a field of its own. -/
def reportOfCodes : List Nat → Option Report
  | [mode, feed, below, adopted, op, fh, rj, seg, refusal, cause, cur, depth, scale, height, count,
      a, b, c, d, cand, bot, top, seqno, age, temp, rate, deficit, faults, _] => do
    let mode ← Mode.ofCode mode
    let feed ← FeedState.ofCode feed
    let refusal ← refusalOfCode refusal
    let cause ← LimitCause.ofCode cause
    let a ← ChState.ofCode a
    let b ← ChState.ofCode b
    let c ← ChState.ofCode c
    let d ← ChState.ofCode d
    pure
      { mode := mode, feed := feed, belowMin := below == 1, adopted := adopted == 1,
        operator := op == 1, faultHold := fh == 1, rejoin := rj == 1,
        segmentEntry := if seg = 0 then none else some seg, refusal := refusal, cause := cause,
        segment := if cause = .none ∨ cur = 0 then none else some cur,
        stack := if depth = 0 then none else some ⟨depth, bot, top, seqno, age⟩,
        rateScale := scale,
        height := if mode.reportsHeight = false ∨ height = 2097151 then none else some height,
        strokeCount := count, channels := ⟨a, b, c, d⟩,
        candidate := if cause = .none ∨ cand = 511 then none else some cand,
        temperature := if temp = 2047 then none else some ((temp : Int) - 450),
        cureRate := rate, deficit := if deficit = 16383 then none else some deficit,
        faults := faults }
  | _ => none

/-- The report a payload spells, or none where a field holds a value that R202 does not give. The
reserved bits are ignored (R200, R203). -/
def decodeReport (n : Nat) : Option Report :=
  let codes := unpackFields reportWidths n
  if codesGiven codes then reportOfCodes codes else none

/-- The planned rise a receiver takes from a report (R203). -/
def Report.plannedRise (r : Report) : Nat :=
  if r.cause = .none ∨ r.cause = .held ∨ r.belowMin = true then 0 else r.candidate.getD 0

end Sys2Proof.Machine
end

