-- ==== Sys2Proof/Decode.lean ====
section
/-! DEFINITION. The word decoder over the rows of spec/opcode_table.json that give bits. No row of this
table gives any ("fields" is empty in all 51 and none has a "fixed"), so no word spells a command. What
spells a command on the deck line is a frame: `Machine.commandOfFrame`. -/

namespace Sys2Proof

/-- The command that a word spells by the table's bits: none, for the table gives no bits. -/
def decodeTableWord (_nbits _w : Nat) : Option Instr := none

end Sys2Proof
end

