-- ==== Sys2Proof/Machine/Flags.lean ====
section
/-! DEFINITION. The supervisions: their classes (R181, R182), the HOLD-class conditions (R183), the fault
set a report carries (R197) and its bits (R202). -/

namespace Sys2Proof.Machine

/-- Every condition, in the order of section 10.2, the per-channel ones channel by channel. -/
def Cond.all : List Cond :=
  Ch.all.map .extendTimeout ++ Ch.all.map .retractTimeout ++ Ch.all.map .transducer
    ++ [.jackSpread, .neighbourLost, .peerSilent, .tilt, .probe, .temperature, .line,
        .duplicateNumber, .clockFallback, .feedTimeout, .supplyLow, .haltLoop, .inhibit]

/-- A class from its setup code: WARN 0, HOLD 1, LATCH 2, TRIP 3 (R206). -/
def FaultClass.ofCode (v : Int) : FaultClass :=
  if v = 1 then .hold else if v = 2 then .latch else if v = 3 then .trip else .warn

/-- The class of a supervision under a setup record (section 10.1, R181). -/
def SetupRecord.classOf (r : SetupRecord) : Cond → FaultClass
  | .extendTimeout _ => .ofCode (r.item 75)
  | .retractTimeout _ => .ofCode (r.item 76)
  | .transducer _ => .ofCode (r.item 77)
  | .jackSpread => .ofCode (r.item 78)
  | .neighbourLost => .ofCode (r.item 79)
  | .peerSilent => .ofCode (r.item 80)
  | .tilt => .ofCode (r.item 81)
  | .probe => .ofCode (r.item 82)
  | .temperature => .ofCode (r.item 83)
  | .line => .hold
  | .duplicateNumber => .trip
  | .clockFallback => .ofCode (r.item 84)
  | .feedTimeout => .ofCode (r.item 85)
  | .supplyLow => .reduced
  | .haltLoop => .latch
  | .inhibit => .hold

/-- The deck supervisions: NEIGHBOUR LOST, PEER SILENT and TILT (R185). -/
def Cond.isDeck : Cond → Bool
  | .neighbourLost => true
  | .peerSilent => true
  | .tilt => true
  | _ => false

/-- The class of a supervision in force (R181). -/
def State.classOf (s : State) (c : Cond) : FaultClass := s.setup.classOf c

/-- A condition takes its class effect: it is no deck supervision, or those are armed (R185). -/
def State.effective (s : State) (c : Cond) : Bool := !c.isDeck || s.sup.armed

/-- The condition is present (R181). -/
def State.isPresent (s : State) (c : Cond) : Bool := s.sup.present.contains c

/-- The entry is in the latched set (R181). -/
def State.isLatched (s : State) (c : Cond) : Bool := s.sup.latched.contains c

/-- The latched set is empty. -/
def State.noneLatched (s : State) : Bool := s.sup.latched.isEmpty

/-- A HOLD-class condition is present (R183). -/
def State.holdPresent (s : State) : Bool :=
  s.sup.present.any fun c => s.classOf c == .hold && s.effective c

/-- A condition of class LATCH or TRIP that takes its class effect (R184). -/
def State.latching (s : State) (c : Cond) : Bool :=
  (s.classOf c == .latch || s.classOf c == .trip) && s.effective c

/-- A TRIP-class entry is latched (R191). -/
def State.tripLatched (s : State) : Bool := s.sup.latched.any fun c => s.classOf c == .trip

/-- What the fault set shows (R197): the members, the latched ones, the cause and mark of HALT LOOP and
the halt drive. -/
structure FaultView where
  shown : List Cond
  latched : List Cond
  cause : Option HaltCause
  clearPending : Bool
  drive : Bool
  deriving DecidableEq, Repr

/-- The fault set as it stands (R197). -/
def faultView (s : State) : FaultView :=
  { shown := Cond.all.filter fun c => s.isPresent c || s.isLatched c
    latched := Cond.all.filter s.isLatched
    cause := s.sup.haltCause
    clearPending := s.sup.clearPending
    drive := s.sup.drive }

/-- The 32 fault set bits in the order of the second table of R202. -/
def faultBits (s : State) : List Bool :=
  (Ch.all.map fun c => s.isPresent (.extendTimeout c) || s.isLatched (.extendTimeout c))
    ++ [Ch.all.any fun c => s.isLatched (.extendTimeout c)]
    ++ (Ch.all.map fun c => s.isLatched (.retractTimeout c))
    ++ (Ch.all.map fun c => s.isLatched (.transducer c))
    ++ [s.isPresent .jackSpread || s.isLatched .jackSpread, s.isLatched .jackSpread,
        s.isPresent .neighbourLost || s.isLatched .neighbourLost, s.isLatched .neighbourLost,
        s.isPresent .peerSilent,
        s.isPresent .tilt || s.isLatched .tilt, s.isLatched .tilt,
        s.isPresent .probe, s.isPresent .temperature, s.isPresent .line,
        s.isLatched .duplicateNumber,
        s.isPresent .clockFallback, s.isPresent .feedTimeout, s.isPresent .supplyLow,
        s.isLatched .haltLoop, s.sup.haltCause == some .other, s.sup.clearPending,
        s.isPresent .inhibit, s.sup.drive]

/-- The fault set bits as a number, bit 0 most significant. -/
def faultCode (s : State) : Nat :=
  (faultBits s).foldl (fun a b => a * 2 + b.toNat) 0

end Sys2Proof.Machine
end

