-- ==== Sys2Proof/Machine/Retained.lean ====
section
/-! DEFINITION. The retained record (R170 to R172): its contents, its two images and the rewrite that each
change of an item it keeps brings about (notes/assumptions/6.md). -/

namespace Sys2Proof.Machine

/-! ### Contents and images -/

/-- The items of R170 as they stand. In REDUCED the retained mode is the return mode. -/
def keptOf (s : State) : Kept :=
  { number := s.join.ownNumber
    setup := s.setup
    mode := s.effectiveMode
    climbed := s.seq.chans.map Channel.climbed
    strokeCount := s.seq.strokeCount
    layers := s.stack.layers
    released := s.ctl.released
    latched := s.sup.latched }

/-- The retained record is kept: from the end of the first join on, and not while the mode, or the
return mode in REDUCED, is SETUP, LOCKED or JOINING (R171). -/
def recordable (s : State) : Bool :=
  s.join.state == .done && s.effectiveMode.retainable

/-- A layer's fields in the order of R47. -/
def layerWords (l : Layer) : List Int :=
  [l.seq, l.bottom, l.top, l.placed, l.maturity, (l.adopted.toNat : Nat)]

/-- The contents of an image in the order of R170, each item as 32-bit words
(notes/assumptions/7.md). -/
def imageWords (k : Kept) (generation : Nat) : List Int :=
  [(k.number : Int)] ++ k.setup.values.toList ++ [(generation : Int), (k.mode.code : Int)]
    ++ (k.climbed.toList.map fun h : Nat => (h : Int)) ++ [(k.strokeCount : Int)]
    ++ [(k.layers.length : Int)] ++ k.layers.flatMap layerWords
    ++ [(k.released.length : Int)] ++ (k.released.map fun n : Nat => (n : Int))
    ++ (Cond.all.map fun c => ((k.latched.contains c).toNat : Int))

/-- An image with its check worked last (R171, R201). -/
def Image.make (k : Kept) (generation : Nat) : Image :=
  { kept := k, generation := generation, check := wordsCheck (imageWords k generation) }

/-- Every value of a record lies within its item's range. -/
def recordInRange (r : SetupRecord) : Bool :=
  (List.range 87).all fun i => itemInRange (i + 1) (r.item (i + 1))

/-- An image is valid: its check agrees, and its retained mode and committed record lie within their
ranges (R172). -/
def imageValid : Option Image → Bool
  | none => false
  | some i =>
    i.check == wordsCheck (imageWords i.kept i.generation) && i.kept.mode.retainable
      && recordInRange i.kept.setup

/-- `b` is the later of two generations: it is reached from `a` by counting forward fewer than 128
steps (R172). -/
def laterGeneration (a b : Nat) : Bool := decide ((b + 256 - a) % 256 < 128)

/-- The image in use: the valid one, or the later of two (R172). -/
def usedImage (a b : Option Image) : Option Image :=
  match imageValid a, imageValid b with
  | false, false => none
  | true, false => a
  | false, true => b
  | true, true =>
    match a, b with
    | some i, some j => if laterGeneration i.generation j.generation then b else a
    | _, _ => none

/-- The image that the next rewrite goes to is B: A is valid and B is not, or both are and B does not
hold the later generation (R171). Where neither is valid the model takes A. -/
def rewriteIntoB (a b : Option Image) : Bool :=
  match imageValid a, imageValid b with
  | true, false => true
  | true, true =>
    match a, b with
    | some i, some j => !laterGeneration i.generation j.generation
    | _, _ => false
  | _, _ => false

/-- The generation of the next image: one after the used image's, or 0 where none is valid (R171). -/
def nextGeneration (a b : Option Image) : Nat :=
  match usedImage a b with
  | some i => (i.generation + 1) % 256
  | none => 0

/-- The image that a rewrite makes of the station as it stands (R171). -/
def newImage (s : State) : Image :=
  Image.make (keptOf s) (nextGeneration s.join.imageA s.join.imageB)

/-- The images A and B after a rewrite (R171). -/
def rewritten (s : State) : Option Image × Option Image :=
  if rewriteIntoB s.join.imageA s.join.imageB then (s.join.imageA, some (newImage s))
  else (some (newImage s), s.join.imageB)

/-- A change of the station is handed to the join unit: with `changed`, an item that the record keeps has
changed, and the record is rewritten where one is kept (R171). -/
def keepChange (changed : Bool) (s : State) : State :=
  { s with
    join.imageA := if changed && recordable s then (rewritten s).1 else s.join.imageA
    join.imageB := if changed && recordable s then (rewritten s).2 else s.join.imageB }

/-- An image whose rewrite was cut off: its check is not the one of its contents (R171,
notes/assumptions/7.md). -/
def Image.cutOff (i : Image) : Image :=
  { i with check := (wordsCheck (imageWords i.kept i.generation) + 1) % 256 }

/-- The images as a brown-out finds them: with `cut` it met a rewrite, and the image that was being
written is left with a check that disagrees (R171). A station that keeps no record makes no rewrite
(notes/assumptions/6.md). -/
def imagesFound (cut : Bool) (s : State) : Option Image × Option Image :=
  let a := s.join.imageA
  let b := s.join.imageB
  if cut && recordable s then
    if rewriteIntoB a b then (a, b.map Image.cutOff) else (a.map Image.cutOff, b)
  else (a, b)

end Sys2Proof.Machine
end

