-- ==== Sys2Proof/Machine/Ops.lean ====
section
/-! DEFINITION. The operations the commands share, from the line's slots up to latching a fault. Each block
owns its state (section 2.2 of the scope file); an operation here is what one block does when another
hands it an event. -/

namespace Sys2Proof.Machine

/-! ### Time (notes/assumptions/1.md) -/

/-- The moment of a timer's expiry is not before the moment the timer was set to. -/
def expireAt (t : Timer) (s : State) : State :=
  { s with now := max s.now (t.getD 0) }

/-! ### Line interface: the slots (R153, R155) -/

/-- The lesser of two priorities; 1 is urgent. -/
def Prio.lesser : Prio → Prio → Prio
  | .urgent, _ => .urgent
  | .periodic, p => p

/-- A request for a report acts on the REPORT slot by its state (R153). -/
def ReportSlot.request (p : Prio) : ReportSlot → ReportSlot
  | .empty => .pending p
  | .pending q => .pending (p.lesser q)
  | .sending q none => .sending q (some p)
  | .sending q (some f) => .sending q (some (p.lesser f))

/-- The REPORT slot after an attempt that was lost, failed or cut (R155). -/
def ReportSlot.retry : ReportSlot → ReportSlot
  | .sending q none => .pending q
  | .sending q (some f) => .pending (q.lesser f)
  | r => r

/-- The REPORT slot after an attempt sent whole (R155). -/
def ReportSlot.sent : ReportSlot → ReportSlot
  | .sending _ none => .empty
  | .sending _ (some f) => .pending f
  | r => r

def ReportSlot.isPending : ReportSlot → Bool
  | .pending _ => true
  | _ => false

def ReportSlot.isSending : ReportSlot → Bool
  | .sending _ _ => true
  | _ => false

/-- A block hands the line interface a request for a report (R153, R157). -/
def requestReport (p : Prio) (s : State) : State :=
  { s with line.report := s.line.report.request p }

/-- A request finds the SETUP REQUEST slot EMPTY and makes it PENDING, or leaves it as it is (R153). -/
def requestSetup (s : State) : State :=
  { s with line.setupRequest :=
      match s.line.setupRequest with
      | .empty => .pending
      | r => r }

/-- The station leaves SETUP: a PENDING SETUP REQUEST slot becomes EMPTY (R153). -/
def SetupSlot.leaveSetup : SetupSlot → SetupSlot
  | .pending => .empty
  | r => r

/-! ### Layer stack (chapter 3) -/

/-- The next sequence number after one is drawn (R49). -/
def nextSequence (n : Nat) : Nat := (n + 1) % 65536

/-- Layers whose tops are at or below `h` leave from the bottom (R56). -/
def removeBelow (h : Nat) (ls : List Layer) : List Layer :=
  ls.dropWhile fun l => decide (l.top ≤ h)

/-- The removal of R56 against the station height. -/
def removeExited (s : State) : State :=
  { s with stack.layers := removeBelow s.seq.height s.stack.layers }

/-- The height from which a reckoning measures: the top of the highest layer, or H (R52). -/
def reckonBase (h : Nat) (ls : List Layer) : Nat := (ls.getLast?.map Layer.top).getD h

/-- A push (R53). The new layer's bottom is the former top as it stands, also above the 2,000,000 that the
table of R47 gives for a bottom (notes/assumptions/25.md). -/
def pushLayer (h top placed : Nat) (adopted : Bool) (maturity : Nat) (st : Stack) : Stack :=
  { st with
    layers := st.layers ++
      [{ seq := st.nextSeq, bottom := reckonBase h st.layers, top := top, placed := placed,
         maturity := maturity, adopted := adopted }]
    nextSeq := nextSequence st.nextSeq }

/-- The highest layer rewritten in place (R54). -/
def mergeTop (top placed : Nat) : List Layer → List Layer
  | [] => []
  | [l] => [{ l with top := top, maturity := 0, placed := placed }]
  | l :: m :: rest => l :: mergeTop top placed (m :: rest)

/-- The reckoning of R52 from a concrete top, at cure-clock minute `placed`. -/
def reckon (r : SetupRecord) (h placed top : Nat) (st : Stack) : Stack :=
  let base := reckonBase h st.layers
  let done : Stack := { st with reckoning := false }
  if top ≤ base then done
  else if st.layers = [] then pushLayer h top placed false 0 done
  else if top - base < r.layerMin ∨ Config.maxLayers ≤ st.layers.length then
    { done with layers := mergeTop top placed st.layers }
  else pushLayer h top placed false 0 done

/-- The stack after a usable probe sample: the concrete top is formed (R50), then a pending reckoning is
made (R51). -/
def sampledStack (depth : Nat) (s : State) : Stack :=
  let top := s.seq.height + s.setup.formHeight - depth
  let st : Stack := { s.stack with concreteTop := some top }
  if st.reckoning then reckon s.setup s.seq.height s.cure.clock top st else st

/-- A usable probe sample handed to the stack; a push or a merge rewrites the retained record (R171). -/
def stackSample (depth : Nat) (s : State) : State :=
  keepChange ((sampledStack depth s).layers != s.stack.layers)
    { s with stack := sampledStack depth s }

/-- A cure rate added to every layer, saturating (R58). -/
def addMaturity (r : Nat) (ls : List Layer) : List Layer :=
  ls.map fun l => { l with maturity := min Config.maturityCap (l.maturity + r) }

/-- The exit limit: the top of the highest layer of the mature run, or H (R59). -/
def exitLimit (s : State) : Nat :=
  (((s.stack.layers.takeWhile fun l => decide (s.setup.exitUnits ≤ l.maturity)).getLast?).map
    Layer.top).getD s.seq.height

/-! ### Feed controller (chapter 6) -/

/-- Feeding is allowed (R110). -/
def feedAllowed (s : State) : Bool :=
  s.ctl.mode.works && !s.ctl.feedHold && s.feed.probeValid

/-- The blank timer started with T_blank; a T_blank of 0 ends at once (R107). -/
def blankStart (s : State) : Timer :=
  if s.setup.blankTime = 0 then none else some (s.now + s.setup.blankTime)

/-- Some active channel is in EXTEND, HOLD or RETRACT (R107). -/
def anyMoving (s : State) : Bool :=
  s.seq.chans.toList.any fun c => c.state == .extend || c.state == .hold || c.state == .retract

/-- The probe is blanked (R107). -/
def blanked (s : State) : Bool := anyMoving s || s.feed.blankTimer.isSome

/-- What every gate close does (R122), entering IDLE or, after a yield, ASKING with a fresh settle. -/
def closeGate (next : FeedState) (s : State) : State :=
  requestReport .urgent
    { s with
      feed.gate := false
      feed.feedTimer := none
      feed.blankTimer := blankStart s
      feed.state := next
      feed.settled := false
      feed.settleTimer := if next = .asking then some (s.now + s.setup.settleTime) else none
      stack.reckoning := true }

/-- The entry to ASKING from IDLE (R112). -/
def enterAsking (s : State) : State :=
  requestReport .urgent
    { s with
      feed.state := .asking
      feed.settled := false
      feed.settleTimer := some (s.now + s.setup.settleTime) }

/-- The return from ASKING to IDLE (R117). -/
def leaveAsking (s : State) : State :=
  requestReport .urgent
    { s with feed.state := .idle, feed.settled := false, feed.settleTimer := none }

/-- D is above D_call (R112). -/
def depthCalls (s : State) : Bool :=
  match s.feed.depth with
  | some d => decide (s.setup.depthCall < d)
  | none => false

/-- A station in IDLE tests whether it should ask (R112). -/
def askIfShort (s : State) : State :=
  if s.feed.state = .idle ∧ feedAllowed s = true ∧ depthCalls s = true then enterAsking s else s

/-- The permission is judged again after a change (R110); `was` is the permission before it. -/
def rejudgeFeed (was : Bool) (s : State) : State :=
  if feedAllowed s then if was then s else askIfShort s
  else
    match s.feed.state with
    | .idle => s
    | .asking => leaveAsking s
    | .opened => closeGate .idle s

/-- A successful admission opens the gate (R116). -/
def openGate (s : State) : State :=
  requestReport .urgent
    { s with
      feed.state := .opened
      feed.gate := true
      feed.settled := false
      feed.settleTimer := none
      feed.feedTimer := some (s.now + s.setup.feedTime) }

/-! ### Peer table: what readers see (chapter 7) -/

/-- The record of a station number. -/
def peerOf (s : State) (n : Nat) : Option Peer := s.peers.records.find? fun p => p.number == n

/-- A linked neighbour is available: its record is LIVE and carries a height (R135). -/
def available (s : State) (n : Nat) : Bool :=
  match peerOf s n with
  | some p => p.liveness == .live && p.height.isSome
  | none => false

/-- Every linked neighbour is available. -/
def allAvailable (s : State) : Bool := s.peers.links.all (available s)

/-- The records of the available linked neighbours. -/
def availablePeers (s : State) : List Peer :=
  (s.peers.links.filter (available s)).filterMap (peerOf s)

/-- The heights of the available linked neighbours. -/
def linkedHeights (s : State) : List Nat := (availablePeers s).filterMap Peer.height

/-- The linked floor (R136). -/
def linkedFloor (s : State) : Option Nat := (linkedHeights s).min?

/-- The linked ceiling (R136). -/
def linkedCeiling (s : State) : Option Nat := (linkedHeights s).max?

/-- The heights of all peers that are LIVE and carry one (R137). -/
def liveHeights (s : State) : List Nat :=
  (s.peers.records.filter fun p => p.liveness == .live).filterMap Peer.height

/-- The deck floor while H is set (R137). -/
def deckFloor (s : State) : Nat := (liveHeights s).foldl min s.seq.height

/-! ### Mode controller (chapter 1) -/

/-- The pause-cause set holds no member. -/
def PauseSet.isEmpty (p : PauseSet) : Bool :=
  !p.operator && !p.faultHold && !p.rejoin && p.segment.isNone

/-- The pause-cause set without members. -/
def PauseSet.empty : PauseSet := ⟨false, false, false, none⟩

/-- Segment `k`'s entry hold is unreleased (R10). -/
def unreleased (s : State) (k : Nat) : Bool := !s.ctl.released.contains k

/-- The waiting segment: the lowest-numbered unreleased held segment whose start lies at or below H
(R10). -/
def waitingSegment (s : State) : Option Nat :=
  s.setup.heldSegments.find? fun k => unreleased s k && decide (s.setup.segStart k ≤ s.seq.height)

/-- The second entry check: a waiting segment joins a pause-cause set without a SEGMENT ENTRY (R11). -/
def addWaiting (s : State) (p : PauseSet) : PauseSet :=
  if p.segment.isNone then { p with segment := waitingSegment s } else p

/-- The plan record after a reset and outside CLIMBING and PAUSED (R22). -/
def PlanRecord.blank : PlanRecord := ⟨0, none, .none, false, none, ⟨0, 0, 0, 0⟩⟩

/-- H is at or above the program top (R11). -/
def atTop (s : State) : Bool := decide (s.setup.programTop ≤ s.seq.height)

/-- The mode and the pause-cause set in which a station settles that enters `m` with the set `p`: the
entry checks are made before the mode is handed on (R1, R11). -/
def settle (m : Mode) (p : PauseSet) (s : State) : Mode × PauseSet :=
  if m.works && atTop s then (.topped, .empty)
  else if m.climbs then
    let q := addWaiting s p
    (if q.isEmpty then m else .paused, q)
  else (m, p)

/-- The pause-cause set with which a station enters mode `m`: emptied for STANDING, STOPPED and TOPPED
(R6), with FAULT HOLD for CLIMBING and PAUSED entered from any other mode while a HOLD-class condition
is present (R8). -/
def entryPause (m : Mode) (s : State) : PauseSet :=
  match m with
  | .standing => .empty
  | .stopped => .empty
  | .topped => .empty
  | .climbing | .paused =>
    if !s.ctl.mode.climbs && s.holdPresent then { s.ctl.pause with faultHold := true }
    else s.ctl.pause
  | _ => s.ctl.pause

/-- A mode taken on, with what R1 and R22 tie to it: the plan record is cleared outside CLIMBING and
PAUSED, the cycle timer starts with its first expiry at once or stops and drops a held expiry (R85), a
PENDING SETUP REQUEST is dropped outside SETUP (R153), the report is requested, and a change of the
retained mode rewrites the retained record (R171). -/
def takeMode (m : Mode) (p : PauseSet) (s : State) : State :=
  let fresh := m.climbs && !s.ctl.mode.climbs
  keepChange (m != s.effectiveMode)
    (requestReport .urgent
      { s with
        ctl.mode := m
        ctl.pause := p
        ctl.returnMode := none
        plan.last := if m.climbs then s.plan.last else .blank
        seq.cycleTimer :=
          if m.climbs then (if fresh then some s.now else s.seq.cycleTimer) else none
        seq.expiryHeld := m.climbs && !fresh && s.seq.expiryHeld
        line.setupRequest :=
          if m = .setup then s.line.setupRequest else s.line.setupRequest.leaveSetup })

/-- The entry to a mode other than REDUCED (R1, R6, R8, R11, R22). An entry to CLIMBING sets the ramp
count to 0 even where the entry checks take the station straight on (R4, R6). -/
def enterMode (m : Mode) (s : State) : State :=
  let settled := settle m (entryPause m s) s
  let ramped : State := if m = .climbing then { s with plan.ramp := 0 } else s
  rejudgeFeed (feedAllowed s) (takeMode settled.1 settled.2 ramped)

/-- A member joins the pause-cause set: in CLIMBING the station enters PAUSED (R6). `f` adds it. In
REDUCED it joins as though the station were in the return mode (R17). -/
def addPause (f : PauseSet → PauseSet) (s : State) : State :=
  match s.ctl.mode with
  | .climbing => enterMode .paused { s with ctl.pause := f s.ctl.pause }
  | .paused => { s with ctl.pause := f s.ctl.pause }
  | .reduced =>
    if (s.ctl.returnMode.getD .reduced).climbs then { s with ctl.pause := f s.ctl.pause } else s
  | _ => s

/-- A member leaves the pause-cause set: when the last one leaves in PAUSED the station enters CLIMBING
(R6). `f` removes it. -/
def dropPause (f : PauseSet → PauseSet) (s : State) : State :=
  let p := f s.ctl.pause
  if p = s.ctl.pause then s
  else if s.ctl.mode = .paused ∧ p.isEmpty = true then
    enterMode .climbing { s with ctl.pause := p }
  else { s with ctl.pause := p }

/-- FAULT HOLD follows the first onset and the last end of the HOLD-class conditions (R8, R183);
`before` says whether one was present before the change. -/
def followHold (before : Bool) (s : State) : State :=
  if before = s.holdPresent then s
  else if before then dropPause (fun p => { p with faultHold := false }) s
  else addPause (fun p => { p with faultHold := true }) s

/-- REJOIN leaves at the first moment at which every linked neighbour is available (R9). -/
def checkRejoin (s : State) : State :=
  if s.ctl.pause.rejoin && allAvailable s then
    dropPause (fun p => { p with rejoin := false }) s
  else s

/-- The segment part of the entry checks (R10, R11). -/
def segmentCheck (s : State) : State :=
  if s.ctl.mode.climbs && s.ctl.pause.segment.isNone && (waitingSegment s).isSome then
    addPause (addWaiting s) s
  else s

/-- The entry checks after a credit (R11). -/
def creditChecks (s : State) : State :=
  if s.ctl.mode.works && atTop s then enterMode .topped s else segmentCheck s

/-- What the mode controller does at a latch (R15, R17); the return mode changes the retained mode (R171). -/
def latchMode (s : State) : State :=
  match s.ctl.mode with
  | .standing | .climbing | .paused => enterMode .stopped s
  | .reduced =>
    if (s.ctl.returnMode.getD .reduced).works then
      keepChange true { s with ctl.returnMode := some .stopped, ctl.pause := .empty }
    else s
  | _ => s

/-! ### Stroke sequencer: one channel (chapter 5) -/

/-- The pressure valve closes; the closing time of a closed valve is not moved (R82). -/
def Channel.closePressure (now : Nat) (c : Channel) : Channel :=
  if c.pressureOpen then { c with pressureOpen := false, pressureClosed := now } else c

/-- The dump valve closes (R82). -/
def Channel.closeDump (now : Nat) (c : Channel) : Channel :=
  if c.dumpOpen then { c with dumpOpen := false, dumpClosed := now } else c

/-- Both valves close, a deferred opening is cancelled and the stroke timer stops (R82). -/
def Channel.shut (now : Nat) (c : Channel) : Channel :=
  { (c.closePressure now).closeDump now with strokeTimer := none, deferred := none }

/-- The pressure valve is called to open: at once where the dead time has run since the dump valve
closed, otherwise deferred to that moment (R82, R88). -/
def Channel.callPressure (r : SetupRecord) (now : Nat) (c : Channel) : Channel :=
  if c.dumpClosed + r.deadTime ≤ now then
    { c with pressureOpen := true, deferred := none, strokeTimer := some (now + r.extendTime) }
  else { c with deferred := some (c.dumpClosed + r.deadTime), strokeTimer := none }

/-- The dump valve is called to open (R82, R91, R92). -/
def Channel.callDump (r : SetupRecord) (now : Nat) (c : Channel) : Channel :=
  if c.pressureClosed + r.deadTime ≤ now then
    { c with dumpOpen := true, deferred := none, strokeTimer := some (now + r.retractTime) }
  else { c with deferred := some (c.pressureClosed + r.deadTime), strokeTimer := none }

/-- A channel comes to stand with its valves shut in `st` (R84, R92, R99, R101, R103). -/
def Channel.stand (st : ChState) (now : Nat) (c : Channel) : Channel :=
  { c.shut now with state := st, blind := false, homing := .none }

/-- As `stand`, with the start pending mark cleared. -/
def Channel.halt (st : ChState) (now : Nat) (c : Channel) : Channel :=
  { c.stand st now with startPending := false }

/-- HOLD starts at the closing of the pressure valve and lasts T_dead (R91, R98). -/
def Channel.toHold (r : SetupRecord) (now : Nat) (c : Channel) : Channel :=
  { c.shut now with state := .hold, strokeTimer := some (now + r.deadTime) }

/-- The entry to RETRACT with the dump valve called to open (R91, R92). -/
def Channel.toRetract (r : SetupRecord) (now : Nat) (blind : Bool) (c : Channel) : Channel :=
  Channel.callDump r now { c.shut now with state := .retract, blind := blind, homing := .none }

/-- The entry to EXTEND of a start that is made (R88). -/
def Channel.toExtend (r : SetupRecord) (now : Nat) (c : Channel) : Channel :=
  Channel.callPressure r now
    { c with state := .extend, startPending := false, xPeak := c.x.getD 0, blind := false }

/-- The jack stands above X_home (R92, R100, R102, R103). -/
def Channel.aboveHome (r : SetupRecord) (c : Channel) : Bool := decide (r.home < c.x.getD 0)

/-- A channel whose retraction is decided by its last reading: blind where that was invalid, none at
or below X_home (R100, R102). -/
def Channel.decideHome (r : SetupRecord) (now : Nat) (c : Channel) : Channel :=
  if !c.readingValid then c.toRetract r now true
  else if c.aboveHome r then c.toRetract r now false
  else c.stand .rest now

/-- A start that falls due (R88). -/
def Channel.startDue (r : SetupRecord) (now : Nat) (c : Channel) : Channel :=
  if !c.readingValid then c.halt .fault now
  else if c.target ≤ c.x.getD 0 then { c with startPending := false }
  else c.toExtend r now

/-- The channel moves: EXTEND, HOLD or RETRACT. -/
def Channel.moving (c : Channel) : Bool :=
  c.state == .extend || c.state == .hold || c.state == .retract

/-- The channel is active: any state but OFF (R81). -/
def Channel.isActive (c : Channel) : Bool := c.state != .off

/-! ### Stroke sequencer: all channels -/

/-- The record of a channel. -/
def State.chan (s : State) (c : Ch) : Channel := s.seq.chans.get c

/-- A channel's record changed. -/
def updateCh (c : Ch) (f : Channel → Channel) (s : State) : State :=
  { s with seq.chans := s.seq.chans.set c (f (s.chan c)) }

/-- Every channel's record changed. -/
def updateAll (f : Channel → Channel) (s : State) : State :=
  { s with seq.chans := s.seq.chans.map f }

/-- The climbed heights of the active channels. -/
def activeHeights (q : PerChannel Channel) : List Nat :=
  (q.toList.filter Channel.isActive).map Channel.climbed

/-- The mean of a list of heights, rounded down; 0 for none. -/
def meanOf (hs : List Nat) : Nat := hs.sum / hs.length

/-- The station height is worked as the mean of the active channels' climbed heights (R94). -/
def workHeight (s : State) : State :=
  { s with seq.height := meanOf (activeHeights s.seq.chans) }

/-- Every active channel is in REST with no start pending (R85, R86). -/
def allAtRest (s : State) : Bool :=
  s.seq.chans.toList.all fun c => !c.isActive || (c.state == .rest && !c.startPending)

/-- A latch cuts the extensions under way and cancels every start pending (R98). -/
def Channel.cut (r : SetupRecord) (now : Nat) (c : Channel) : Channel :=
  let d : Channel := { c with startPending := false }
  if c.state = .extend then d.toHold r now else d

def cutExtensions (s : State) : State := updateAll (Channel.cut s.setup s.now) s

/-! ### Supervisor (chapter 10) -/

/-- A TRIP-class entry of the latched set pulls the halt loop (R191). -/
def pullForTrip (c : Cond) (s : State) : State :=
  if s.classOf c = .trip then { s with sup.drive := true } else s

/-- The entry joins the latched set; HALT LOOP takes its cause from the station's own drive (R184,
R192). -/
def joinLatched (c : Cond) (s : State) : State :=
  { s with
    sup.latched := s.sup.latched ++ [c]
    sup.haltCause :=
      if c = .haltLoop then some (if s.sup.drive then .self else .other) else s.sup.haltCause }

/-- A latch (R184), in the rule's order: the mode controller acts, the extensions are cut, a TRIP pulls the
halt loop and the change of the latched set rewrites the retained record. -/
def latch (c : Cond) (s : State) : State :=
  if s.isLatched c then s
  else keepChange true (pullForTrip c (cutExtensions (latchMode (joinLatched c s))))

/-- The onset of a condition that an owning block hands on (R182, R183, R184). -/
def raiseCond (c : Cond) (s : State) : State :=
  if s.isPresent c then s
  else
    let shown : State := { s with sup.present := s.sup.present ++ [c] }
    followHold s.holdPresent (if shown.latching c then latch c shown else shown)

/-- The end of a condition that an owning block hands on (R182, R183). -/
def lapseCond (c : Cond) (s : State) : State :=
  if s.isPresent c then
    followHold s.holdPresent { s with sup.present := s.sup.present.filter (· != c) }
  else s

/-- A condition judged present or absent. -/
def judgeCond (c : Cond) (present : Bool) (s : State) : State :=
  if present then raiseCond c s else lapseCond c s

/-- TILT against the linked floor and ceiling (R188). -/
def tilted (s : State) : Bool :=
  s.heightSet &&
    match linkedFloor s, linkedCeiling s with
    | some lo, some hi =>
      decide (s.setup.tiltMax < s.seq.height - lo) || decide (s.setup.tiltMax < hi - s.seq.height)
    | _, _ => false

def judgeTilt (s : State) : State := judgeCond .tilt (tilted s) s

/-- The greatest climbed height of the active channels less the least (R187). -/
def jackSpread (q : PerChannel Channel) : Nat :=
  ((activeHeights q).max?.getD 0) - ((activeHeights q).min?.getD 0)

def judgeSpread (s : State) : State :=
  judgeCond .jackSpread (decide (s.setup.spreadMax < jackSpread s.seq.chans)) s

/-- A roster number outside the link list has a SILENT record (R135). -/
def peerSilent (s : State) : Bool :=
  s.peers.records.any fun p => p.liveness == .silent && !s.peers.links.contains p.number

/-- NEIGHBOUR LOST and PEER SILENT judged after an arrival, a sweep or the forming of the link list
(R135). -/
def judgePeers (s : State) : State :=
  let t := judgeCond .neighbourLost (!allAvailable s) s
  judgeCond .peerSilent (peerSilent t) t

/-! ### Crediting (R93, R95) -/

/-- The channel's climbed height after a credit (R93). -/
def Channel.credited (r : SetupRecord) (c : Channel) : Channel :=
  { c with climbed := min Config.heightMax (c.climbed + (c.xPeak - r.jawLoss)) }

/-- The height and the stack after a credit (R93, R94, R56). -/
def creditHeight (c : Ch) (s : State) : State :=
  removeExited (workHeight (updateCh c (Channel.credited s.setup) s))

/-- A credit, handed on in the order of R95: H and the removal, the entry checks, the supervisor's checks.
The retained record is rewritten once the removals have been made (R57, R171, notes/assumptions/6.md). -/
def credit (c : Ch) (s : State) : State :=
  judgeSpread (judgeTilt (creditChecks (keepChange true (creditHeight c s))))

end Sys2Proof.Machine
end

