-- ==== Sys2Proof/Machine/Finish.lean ====
section
/-! DEFINITION. `finish`, which closes every command: what the rules tie to a change of any block at the same
event (notes/assumptions/16.md). -/

namespace Sys2Proof.Machine

/-- EXTEND TIMEOUT of a channel ends when the channel enters REST, FAULT or INHIBITED (R186). -/
def extendTimeoutOver (s : State) : Cond → Bool
  | .extendTimeout c =>
    (s.chan c).state == .rest || (s.chan c).state == .fault || (s.chan c).state == .inhibited
  | _ => false

def endExtendTimeouts (s : State) : State :=
  { s with sup.present := s.sup.present.filter fun c => !extendTimeoutOver s c }

/-- The blank timer starts at the moment the last moving channel leaves its motion (R107). -/
def blankAfterMotion (s t : State) : State :=
  if anyMoving s && !anyMoving t then { t with feed.blankTimer := blankStart t } else t

/-- A change of the fault set makes an urgent request (R197). -/
def reportFaults (s t : State) : State :=
  if faultView t = faultView s then t else requestReport .urgent t

/-- The condition under which the busy-line timer runs (R149). -/
def busyLine (s : State) : Bool :=
  (s.line.report.isPending || s.line.setupRequest == .pending) && !s.line.idle && !s.line.muted
    && s.ctl.mode != .reduced

/-- The busy-line timer starts and stops with its condition (R149). -/
def followBusyLine (s : State) : State :=
  if busyLine s then
    if s.line.busyTimer.isSome then s
    else { s with line.busyTimer := some (s.now + Config.busyLength) }
  else { s with line.busyTimer := none }

/-- What a command from state `s` leaves, when its blocks have made state `t`. -/
def settled (s t : State) : State :=
  let u := endExtendTimeouts t
  followBusyLine (reportFaults s (blankAfterMotion s u))

/-- Every command but a reset ends so: with a next state. -/
def finish (s t : State) : Host.Outcome State Fault Refusal := .next (settled s t)

end Sys2Proof.Machine
end

