-- ==== Sys2Proof/Machine/Concrete.lean ====
section
/-! DEFINITION. Cure maturity (chapter 4) and concrete feed (chapter 6): CURE_SAMPLE_EVENT, PROBE_SAMPLE and
the blank, settle and feed timers, with admission and yield. -/

namespace Sys2Proof.Machine

/-! ### The rate curve (R73 to R76) -/

/-- The weighted sum of R75 from the capped excess and the knee excesses; a knee of `none` is
unbounded. -/
def curveSum (r : SetupRecord) (e : Int) (k1 k2 : Option Int) : Int :=
  let upTo (k : Option Int) : Int :=
    match k with
    | some v => min e v
    | none => e
  let w1 := upTo k1
  let w2 :=
    match k1 with
    | some v => max 0 (upTo k2 - v)
    | none => 0
  let w3 :=
    match k2 with
    | some v => max 0 (e - v)
    | none => 0
  r.slope1 * w1 + r.slope2 * w2 + r.slope3 * w3

/-- The knee excesses by CURE_SEGS (R74). -/
def knees (r : SetupRecord) : Option Int × Option Int :=
  let k1 := max 0 (r.knee1 - r.datum)
  let k2 := max 0 (r.knee2 - r.datum)
  if r.cureSegs = 1 then (none, none)
  else if r.cureSegs = 2 then (some k1, none)
  else (some k1, some k2)

/-- The rate of one sample at a temperature, in maturity units (R73, R75). -/
def cureRate (r : SetupRecord) (t : Int) : Nat :=
  let e := t - r.datum
  let capped := min e (r.tempCap - r.datum)
  if e ≤ 0 ∨ capped ≤ 0 then 0
  else (curveSum r capped (knees r).1 (knees r).2 / 1000).toNat

/-- The rate derated in clock fallback (R76). -/
def derate (onCrystal : Bool) (rate : Nat) : Nat := if onCrystal then rate else rate * 95 / 100

/-! ### CURE_SAMPLE_EVENT (R66 to R72) -/

/-- The sample timer restarts and the cure clock rises (R66). -/
def tickCure (s : State) : State :=
  let t := expireAt s.cure.sampleTimer s
  { t with
    cure.sampleTimer := some (t.now + Config.samplePeriod)
    cure.clock := (t.cure.clock + 1) % 65536 }

/-- A valid reading forms T and ends the run of missed samples (R69). -/
def temperatureRead (raw : Int) (s : State) : State :=
  let t := raw + s.setup.tempTrim
  { s with cure.lastTemp := some t, cure.missed := 0, cure.inUse := some t }

/-- A missed sample: the last valid temperature stands in for T_hold samples (R70). Once the count has passed
T_hold, which is where TEMPERATURE arises, it stands in for none until a valid reading (R70, R79), also where a
commit has raised T_hold above the count since (notes/assumptions/26.md). -/
def temperatureMissed (s : State) : State :=
  let missed := min 255 (s.cure.missed + 1)
  { s with
    cure.missed := missed
    cure.inUse :=
      if s.isPresent .temperature = false ∧ missed ≤ s.setup.tempHold then s.cure.lastTemp
      else none }

/-- The rate of a sample at the temperature in use, derated in clock fallback (R67, R76). -/
def sampleRate (s : State) : Nat :=
  derate s.sup.onCrystal
    (match s.cure.inUse with
    | some t => cureRate s.setup t
    | none => 0)

/-- The rate is recorded and added to every layer (R58, R67, R77); an addition that changes a layer
rewrites the retained record (R171). -/
def applyCure (s : State) : State :=
  let layers := addMaturity (sampleRate s) s.stack.layers
  keepChange (layers != s.stack.layers)
    { s with cure.rate := sampleRate s, stack.layers := layers }

/-- TEMPERATURE becomes present at a missed sample whose count is above T_hold, and absent at a valid
reading alone (R71). -/
def judgeTemperature (valid : Bool) (s : State) : State :=
  if valid then lapseCond .temperature s
  else if s.setup.tempHold < s.cure.missed then raiseCond .temperature s
  else s

/-- The sample's reading; in REDUCED the input is not read (R72). -/
def cureReading (s : State) (reading : SensorReading) : Option Int :=
  if s.ctl.mode = .reduced then none else temperatureValue reading

/-- CURE_SAMPLE_EVENT (R67). -/
def execCureSampleEvent (reading : SensorReading) (s : State) :
    Host.Outcome State Fault Refusal :=
  let t := tickCure s
  let read := cureReading t reading
  finish s
    (judgeTemperature read.isSome
      (applyCure
        (match read with
        | some raw => temperatureRead raw t
        | none => temperatureMissed t)))

/-! ### Admission and yield (R114, R121) -/

/-- A peer counts as open: LIVE and reporting OPEN. -/
def Peer.isOpen (p : Peer) : Bool := p.liveness == .live && p.feed == some .opened

/-- A LIVE asker ranks above this station: a greater deficit, or an equal one under a lower number; an
absent deficit ranks as 0 (R114). -/
def Peer.ranksAbove (own depth : Nat) (p : Peer) : Bool :=
  p.liveness == .live && p.feed == some .asking
    && (decide (depth < p.deficit.getD 0)
      || (p.deficit.getD 0 == depth && decide (p.number < own)))

/-- O, the gates known to be open. -/
def openPeers (s : State) : Nat := s.peers.records.countP Peer.isOpen

/-- A, the askers that rank above this station. -/
def askersAbove (s : State) : Nat :=
  s.peers.records.countP (Peer.ranksAbove s.join.ownNumber (s.feed.depth.getD 0))

/-- An admission (R114): the station opens when O + A is below G_max. -/
def admission (s : State) : State :=
  if openPeers s + askersAbove s < s.setup.gateMax then openGate s else s

/-- An admission at an event of R115: a station in ASKING with its settled mark set. -/
def admitIfSettled (s : State) : State :=
  if s.feed.state = .asking ∧ s.feed.settled = true then admission s else s

/-- The open peers with a number lower than this station's. -/
def lowerOpenPeers (s : State) : Nat :=
  s.peers.records.countP fun p => p.isOpen && decide (p.number < s.join.ownNumber)

/-- The yield of an OPEN station (R121). -/
def yieldIfExcess (s : State) : State :=
  if s.feed.state = .opened ∧ s.setup.gateMax ≤ lowerOpenPeers s then closeGate .asking s else s

/-- What the feed controller does at an arrival (R115, R121): it admits or it yields. -/
def feedArrival (s : State) : State :=
  match s.feed.state with
  | .idle => s
  | .asking => admitIfSettled s
  | .opened => yieldIfExcess s

/-! ### PROBE_SAMPLE (R106 to R109, R112, R117, R118) -/

/-- The 1 s interval restarts. -/
def tickProbe (s : State) : State :=
  let t := expireAt s.feed.probeTimer s
  { t with feed.probeTimer := some (t.now + Config.probePeriod) }

/-- The decisions a valid sample calls for (R112, R117, R118). -/
def sampleDecision (depth : Nat) (s : State) : State :=
  match s.feed.state with
  | .idle => askIfShort s
  | .asking => if depth ≤ s.setup.depthFull then leaveAsking s else s
  | .opened =>
    if depth ≤ s.setup.depthFull then lapseCond .feedTimeout (closeGate .idle s) else s

/-- A valid unblanked sample (R108): D, the end of PROBE, the stack, then the decisions. -/
def probeGood (depth : Nat) (s : State) : State :=
  let t := lapseCond .probe { s with feed.depth := some depth, feed.probeValid := true }
  sampleDecision depth (if t.heightSet then stackSample depth t else t)

/-- An invalid unblanked sample (R109): PROBE, and the permission is lost. -/
def probeBad (s : State) : State :=
  let t : State := { s with feed.probeValid := false }
  raiseCond .probe (rejudgeFeed (feedAllowed s) t)

/-- PROBE_SAMPLE: a sample in REDUCED or while the probe is blanked is discarded (R106). -/
def execProbeSample (reading : SensorReading) (s : State) : Host.Outcome State Fault Refusal :=
  let t := tickProbe s
  finish s
    (if t.ctl.mode = .reduced ∨ blanked t = true then t
    else
      match probeValue t.setup.formHeight reading with
      | some depth => probeGood depth t
      | none => probeBad t)

/-! ### The feed controller's timers -/

/-- BLANK_TIMER_EXPIRY (R107). -/
def execBlankTimerExpiry (s : State) : Host.Outcome State Fault Refusal :=
  finish s { expireAt s.feed.blankTimer s with feed.blankTimer := none }

/-- SETTLE_TIMER_EXPIRY: the settled mark is set and the first admission is made (R113). -/
def execSettleTimerExpiry (s : State) : Host.Outcome State Fault Refusal :=
  finish s
    (if s.feed.settleTimer.isSome then
      let t := expireAt s.feed.settleTimer s
      admitIfSettled { t with feed.settleTimer := none, feed.settled := true }
    else s)

/-- FEED_TIMER_EXPIRY: the gate closes and FEED TIMEOUT becomes present (R119). -/
def execFeedTimerExpiry (s : State) : Host.Outcome State Fault Refusal :=
  finish s
    (if s.feed.feedTimer.isSome then
      raiseCond .feedTimeout (closeGate .idle (expireAt s.feed.feedTimer s))
    else s)

end Sys2Proof.Machine
end

