-- ==== Sys2Proof/Machine/Jacks.lean ====
section
/-! DEFINITION. The jack channels' events (sections 5.3 and 5.6 to 5.9): deferred valve openings, transducer
readings, the ends of the stroke timers and the inhibit input. -/

namespace Sys2Proof.Machine

/-! ### DEFERRED_VALVE_OPENING (R82) -/

/-- A deferred opening takes place: the pressure valve in EXTEND, the dump valve in RETRACT, and the
stroke timer starts with it (R82, R88, R92). -/
def Channel.openDeferred (r : SetupRecord) (now : Nat) (c : Channel) : Channel :=
  match c.state with
  | .extend =>
    { c with pressureOpen := true, deferred := none, strokeTimer := some (now + r.extendTime) }
  | .retract =>
    { c with dumpOpen := true, deferred := none, strokeTimer := some (now + r.retractTime) }
  | _ => c

/-- DEFERRED_VALVE_OPENING: without a deferred opening nothing takes place. -/
def execDeferredValveOpening (ch : Ch) (s : State) : Host.Outcome State Fault Refusal :=
  finish s
    (if (s.chan ch).deferred.isSome then
      let t := expireAt (s.chan ch).deferred s
      updateCh ch (Channel.openDeferred t.setup t.now) t
    else s)

/-! ### TRANSDUCER_READING (R83, R84, R90, R92, R105) -/

/-- A valid reading enters the channel record (R83). -/
def Channel.takeReading (v : Nat) (c : Channel) : Channel :=
  { c with
    x := some v
    readingValid := true
    xPeak := if c.state = .extend ∨ c.state = .hold then max c.xPeak v else c.xPeak }

/-- A valid reading acts by the channel's state: the target is reached (R90), home is reached (R92), or
the first reading after a reset decides the homing (R105), which REDUCED holds over (R101). -/
def Channel.actOnValid (r : SetupRecord) (now : Nat) (reduced : Bool) (v : Nat) (c : Channel) :
    Channel :=
  match c.state with
  | .extend => if c.pressureOpen && decide (c.target ≤ v) then c.toHold r now else c
  | .retract =>
    if c.dumpOpen && !c.blind && decide (v ≤ r.home) then c.stand .rest now else c
  | .rest =>
    if c.homing = .none then c
    else if decide (r.home < v) && !reduced then c.toRetract r now false
    else { c with homing := .none }
  | _ => c

/-- An invalid reading acts by the channel's state (R84); the first reading after a commit decides in
place of the REST row (R105). In REDUCED that reading ends the wait and the channel stays in REST, so that a
further invalid reading there finds the REST row and takes it to FAULT (notes/assumptions/13.md). In INHIBITED an
invalid reading leaves no mark but itself (notes/assumptions/34.md). -/
def Channel.actOnInvalid (r : SetupRecord) (now : Nat) (reduced : Bool) (c : Channel) : Channel :=
  match c.state with
  | .rest =>
    if c.homing = .atCommit then
      if reduced then { c with homing := .none } else c.toRetract r now true
    else c.halt .fault now
  | .extend => { c.toHold r now with blind := true }
  | .hold => { c with blind := true }
  | .retract => { c with blind := true }
  | _ => c

/-- A reading of an active channel (R83, R84). -/
def readChannel (ch : Ch) (reading : SensorReading) (s : State) : State :=
  let reduced := s.ctl.mode == .reduced
  match transducerValue reading with
  | some v =>
    lapseCond (.transducer ch)
      (updateCh ch (fun c => (c.takeReading v).actOnValid s.setup s.now reduced v) s)
  | none =>
    raiseCond (.transducer ch)
      (updateCh ch
        (fun c => { c.actOnInvalid s.setup s.now reduced with readingValid := false }) s)

/-- TRANSDUCER_READING: an OFF channel's transducer is not read (R81). -/
def execTransducerReading (ch : Ch) (reading : SensorReading) (s : State) :
    Host.Outcome State Fault Refusal :=
  finish s (if (s.chan ch).isActive then readChannel ch reading s else s)

/-! ### The ends of the stroke timers -/

/-- T_EXT_EXPIRY in EXTEND with the pressure valve open: HOLD, and EXTEND TIMEOUT is raised (R90,
R186). -/
def execTExtExpiry (ch : Ch) (s : State) : Host.Outcome State Fault Refusal :=
  finish s
    (if (s.chan ch).state == .extend && (s.chan ch).strokeTimer.isSome then
      let t := expireAt (s.chan ch).strokeTimer s
      raiseCond (.extendTimeout ch) (updateCh ch (Channel.toHold t.setup t.now) t)
    else s)

/-- The retraction after a HOLD: blind where a reading was invalid in the stroke or the last one is
(R84, R91). -/
def Channel.endHold (r : SetupRecord) (now : Nat) (c : Channel) : Channel :=
  c.toRetract r now (c.blind || !c.readingValid)

/-- HOLD_END: the channel enters RETRACT and its stroke is credited (R91, R93). -/
def execHoldEnd (ch : Ch) (s : State) : Host.Outcome State Fault Refusal :=
  finish s
    (if (s.chan ch).state == .hold && (s.chan ch).strokeTimer.isSome then
      let t := expireAt (s.chan ch).strokeTimer s
      credit ch (updateCh ch (Channel.endHold t.setup t.now) t)
    else s)

/-- T_RET_EXPIRY in a retraction that is not blind: FAULT, and RETRACT TIMEOUT is raised and ends at
once (R92, R186). -/
def execTRetExpiry (ch : Ch) (s : State) : Host.Outcome State Fault Refusal :=
  finish s
    (if (s.chan ch).state == .retract && !(s.chan ch).blind && (s.chan ch).strokeTimer.isSome then
      let t := expireAt (s.chan ch).strokeTimer s
      lapseCond (.retractTimeout ch)
        (raiseCond (.retractTimeout ch) (updateCh ch (Channel.halt .fault t.now) t))
    else s)

/-- A TRANSDUCER or RETRACT TIMEOUT entry is latched for the channel (R84, R103). -/
def heldInFault (s : State) (ch : Ch) : Bool :=
  s.isLatched (.transducer ch) || s.isLatched (.retractTimeout ch)

/-- A channel leaves FAULT by its last reading (R103). Under inhibit it enters INHIBITED, in REDUCED
REST; an invalid reading leaves it in FAULT (R84). -/
def Channel.leaveFault (r : SetupRecord) (now : Nat) (inhibit reduced : Bool) (c : Channel) :
    Channel :=
  if inhibit then c.halt .inhibited now
  else if reduced then c.halt .rest now
  else if !c.readingValid then c.halt .fault now
  else if c.aboveHome r then (c.halt .fault now).toRetract r now false
  else c.halt .rest now

/-- BLIND_RETRACTION_END: the dump valve closes and the channel enters FAULT, or leaves it where no
entry is latched for it (R84, R103). -/
def execBlindRetractionEnd (ch : Ch) (s : State) : Host.Outcome State Fault Refusal :=
  finish s
    (if (s.chan ch).state == .retract && (s.chan ch).blind && (s.chan ch).strokeTimer.isSome then
      let t := expireAt (s.chan ch).strokeTimer s
      if heldInFault t ch then updateCh ch (Channel.halt .fault t.now) t
      else
        updateCh ch
          (Channel.leaveFault t.setup t.now t.inhibitInput (t.ctl.mode == .reduced)) t
    else s)

/-! ### Crediting strokes that an inhibit or REDUCED cuts short (R99, R101) -/

/-- The channel is in EXTEND or HOLD, where a cut credits it. -/
def Channel.inStroke (c : Channel) : Bool := c.state == .extend || c.state == .hold

/-- The strokes under way in `before` are credited, channel by channel (notes/assumptions/9.md). -/
def creditStrokes (before s : State) : State :=
  Ch.all.foldl (fun t c => if (before.chan c).inStroke then credit c t else t) s

/-! ### The jack inhibit input (R99, R100, R189) -/

/-- A channel at the assertion of the inhibit input (R99). An invalid reading of the stroke leaves no blind mark
behind: the release decides by the reading it finds (R100, against R84's rows; notes/assumptions/34.md). -/
def Channel.inhibit (now : Nat) (c : Channel) : Channel :=
  if c.state = .off ∨ c.state = .fault ∨ c.state = .inhibited then c else c.halt .inhibited now

/-- INHIBIT_ASSERTED (R99, R189). An input already asserted is not asserted again. The strokes are credited
before INHIBIT has its onset, so a JACK SPREAD of class HOLD that a credit ends is ended first; R183 allows
either (notes/assumptions/29.md). -/
def execInhibitAsserted (s : State) : Host.Outcome State Fault Refusal :=
  finish s
    (if s.inhibitInput then s
    else
      raiseCond .inhibit
        (creditStrokes s (updateAll (Channel.inhibit s.now) { s with inhibitInput := true })))

/-- An INHIBITED channel at the release (R100): its last reading decides, also where an earlier one was invalid
under inhibit (notes/assumptions/34.md). -/
def Channel.release (r : SetupRecord) (now : Nat) (reduced : Bool) (c : Channel) : Channel :=
  if c.state = .inhibited then
    if reduced then c.stand .rest now else c.decideHome r now
  else c

/-- INHIBIT_RELEASED (R100, R189). -/
def execInhibitReleased (s : State) : Host.Outcome State Fault Refusal :=
  finish s
    (if s.inhibitInput then
      lapseCond .inhibit
        (updateAll (Channel.release s.setup s.now (s.ctl.mode == .reduced))
          { s with inhibitInput := false })
    else s)

end Sys2Proof.Machine
end

