-- ==== Sys2Proof/Machine/Joining.lean ====
section
/-! DEFINITION. Setup and the join (chapter 9): SETUP_DATA, SETUP_COMMIT, the request, window and listen
timers, and the end of a join. -/

namespace Sys2Proof.Machine

/-! ### SETUP_DATA (R165) -/

/-- An item's value enters the staged record, its mark follows its range, and the first item starts the
window. -/
def stageItem (id : Nat) (v : Int) (s : State) : State :=
  { s with
    join.staged := s.join.staged.put id v
    join.marks := s.join.marks.setIfInBounds (id - 1) (!itemInRange id v)
    join.itemsReceived := min 255 (s.join.itemsReceived + 1)
    join.stage := .window
    join.windowTimer :=
      if s.join.stage = .waiting then some (s.now + Config.windowLength) else s.join.windowTimer }

/-- SETUP_DATA is taken in SETUP from a console, for this station and a listed item (R165, R205). -/
def execSetupData (sender : BitVec 6) (target item : Byte) (value : BitVec 32) (s : State) :
    Host.Outcome State Fault Refusal :=
  finish s
    (if s.ctl.mode = .setup ∧ addressed s sender target = true ∧ itemListed item.toNat = true then
      stageItem item.toNat value.toInt s
    else s)

/-! ### SETUP_COMMIT (R167 to R169) -/

/-- The cross-item rules on a record, in order, for a station number (R168). -/
def ruleHolds (own : Nat) (r : SetupRecord) : Nat → Bool
  | 1 => r.nat 54 != 0
  | 2 => decide (r.programTop ≤ Config.heightMax)
  | 3 => decide (r.depthFull < r.depthCall) && decide (r.depthCall < r.formHeight)
  | 4 => decide (r.knee1 < r.knee2)
  | 5 => decide (own ≤ r.roster)
  | 6 =>
    (r.linkX1 == 0 || (decide (r.linkX1 ≤ r.roster) && r.linkX1 != own))
      && (r.linkX2 == 0 || (decide (r.linkX2 ≤ r.roster) && r.linkX2 != own))
  | 7 =>
    !r.linkRing || (decide (r.ringFirst ≤ own) && decide (own ≤ r.ringLast)
      && decide (r.ringLast ≤ r.roster))
  | _ => true

/-- The first rule that fails. -/
def failedRule (own : Nat) (r : SetupRecord) : Option Nat :=
  [1, 2, 3, 4, 5, 6, 7].find? fun n => !ruleHolds own r n

/-- The lowest-numbered item whose out-of-range mark is set. -/
def firstMarked (s : State) : Option Nat :=
  ((List.range 87).map (· + 1)).find? fun id => s.join.marks.toList.getD (id - 1) false

/-- The judgement of a commit in three stages: the refusal, or none for a good commit (R167). -/
def judgeCommit (check : Nat) (s : State) : Option CommitResult :=
  if s.join.staged.check ≠ check then some (.check s.join.staged.check)
  else
    match firstMarked s with
    | some id => some (.range id)
    | none => (failedRule s.join.ownNumber s.join.staged).map .rule

/-- A refused commit: the result is set and a SETUP REQUEST requested (R167). -/
def refuseCommit (c : CommitResult) (s : State) : State :=
  requestSetup { s with join.lastCommit := c }

/-- The link list of a record for station `n` (R134). -/
def linkList (n : Nat) (r : SetupRecord) : List Nat :=
  let ring :=
    if r.linkRing then
      [if n = r.ringFirst then r.ringLast else n - 1,
       if n = r.ringLast then r.ringFirst else n + 1].filter (· != n)
    else []
  let cross := [r.linkX1, r.linkX2].filter (· != 0)
  (ring ++ cross).foldl (fun l m => if l.contains m then l else l ++ [m]) []

/-- A channel at a good commit: each channel in CH_ACTIVE leaves OFF and waits in REST for its first
reading, or stands INHIBITED while the input is asserted (R105). -/
def commitChannel (inhibit : Bool) (c : Channel) : Channel :=
  if inhibit then { c with state := .inhibited } else { c with state := .rest, homing := .atCommit }

/-- The committed record comes into force at the blocks (R106, R125, R134, R169). -/
def bringIntoForce (s : State) : State :=
  let r := s.setup
  { s with
    peers.records := s.peers.records.filter fun p => decide (p.number ≤ r.roster)
    peers.links := linkList s.join.ownNumber r
    seq.chans := PerChannel.ofFn fun c =>
      if r.active c then commitChannel s.inhibitInput (s.chan c) else s.chan c
    feed.depth := if decide (s.feed.depth.getD 0 ≤ r.formHeight) then s.feed.depth else none
    feed.probeValid :=
      if decide (s.feed.depth.getD 0 ≤ r.formHeight) then s.feed.probeValid else false }

/-- The length of the join listen: MISS_LIMIT × T_rep (R174). -/
def SetupRecord.listenLength (r : SetupRecord) : Nat := r.missLimit * r.reportPeriod

/-- The committed record, stage and timers of a good commit (R169, steps 1, 2 and 5). -/
def takeCommit (s : State) : State :=
  { s with
    join.committed := some s.join.staged
    join.stage := .committed
    join.windowTimer := none
    join.requestTimer := none
    join.kind := .afterCommit
    join.state := .listening
    join.listenTimer := some (s.now + s.join.staged.listenLength) }

/-- A good commit (R169). -/
def goodCommit (s : State) : State :=
  judgePeers (bringIntoForce (enterMode .joining (takeCommit s)))

/-- SETUP_COMMIT is taken in SETUP from a console for this station (R167). -/
def execSetupCommit (sender : BitVec 6) (target check : Byte) (s : State) :
    Host.Outcome State Fault Refusal :=
  finish s
    (if s.ctl.mode = .setup ∧ addressed s sender target = true then
      match judgeCommit check.toNat s with
      | some c => refuseCommit c s
      | none => goodCommit s
    else s)

/-! ### The request and window timers (R164, R166) -/

/-- SETUP_REQUEST_TIMER_EXPIRY (R164). -/
def execSetupRequestTimerExpiry (s : State) : Host.Outcome State Fault Refusal :=
  finish s
    (if s.join.requestTimer.isSome then
      let t := expireAt s.join.requestTimer s
      requestSetup { t with join.requestTimer := some (t.now + Config.requestPeriod) }
    else s)

/-- The station locks: in REDUCED LOCKED becomes the return mode and the SETUP REQUEST slot is emptied
(R17, R166). -/
def lockStation (s : State) : State :=
  match s.ctl.mode with
  | .setup => enterMode .locked s
  | .reduced =>
    if s.ctl.returnMode = some .setup then
      { s with
        ctl.returnMode := some .locked
        line.setupRequest := s.line.setupRequest.leaveSetup }
    else s
  | _ => s

/-- WINDOW_EXPIRY (R166). -/
def execWindowExpiry (s : State) : Host.Outcome State Fault Refusal :=
  finish s
    (if s.join.windowTimer.isSome then
      let t := expireAt s.join.windowTimer s
      lockStation
        { t with join.stage := .closed, join.windowTimer := none, join.requestTimer := none }
    else s)

/-! ### The end of a join (R175 to R179) -/

/-- How a join ends. -/
inductive JoinOutcome where
  | fresh | adoption | restore
  deriving DecidableEq, Repr

/-- A linked neighbour has climbed (R175). -/
def hasClimbed (r : SetupRecord) (p : Peer) : Bool :=
  decide (0 < p.strokeCount.getD 0) || p.height != some r.programStart

/-- The decision of R175; none is the wait of R176. -/
def joinDecision (s : State) : Option JoinOutcome :=
  if s.peers.links = [] then
    some (if s.join.kind = .afterRestore then .restore else .fresh)
  else if availablePeers s = [] then none
  else if s.join.kind = .afterRestore then some .restore
  else if (availablePeers s).any (hasClimbed s.setup) then some .adoption
  else some .fresh

/-- H and every active channel's climbed height are set (R177, R178). -/
def setHeights (h : Nat) (s : State) : State :=
  { s with
    seq.height := h
    seq.chans := s.seq.chans.map fun c => if c.isActive then { c with climbed := h } else c }

/-- The mean of the available linked neighbours' heights, rounded down (R177). -/
def adoptedHeight (s : State) : Nat := meanOf (linkedHeights s)

/-- The least top maturity among the available linked neighbours, an absent one counting as 0, in
maturity units (R65). -/
def adoptedMaturity (s : State) : Nat :=
  (((availablePeers s).map fun p => p.topMaturity.getD 0).min?.getD 0) * Config.unitsPerDegreeHour

/-- The stack of an adoption (R65): where a depth is held (notes/assumptions/12.md) the concrete top is
formed, and one adopted layer where it lies above H. -/
def adoptStack (h maturity : Nat) (s : State) : State :=
  match s.feed.depth with
  | some d =>
    let top := h + s.setup.formHeight - d
    let st : Stack := { s.stack with concreteTop := some top }
    { s with stack := if h < top then pushLayer h top s.cure.clock true maturity st else st }
  | none => s

/-- An adoption (R177). -/
def adopt (s : State) : State :=
  let h := adoptedHeight s
  requestReport .urgent
    (judgeSpread (removeExited (adoptStack h (adoptedMaturity s) (setHeights h s))))

/-- A fresh start (R178). -/
def freshStart (s : State) : State :=
  let t := setHeights s.setup.programStart s
  judgeSpread
    { t with seq.strokeCount := 0, stack.layers := [] }

/-- The outcome's part before the join ends. -/
def applyOutcome : JoinOutcome → State → State
  | .fresh, s => freshStart s
  | .adoption, s => adopt s
  | .restore, s => s

/-- A deck supervision present when they become armed takes its class effect there (R185). -/
def armOne (c : Cond) (s : State) : State :=
  if s.isPresent c && s.latching c then latch c s else s

/-- The join state becomes DONE, the listen timer stops and the deck supervisions become armed (R179,
R185). -/
def armDeck (s : State) : State :=
  let t : State :=
    { s with join.state := .done, join.listenTimer := none, sup.armed := true }
  armOne .tilt (armOne .peerSilent (armOne .neighbourLost t))

/-- The mode in which a station leaves JOINING (R3). -/
def outcomeMode (o : JoinOutcome) (s : State) : Mode :=
  match o with
  | .fresh | .adoption => if s.noneLatched then .standing else .stopped
  | .restore =>
    match s.join.restoredMode with
    | some .topped => .topped
    | some .stopped => .stopped
    | some .standing => if s.noneLatched then .standing else .stopped
    | _ => if s.noneLatched then .paused else .stopped

/-- The pause-cause set with which a station leaves JOINING for PAUSED: REJOIN (R3, R9). -/
def rejoinPause : PauseSet := { PauseSet.empty with rejoin := true }

/-- The mode controller takes the outcome (R3), or in REDUCED makes it the return mode, with FAULT HOLD
and REJOIN as though the station were in it (R17). REJOIN leaves at once where every linked neighbour
is available (R9). The change of the retained mode writes the record of the ended join (R171, R179). -/
def takeOutcome (o : JoinOutcome) (s : State) : State :=
  let m := outcomeMode o s
  let p := if m = .paused then rejoinPause else .empty
  match s.ctl.mode with
  | .reduced =>
    checkRejoin (keepChange true
      { s with
        ctl.returnMode := some m
        ctl.pause := if m.climbs && s.holdPresent then { p with faultHold := true } else p })
  | _ => checkRejoin (enterMode m { s with ctl.pause := p })

/-- The end of a join (R179). -/
def endJoin (o : JoinOutcome) (s : State) : State := takeOutcome o (armDeck (applyOutcome o s))

/-- The decision is made: the join ends or the station waits for a link (R175, R176). -/
def decideJoin (s : State) : State :=
  match joinDecision s with
  | some o => endJoin o s
  | none => { s with join.state := .waitingForLink, join.listenTimer := none }

/-- JOIN_LISTEN_EXPIRY (R174, R175). -/
def execJoinListenExpiry (s : State) : Host.Outcome State Fault Refusal :=
  finish s
    (if s.join.listenTimer.isSome then decideJoin (expireAt s.join.listenTimer s) else s)

/-- A station that waits for a link tests again after an arrival or a sweep (R176). -/
def joinIfWaiting (s : State) : State :=
  if s.join.state = .waitingForLink then decideJoin s else s

end Sys2Proof.Machine
end

