-- ==== Sys2Proof/Machine/LineEvents.lean ====
section
/-! DEFINITION. The deck line (chapter 8): line idle, attempts and their outcomes, the mute and busy-line
timers, and frames without effect. -/

namespace Sys2Proof.Machine

/-! ### The fields of a frame, gathered at the start of its attempt (R158) -/

/-- Whole °C·h, rounded down (R61). -/
def degreeHours (units : Nat) : Nat := units / Config.unitsPerDegreeHour

/-- The stack fields (R61). -/
def stackView (s : State) : Option StackView :=
  match s.stack.layers.head?, s.stack.layers.getLast? with
  | some low, some high =>
    some
      { depth := s.stack.layers.length
        bottomMaturity := degreeHours low.maturity
        topMaturity := degreeHours high.maturity
        topSeq := high.seq
        topAge := s.cure.clock - high.placed }
  | _, _ => none

/-- The station height is reported but in SETUP, LOCKED and JOINING (R203). -/
def reportedHeight (s : State) : Option Nat :=
  if s.ctl.mode.reportsHeight then some s.seq.height else none

/-- The report's fields from the blocks that own them (R157, R158). -/
def gatherReport (s : State) : Report :=
  { mode := s.ctl.mode
    feed := s.feed.state
    belowMin := s.plan.last.belowMin
    adopted := s.stack.layers.any Layer.adopted
    operator := s.ctl.pause.operator
    faultHold := s.ctl.pause.faultHold
    rejoin := s.ctl.pause.rejoin
    segmentEntry := s.ctl.pause.segment
    refusal := s.ctl.refusal
    cause := s.plan.last.cause
    segment := s.plan.last.segment
    stack := stackView s
    rateScale := s.ctl.rateScale
    height := reportedHeight s
    strokeCount := s.seq.strokeCount
    channels := s.seq.chans.map Channel.state
    candidate := s.plan.last.candidate
    temperature := s.cure.inUse
    cureRate := s.cure.rate
    deficit := s.feed.depth
    faults := faultCode s }

/-- Window remaining in whole seconds, rounded down; 60 in WAITING (R164). -/
def windowRemaining (s : State) : Nat :=
  match s.join.windowTimer with
  | some t => min 60 ((t - s.now) / 1000)
  | none => 60

/-- The out-of-range count, saturating at 63 (R164). -/
def markCount (s : State) : Nat := min 63 (s.join.marks.toList.countP (· == true))

/-- The last commit result's code and subject (R204). -/
def commitCode : CommitResult → Nat × Nat
  | .none => (0, 0)
  | .check c => (1, c)
  | .range id => (2, id)
  | .rule n => (3, n)

/-- The SETUP REQUEST payload (R164, R204). -/
def gatherRequest (s : State) : List Nat :=
  [(if s.join.stage = .waiting then 0 else 128) + windowRemaining s,
   s.join.itemsReceived,
   (commitCode s.join.lastCommit).1 * 64 + markCount s,
   (commitCode s.join.lastCommit).2,
   s.join.staged.check]

/-- The code of a report's priority: 1 urgent, 2 periodic (R199). -/
def Prio.code : Prio → Nat
  | .urgent => 1
  | .periodic => 2

/-- The REPORT frame of an attempt (R199). -/
def reportFrame (p : Prio) (s : State) : TxFrame :=
  TxFrame.make p.code s.line.sender 1 (bytesOf 28 (encodeReport (gatherReport s)))

/-- The SETUP REQUEST frame of an attempt (R199). -/
def requestFrame (s : State) : TxFrame := TxFrame.make 3 s.line.sender 5 (gatherRequest s)

/-! ### The line's level (R143, R149) -/

/-- An attempt is under way. -/
def attempting (s : State) : Bool :=
  s.line.report.isSending || s.line.setupRequest == .sending

/-- LINE_IDLE (R143). The line cannot fall idle under the station's own attempt. -/
def execLineIdle (s : State) : Host.Outcome State Fault Refusal :=
  finish s (if attempting s then s else { s with line.idle := true })

/-- LINE_NOT_IDLE (R143, R149): `finish` starts the busy-line timer where a slot is PENDING. -/
def execLineNotIdle (s : State) : Host.Outcome State Fault Refusal :=
  finish s { s with line.idle := false }

/-! ### Attempts (R143, R154, R155) -/

/-- The station may begin an attempt (R143, R159). -/
def mayAttempt (s : State) : Bool :=
  s.line.idle && !s.line.muted && s.ctl.mode != .reduced && !attempting s

/-- The attempt of the slot taken: the REPORT before the SETUP REQUEST (R154). -/
def beginAttempt (s : State) : State :=
  match s.line.report, s.line.setupRequest with
  | .pending p, _ =>
    { s with
      line.report := .sending p none
      line.idle := false
      line.frame := some (reportFrame p s) }
  | _, .pending =>
    { s with
      line.setupRequest := .sending
      line.idle := false
      line.frame := some (requestFrame s) }
  | _, _ => s

/-- ATTEMPT_START (R154, R158). -/
def execAttemptStart (s : State) : Host.Outcome State Fault Refusal :=
  finish s (if mayAttempt s then beginAttempt s else s)

/-- The slots after an attempt that did not go out (R153, R155): a SETUP REQUEST of a station out of
SETUP is emptied. -/
def retryAttempt (s : State) : State :=
  { s with
    line.report := s.line.report.retry
    line.setupRequest :=
      match s.line.setupRequest with
      | .sending => if s.effectiveMode = .setup then .pending else .empty
      | r => r
    line.frame := none }

/-- ARBITRATION_LOST: no transmit error (R144). `attemptOutcome` judges the readback that brings it about. -/
def execArbitrationLost (s : State) : Host.Outcome State Fault Refusal :=
  finish s (if attempting s then retryAttempt s else s)

/-- The start of a mute (R148). One that the busy-line timer starts while the other slot is SENDING leaves that
attempt to its end: R159 gives a cut for REDUCED alone (notes/assumptions/31.md). -/
def startMute (s : State) : State :=
  raiseCond .line
    { s with line.muted := true, line.muteTimer := some (s.now + Config.muteLength) }

/-- A transmit error counted (R147): at 16 a mute starts. -/
def countError (s : State) : State :=
  let t : State := { s with line.errors := min Config.errorLimit (s.line.errors + 1) }
  if Config.errorLimit ≤ t.line.errors then startMute t else t

/-- TRANSMIT_ERROR (R145 to R147), as `attemptOutcome` judges it from the readback. -/
def execTransmitError (s : State) : Host.Outcome State Fault Refusal :=
  finish s (if attempting s then countError (retryAttempt s) else s)

/-- The slots after an attempt sent whole (R155). -/
def attemptSent (s : State) : State :=
  { s with
    line.report := s.line.report.sent
    line.setupRequest :=
      match s.line.setupRequest with
      | .sending => .empty
      | r => r
    line.errors := 0
    line.frame := none }

/-- SENT_WHOLE: the count is set to 0 and LINE ends (R147, R148, R155). The frame is the station's own
and is handed to no block (R152). -/
def execSentWhole (s : State) : Host.Outcome State Fault Refusal :=
  finish s (if attempting s then lapseCond .line (attemptSent s) else s)

/-- MUTE_TIMER_EXPIRY (R148): LINE stays present. -/
def execMuteTimerExpiry (s : State) : Host.Outcome State Fault Refusal :=
  finish s
    (if s.line.muteTimer.isSome then
      { expireAt s.line.muteTimer s with line.muted := false, line.muteTimer := none }
    else s)

/-- BUSY_LINE_TIMER_EXPIRY counts a transmit error; `finish` starts the timer again where its condition
still holds (R149). -/
def execBusyLineTimerExpiry (s : State) : Host.Outcome State Fault Refusal :=
  finish s
    (if s.line.busyTimer.isSome then
      countError { expireAt s.line.busyTimer s with line.busyTimer := none }
    else s)

/-! ### Frames without effect -/

/-- PEER_SETUP_REQUEST: another station's request is handed to no block (R151). -/
def execPeerSetupRequest (_sender : BitVec 6) (_payload : BitVec 40) (s : State) :
    Host.Outcome State Fault Refusal :=
  finish s s

/-- FRAME_DISCARDED: a discarded frame changes no state and raises no condition (R150). -/
def execFrameDiscarded (_frame : RxFrame) (s : State) : Host.Outcome State Fault Refusal :=
  finish s s

end Sys2Proof.Machine
end

