-- ==== Sys2Proof/Machine/Modes.lean ====
section
/-! DEFINITION. The deck commands START, STOP, PAUSE, RESUME, RATE SCALE and FEED HOLD (chapter 1). CLEAR
stands with the supervisor. -/

namespace Sys2Proof.Machine

/-- The first precondition of START that fails (R4). -/
def startRefusal (s : State) : Option RefusalCause :=
  if !allAvailable s then some .neighbour
  else if !s.noneLatched || s.holdPresent then some .fault
  else if s.stack.layers = [] then some .stackEmpty
  else none

/-- A refused START sets the refusal cause and requests an urgent report, also when the cause is
unchanged (R5). -/
def refuseStart (c : RefusalCause) (s : State) : State :=
  requestReport .urgent { s with ctl.refusal := some c }

/-- START by the mode it finds (R4). -/
def startStation (s : State) : State :=
  match s.ctl.mode with
  | .setup | .locked | .joining | .reduced => refuseStart .notReady s
  | .standing =>
    match startRefusal s with
    | some c => refuseStart c s
    | none => enterMode .climbing { s with ctl.refusal := none }
  | _ => s

/-- START (R4, R5, R13). Its argument is ignored (R204). -/
def execStart (sender : BitVec 6) (target _argument : Byte) (s : State) :
    Host.Outcome State Fault Refusal :=
  finish s (if addressed s sender target then startStation s else s)

/-- STOP takes CLIMBING or PAUSED to STANDING; strokes in flight finish (R14, R97). -/
def stopStation (s : State) : State :=
  if s.ctl.mode.climbs then enterMode .standing s else s

/-- STOP (R13, R14). -/
def execStop (sender : BitVec 6) (target _argument : Byte) (s : State) :
    Host.Outcome State Fault Refusal :=
  finish s (if addressed s sender target then stopStation s else s)

/-- PAUSE adds OPERATOR in CLIMBING or PAUSED (R7). -/
def pauseStation (s : State) : State :=
  if s.ctl.mode.climbs then addPause (fun p => { p with operator := true }) s else s

/-- PAUSE (R7, R13). -/
def execPause (sender : BitVec 6) (target _argument : Byte) (s : State) :
    Host.Outcome State Fault Refusal :=
  finish s (if addressed s sender target then pauseStation s else s)

/-- The release set with segment `k` (R10). -/
def releaseSegment (k : Nat) (rs : List Nat) : List Nat :=
  [2, 3, 4, 5, 6, 7, 8].filter fun j => j == k || rs.contains j

/-- Segment `k` joins the release set; a change of the set rewrites the retained record (R10, R171). -/
def releaseHeld (k : Nat) (s : State) : State :=
  keepChange (releaseSegment k s.ctl.released != s.ctl.released)
    { s with ctl.released := releaseSegment k s.ctl.released }

/-- RESUME with argument 2 to 8 releases the segment waited at, then checks for the next one (R10). -/
def resumeSegment (k : Nat) (s : State) : State :=
  if s.ctl.pause.segment = some k then
    segmentCheck (dropPause (fun p => { p with segment := none }) (releaseHeld k s))
  else s

/-- RESUME by its argument (R7, R10). -/
def resumeStation (k : Nat) (s : State) : State :=
  if !s.ctl.mode.takesCommands then s
  else if k = 0 then dropPause (fun p => { p with operator := false }) s
  else if 2 ≤ k ∧ k ≤ 8 then resumeSegment k s
  else s

/-- RESUME (R7, R10, R13). -/
def execResume (sender : BitVec 6) (target argument : Byte) (s : State) :
    Host.Outcome State Fault Refusal :=
  finish s (if addressed s sender target then resumeStation argument.toNat s else s)

/-- RATE SCALE sets the rate scale, clamped to 150 (R18). -/
def setRateScale (p : Nat) (s : State) : State :=
  if s.ctl.mode.takesCommands then { s with ctl.rateScale := min Config.rateScaleMax p } else s

/-- RATE SCALE (R13, R18). -/
def execRateScale (sender : BitVec 6) (target argument : Byte) (s : State) :
    Host.Outcome State Fault Refusal :=
  finish s (if addressed s sender target then setRateScale argument.toNat s else s)

/-- FEED HOLD on at 1, off at 0, and handed to the feed controller (R19, R110). -/
def setFeedHold (a : Nat) (s : State) : State :=
  if s.ctl.mode.takesCommands && decide (a ≤ 1) then
    rejudgeFeed (feedAllowed s) { s with ctl.feedHold := a == 1 }
  else s

/-- FEED HOLD (R13, R19). -/
def execFeedHold (sender : BitVec 6) (target argument : Byte) (s : State) :
    Host.Outcome State Fault Refusal :=
  finish s (if addressed s sender target then setFeedHold argument.toNat s else s)

end Sys2Proof.Machine
end

