-- ==== Sys2Proof/Machine/PeerTable.lean ====
section
/-! DEFINITION. The peer table's events (chapter 7): REPORT and the age sweep of REPORT_TIMER_EXPIRY, with
what each hands on (R129, R131). -/

namespace Sys2Proof.Machine

/-! ### REPORT (R127 to R130) -/

/-- The record of a report entered (R128). A field the report lacks is absent, the height of a peer in SETUP,
LOCKED or JOINING with it, which `decodeReport` reads as absent (R126). -/
def Peer.enter (r : Report) (p : Peer) : Peer :=
  { p with
    liveness := .live
    miss := 0
    heard := true
    height := r.height
    strokeCount := some r.strokeCount
    feed := some r.feed
    deficit := r.deficit
    topMaturity := r.stack.map StackView.topMaturity }

/-- The records with a report entered for station `n` (R128). -/
def enterReport (n : Nat) (r : Report) (ps : List Peer) : List Peer :=
  ps.map fun p => if p.number = n then p.enter r else p

/-- What an arrival is handed on to (R129), in the rule's order: the feed controller, the supervisor
with TILT where the sender is linked, the mode controller and the join unit. -/
def handArrival (n : Nat) (s : State) : State :=
  let t := judgePeers (feedArrival s)
  joinIfWaiting (checkRejoin (if t.peers.links.contains n then judgeTilt t else t))

/-- A report under the station's own number (R130). -/
def ownNumberHeard (s : State) : State :=
  raiseCond .duplicateNumber { s with peers.dupMiss := 0, peers.dupHeard := true }

/-- A report that can be entered, of a number that has a record, is entered and handed on (R127, R128). -/
def enterFrom (n : Nat) (r : Report) (s : State) : State :=
  if (s.peers.records.any fun p => p.number == n) then
    handArrival n { s with peers.records := enterReport n r s.peers.records }
  else s

/-- A report is sorted by its sender number (R127). One under the own number counts whatever its payload
holds (R130, R152); any other that holds a value R202 does not give, `none` here, is not entered (R203,
notes/assumptions/10.md). -/
def sortReport (n : Nat) (r : Option Report) (s : State) : State :=
  if n ≠ 0 ∧ n = s.join.ownNumber then ownNumberHeard s
  else
    match r with
    | some r => enterFrom n r s
    | none => s

/-- REPORT (R127 to R130). -/
def execReport (sender : BitVec 6) (payload : BitVec 224) (s : State) :
    Host.Outcome State Fault Refusal :=
  finish s (sortReport sender.toNat (decodeReport payload.toNat) s)

/-! ### The age sweep (R130, R131) -/

/-- A record at a sweep (R131). A sweep that comes after a report clears its heard mark, as R131's table and
R133's second sentence say, against R133's last (notes/assumptions/30.md). -/
def Peer.age (limit : Nat) (p : Peer) : Peer :=
  match p.liveness with
  | .live =>
    if p.heard then { p with heard := false }
    else
      { p with miss := p.miss + 1, liveness := if limit ≤ p.miss + 1 then .silent else .live }
  | _ => p

/-- DUPLICATE NUMBER at a sweep (R130). -/
def ageDuplicate (s : State) : State :=
  if s.isPresent .duplicateNumber then
    if s.peers.dupHeard then { s with peers.dupHeard := false }
    else
      let t : State := { s with peers.dupMiss := s.peers.dupMiss + 1 }
      if t.setup.missLimit ≤ t.peers.dupMiss then lapseCond .duplicateNumber t else t
  else s

/-- The age sweep and what it hands on (R131): the supervisor, the feed controller, the mode controller
and the join unit. -/
def ageSweep (s : State) : State :=
  let t := { s with peers.records := s.peers.records.map (Peer.age s.setup.missLimit) }
  joinIfWaiting (checkRejoin (admitIfSettled (judgePeers (ageDuplicate t))))

/-- REPORT_TIMER_EXPIRY: the timer restarts with the T_rep in force, a periodic report is requested and
the peer table makes its sweep (R131, R156). -/
def execReportTimerExpiry (s : State) : Host.Outcome State Fault Refusal :=
  let t := expireAt s.line.reportTimer s
  finish s
    (ageSweep (requestReport .periodic
      { t with line.reportTimer := some (t.now + t.setup.reportPeriod) }))

end Sys2Proof.Machine
end

