-- ==== Sys2Proof/Machine/Planning.lean ====
section
/-! DEFINITION. The rise computation (chapter 2) and the cycle timer's events CYCLE_TIMER_EXPIRY,
CYCLE_COMPLETION and BANK_B_START (sections 5.4 and 5.5). -/

namespace Sys2Proof.Machine

/-! ### The limits (R28 to R36). Natural subtraction is the clamp at 0. -/

/-- The current segment (R27). A height outside the program, which a plan event does not meet, takes
the last segment. -/
def currentSegment (r : SetupRecord) (h : Nat) : Nat :=
  if h < r.programStart then 1
  else
    (((List.range r.segCount).map (· + 1)).find? fun k =>
      decide (r.segStart k ≤ h) && decide (h < r.segStart k + r.segLen k)).getD r.segCount

/-- PROGRAM: both roundings on the exact product (R28). -/
def programLimit (rate scale cycle : Nat) : Nat := rate * scale / 100 * cycle / 360

/-- RAMP, absent with RAMP_STEP 0 (R30). -/
def rampLimit (step count : Nat) : Option Nat := if step = 0 then none else some (step * count)

/-- LEVEL, absent with an empty link list, 0 while a linked neighbour is unavailable (R31). -/
def levelLimit (s : State) (lead : Nat) : Option Nat :=
  if s.peers.links = [] then none
  else if allAvailable s then
    match linkedFloor s with
    | some floor => some (floor + lead - s.seq.height)
    | none => some 0
  else some 0

/-- DECK (R32). -/
def deckLimit (s : State) : Nat := deckFloor s + s.setup.deckSpread - s.seq.height

/-- EXIT (R33). -/
def exitRise (s : State) : Nat := exitLimit s - s.seq.height

/-- FILL: 0 with an empty stack or without a concrete top (R34). -/
def fillLimit (s : State) : Nat :=
  if s.stack.layers = [] then 0
  else
    match s.stack.concreteTop with
    | some top => top - s.setup.concreteMin - s.seq.height
    | none => 0

/-- The held start: the start of the lowest-numbered unreleased held segment (R35). -/
def heldStart (s : State) : Option Nat :=
  (s.setup.heldSegments.find? (unreleased s)).map s.setup.segStart

/-- SEGMENT (R35). -/
def segmentLimit (s : State) : Nat :=
  match heldStart s with
  | some start => min (start - s.seq.height) (s.setup.programTop - s.seq.height)
  | none => s.setup.programTop - s.seq.height

/-- The limits present, in the order in which the limit cause is named (R40). -/
def limits (s : State) : List (LimitCause × Nat) :=
  let r := s.setup
  let k := currentSegment r s.seq.height
  [(.segment, segmentLimit s)]
    ++ (levelLimit s (r.segLead k)).toList.map (fun v => (.level, v))
    ++ [(.deck, deckLimit s), (.exit, exitRise s), (.fill, fillLimit s)]
    ++ (rampLimit r.rampStep s.plan.ramp).toList.map (fun v => (.ramp, v))
    ++ [(.program, programLimit (r.segRate k) s.ctl.rateScale r.cycleTime),
        (.strokeMax, r.strokeNominal)]

/-- The candidate rise: the least of the limits present (R37). -/
def leastLimit (ls : List (LimitCause × Nat)) : Nat := (ls.map Prod.snd).min?.getD 0

/-- The first limit that equals the candidate (R40). -/
def bindingLimit (ls : List (LimitCause × Nat)) (least : Nat) : LimitCause :=
  ((ls.find? fun l => l.2 == least).map Prod.fst).getD .none

/-- The planned rise by the minimum-stroke rule (R38). -/
def riseOf (strokeMin candidate : Nat) : Nat := if strokeMin ≤ candidate then candidate else 0

/-- A channel's target: the planned rise plus its trim, each clamped (R41, R42). -/
def channelTarget (r : SetupRecord) (height rise : Nat) (c : Channel) : Nat :=
  if rise = 0 ∨ c.state = .off then 0
  else
    (clampInt 0 Config.targetTop
      (rise + clampInt (-(r.trimMax : Int)) r.trimMax ((height : Int) - c.climbed))).toNat

/-- The plan of a plan event (R23, R37 to R43), the ramp count being up to date. -/
def planOf (s : State) : PlanRecord :=
  let r := s.setup
  let ls := limits s
  let candidate := leastLimit ls
  let paused := s.ctl.mode == .paused
  let rise := if paused then 0 else riseOf r.strokeMin candidate
  { rise := rise
    candidate := some candidate
    cause := if paused then .held else bindingLimit ls candidate
    belowMin := !paused && decide (0 < candidate) && decide (candidate < r.strokeMin)
    segment := some (currentSegment r s.seq.height)
    targets := s.seq.chans.map (channelTarget r s.seq.height rise) }

/-- The ramp count raised by a plan event in CLIMBING, up to 255 (R29). -/
def raiseRamp (s : State) : State :=
  if s.ctl.mode = .climbing then { s with plan.ramp := min 255 (s.plan.ramp + 1) } else s

/-! ### Starting the strokes (R87 to R89) -/

/-- A channel takes its target and its start pending mark (R87). -/
def Channel.takeTarget (t : Nat) (c : Channel) : Channel :=
  if c.state = .off then c else { c with target := t, startPending := decide (0 < t) }

/-- The start of a channel in REST with its start pending falls due (R88). -/
def Channel.startIfDue (r : SetupRecord) (now : Nat) (c : Channel) : Channel :=
  if c.state = .rest ∧ c.startPending = true then c.startDue r now else c

/-- The pending starts of one bank, or of both, fall due (R87). -/
def startBank (pick : Ch → Bool) (s : State) : State :=
  { s with seq.chans := PerChannel.ofFn fun c =>
      if pick c then (s.chan c).startIfDue s.setup s.now else s.chan c }

/-- Every active bank A channel is in REST with no start pending (R89). -/
def bankAReady (s : State) : Bool :=
  Ch.all.all fun c =>
    !c.bankA || !(s.chan c).isActive || ((s.chan c).state == .rest && !(s.chan c).startPending)

/-- Some bank B channel waits for its start. -/
def bankBWaiting (s : State) : Bool :=
  Ch.all.any fun c => !c.bankA && (s.chan c).state == .rest && (s.chan c).startPending

/-- The starts of a cycle fall due, together or bank A first (R87, R89). -/
def startStrokes (s : State) : State :=
  if s.setup.banked then
    let t := startBank Ch.bankA s
    if bankAReady t then startBank (fun c => !c.bankA) t else t
  else startBank (fun _ => true) s

/-- A plan event (R23, R46, R85, R87): the plan is made and written, the stroke count is raised where
the rise is above 0, which rewrites the retained record (R171), the targets are taken, the timer restarts and the
starts fall due. -/
def planEvent (s : State) : State :=
  let t := raiseRamp s
  let p := planOf t
  startStrokes (keepChange (decide (0 < p.rise))
    { t with
      plan.last := p
      seq.strokeCount := if 0 < p.rise then (t.seq.strokeCount + 1) % 65536 else t.seq.strokeCount
      seq.expiryHeld := false
      seq.cycleTimer := some (t.now + t.setup.cycleTime * 1000)
      seq.chans := PerChannel.ofFn fun c => (t.chan c).takeTarget (p.targets.get c) })

/-! ### The commands -/

/-- The cycle timer's expiry raises the plan event or is held (R85). -/
def cycleExpiry (s : State) : State :=
  if allAtRest s then planEvent s else { s with seq.cycleTimer := none, seq.expiryHeld := true }

/-- CYCLE_TIMER_EXPIRY (R85): a stopped timer raises nothing. -/
def execCycleTimerExpiry (s : State) : Host.Outcome State Fault Refusal :=
  finish s
    (if s.seq.cycleTimer.isSome && s.ctl.mode.climbs then
      cycleExpiry (expireAt s.seq.cycleTimer s)
    else s)

/-- The moment of cycle completion has come: an expiry is held and every active channel is at REST with
no start pending (R86). -/
def cycleComplete (s : State) : Bool := s.seq.expiryHeld && s.ctl.mode.climbs && allAtRest s

/-- CYCLE_COMPLETION (R86): the held expiry is released and the plan event raised. -/
def execCycleCompletion (s : State) : Host.Outcome State Fault Refusal :=
  finish s (if cycleComplete s then planEvent s else s)

/-- The bank B starts fall due: BANKED is on, a bank B start is pending and bank A is ready (R89). -/
def bankBDue (s : State) : Bool := s.setup.banked && bankBWaiting s && bankAReady s

/-- BANK_B_START (R88, R89, R97). -/
def execBankBStart (s : State) : Host.Outcome State Fault Refusal :=
  finish s (if bankBDue s then startBank (fun c => !c.bankA) s else s)

end Sys2Proof.Machine
end

