-- ==== Sys2Proof/Machine/Reset.lean ====
section
/-! DEFINITION. The resets: POWER_ON_RESET and BROWN_OUT_RESET (R20, R22, R63, R64, R80, R105, R124, R140,
R160, R162, R163, R172, R173, R180, R198). The queue of commands is not the station's and stays. -/

namespace Sys2Proof.Machine

/-! ### What every reset sets -/

/-- The own number from the strap pins: 1 to 59, otherwise 0 (R141, R162). -/
def strapNumber (strap : BitVec 6) : Nat := if strap.toNat ≤ 59 then strap.toNat else 0

/-- A channel after a reset before any setup (R105). -/
def Channel.afterReset : Channel :=
  { state := .off, climbed := 0, target := 0, startPending := false, x := none,
    readingValid := false, xPeak := 0, blind := false, pressureOpen := false, dumpOpen := false,
    pressureClosed := 0, dumpClosed := 0, strokeTimer := none, deferred := none, homing := .none }

/-- A record of which no report has been entered since the reset (R126, R140). -/
def Peer.unheard (n : Nat) : Peer :=
  { number := n, liveness := .unheard, miss := 0, heard := false, height := none,
    strokeCount := none, feed := none, deficit := none, topMaturity := none }

/-- One record per roster number other than the own (R125, R140). -/
def freshRecords (roster own : Nat) : List Peer :=
  (((List.range roster).map (· + 1)).filter (· != own)).map Peer.unheard

/-- The mode controller's, planner's, sequencer's and stack's values (R20, R22, R63, R105). -/
def resetClimb (mode : Mode) (s : State) : State :=
  { s with
    ctl := { mode := mode, pause := .empty, released := [], rateScale := 100, feedHold := false,
             refusal := none, returnMode := none }
    plan := { ramp := 0, last := .blank }
    seq := { cycleTimer := none, expiryHeld := false,
             chans := PerChannel.ofFn fun _ => Channel.afterReset, height := 0, strokeCount := 0 }
    stack := { layers := [], concreteTop := none, nextSeq := 0, reckoning := false } }

/-- The cure integrator's and feed controller's values (R80, R124). -/
def resetConcrete (s : State) : State :=
  { s with
    cure := { clock := 0, sampleTimer := some Config.samplePeriod, lastTemp := none, missed := 0,
              rate := 0, inUse := none }
    feed := { state := .idle, settled := false, settleTimer := none, feedTimer := none,
              gate := false, depth := none, blankTimer := none, probeValid := false,
              probeTimer := some Config.probePeriod } }

/-- The peer table's and line interface's values under a setup record (R140, R160). -/
def resetDeck (own : Nat) (r : SetupRecord) (s : State) : State :=
  { s with
    peers := { records := freshRecords r.roster own, dupMiss := 0, dupHeard := false, links := [] }
    line := { report := .empty, setupRequest := .empty, idle := false, errors := 0, muted := false,
              muteTimer := none, busyTimer := none, reportTimer := some r.reportPeriod,
              sender := own, frame := none } }

/-- The join unit's values of the bad strap's column, which the courses then change (R180). -/
def resetJoin (own : Nat) (a b : Option Image) (s : State) : State :=
  { s with
    join := { ownNumber := own, stage := .closed, staged := defaultRecord,
              marks := Vector.replicate 87 false, committed := none, windowTimer := none,
              requestTimer := none, itemsReceived := 0, lastCommit := .none, kind := .none,
              listenTimer := none, state := .none, restoredMode := none, imageA := a,
              imageB := b } }

/-- The supervisor's values, CLOCK FALLBACK being present until the crystal has run (R198). -/
def resetSupervisor (s : State) : State :=
  { s with
    sup := { present := [.clockFallback], latched := [], armed := false, haltCause := none,
             clearPending := false, clearTimer := none, drive := false, loopSensed := false,
             supplyLow := false, onCrystal := false, crystalTimer := none } }

/-- Every item at its reset value, the courses' part excepted. -/
def resetAll (strap : BitVec 6) (inhibit : Bool) (mode : Mode) (r : SetupRecord)
    (a b : Option Image) (s : State) : State :=
  resetSupervisor (resetJoin (strapNumber strap) a b (resetDeck (strapNumber strap) r
    (resetConcrete (resetClimb mode { s with now := 0, strap := strap, inhibitInput := inhibit }))))

/-- The inhibit input found asserted at the end of reset is asserted at that moment (R189), and the change
of the fault set is reported (R157, R160, R197). -/
def inhibitAtReset (s : State) : State :=
  if s.inhibitInput then reportFaults s (raiseCond .inhibit s) else s

/-! ### The courses (R162, R163, R173) -/

/-- LOCKED under number 0 (R2, R162). The images are kept as found. -/
def lockedCourse (strap : BitVec 6) (inhibit : Bool) (a b : Option Image) (s : State) : State :=
  inhibitAtReset (resetAll strap inhibit .locked defaultRecord a b s)

/-- The setup course (R163): both images are marked invalid and a SETUP REQUEST is requested. -/
def setupCourse (strap : BitVec 6) (inhibit : Bool) (s : State) : State :=
  let t := resetAll strap inhibit .setup defaultRecord none none s
  inhibitAtReset
    (requestSetup
      { t with
        join.stage := .waiting
        join.requestTimer := some Config.requestPeriod })

/-- A channel of a restore (R105): an active one stands in REST until its first valid reading, or in
INHIBITED while the input is asserted. -/
def restoreChannel (inhibit active : Bool) (climbed : Nat) : Channel :=
  let c : Channel := { Channel.afterReset with climbed := climbed }
  if !active then c
  else if inhibit then { c with state := .inhibited }
  else { c with state := .rest, homing := .atRestore }

/-- The next sequence number after a restore (R49). -/
def restoredSequence (ls : List Layer) : Nat := (ls.getLast?.map fun l => nextSequence l.seq).getD 0

/-- The latched set of a restore pulls the halt loop where it holds a TRIP-class entry, and gives HALT
LOOP its cause (R173, R198). -/
def restoreLatched (ls : List Cond) (s : State) : State :=
  let t : State := { s with sup.latched := ls }
  { t with
    sup.drive := t.tripLatched
    sup.haltCause :=
      if ls.contains .haltLoop then some (if t.tripLatched then .self else .other) else none }

/-- The restore of an image (R64, R173). JACK SPREAD is judged at the heights it sets (R187) and reported
where it changes the fault set; NEIGHBOUR LOST, which the fresh link list brings with it, waits for the
periodic report (R160, notes/assumptions/16.md). -/
def restoreCourse (strap : BitVec 6) (inhibit : Bool) (a b : Option Image) (k : Kept) (s : State) :
    State :=
  let r := k.setup
  let t := resetAll strap inhibit .joining r a b s
  let u : State :=
    { t with
      ctl.released := k.released
      seq.chans := PerChannel.ofFn fun c =>
        restoreChannel inhibit (r.active c) (k.climbed.get c)
      seq.strokeCount := k.strokeCount
      stack.layers := k.layers.map fun l => { l with placed := 0 }
      stack.nextSeq := restoredSequence k.layers
      peers.links := linkList (strapNumber strap) r
      join.stage := .committed
      join.committed := some r
      join.kind := .afterRestore
      join.state := .listening
      join.listenTimer := some r.listenLength
      join.restoredMode := some k.mode }
  let v := restoreLatched k.latched (removeExited (workHeight u))
  inhibitAtReset (judgePeers (reportFaults v (judgeSpread v)))

/-- The strap gives a station number, 1 to 59 (R162). -/
def strapGood (strap : BitVec 6) : Bool := decide (1 ≤ strap.toNat) && decide (strap.toNat ≤ 59)

/-- POWER_ON_RESET: the hold-up store is empty, so the retained record is invalid (R163, R172). -/
def execPowerOnReset (strap : BitVec 6) (inhibit : Bool) (s : State) :
    Host.Outcome State Fault Refusal :=
  .next
    (if strapGood strap then setupCourse strap inhibit s
    else lockedCourse strap inhibit none none s)

/-- BROWN_OUT_RESET (R162, R163, R172): a valid image that carries the strap's number is restored. -/
def execBrownOutReset (strap : BitVec 6) (inhibit cutRewrite : Bool) (s : State) :
    Host.Outcome State Fault Refusal :=
  let a := (imagesFound cutRewrite s).1
  let b := (imagesFound cutRewrite s).2
  .next
    (if strapGood strap then
      match usedImage a b with
      | some i =>
        if i.kept.number = strap.toNat then restoreCourse strap inhibit a b i.kept s
        else setupCourse strap inhibit s
      | none => setupCourse strap inhibit s
    else lockedCourse strap inhibit a b s)

end Sys2Proof.Machine
end

