-- ==== Sys2Proof/Machine/Supervision.lean ====
section
/-! DEFINITION. The supervisor's commands: CLEAR and the local clear input (R16, R190), the halt loop (R192,
R193), the field supply (R17, R194) and the time base (R195, R196). -/

namespace Sys2Proof.Machine

/-! ### CLEAR (R190) -/

/-- Step 1: the JACK SPREAD judgement is withdrawn in STANDING, STOPPED and TOPPED (R187). -/
def withdrawSpread (s : State) : State :=
  match s.ctl.mode with
  | .standing | .stopped | .topped => lapseCond .jackSpread s
  | _ => s

/-- An entry that step 2 unlatches: any but HALT LOOP whose condition is absent. -/
def unlatchable (s : State) (c : Cond) : Bool := c != .haltLoop && !s.isPresent c

/-- Step 2. -/
def unlatchAbsent (s : State) : State :=
  { s with sup.latched := s.sup.latched.filter fun c => !unlatchable s c }

/-- Step 3: the halt drive is released once no TRIP-class entry remains latched (R191). -/
def releaseDrive (s : State) : State :=
  if s.tripLatched then s else { s with sup.drive := false }

/-- HALT LOOP unlatches; its cause, the clear pending mark and the timer go with it (R192, R193). -/
def unlatchHalt (s : State) : State :=
  { s with
    sup.latched := s.sup.latched.filter (· != .haltLoop)
    sup.haltCause := none
    sup.clearPending := false
    sup.clearTimer := none }

/-- Step 4: HALT LOOP unlatches where the loop is sensed released, and is otherwise marked clear
pending for 2 s (R193). -/
def clearHalt (s : State) : State :=
  if s.isLatched .haltLoop then
    if s.sup.loopSensed then
      { s with
        sup.clearPending := true
        sup.clearTimer := some (s.now + Config.clearPendingLength) }
    else unlatchHalt s
  else s

/-- The channel's last RETRACT TIMEOUT and TRANSDUCER entries were unlatched between `before` and
`s`. -/
def faultsUnlatched (before s : State) (c : Ch) : Bool := heldInFault before c && !heldInFault s c

/-- Step 5: those channels leave FAULT (R103). -/
def freeChannels (before s : State) : State :=
  { s with seq.chans := PerChannel.ofFn fun c =>
      if faultsUnlatched before s c && (s.chan c).state == .fault then
        (s.chan c).leaveFault s.setup s.now s.inhibitInput (s.ctl.mode == .reduced)
      else s.chan c }

/-- Step 6: where the latched set has become empty since `before`, a station in STOPPED enters STANDING
(R16, notes/assumptions/8.md). -/
def latchedEmptied (before s : State) : State :=
  if before.noneLatched = false ∧ s.noneLatched = true ∧ s.ctl.mode = .stopped then
    enterMode .standing s
  else s

/-- Steps 6 and 7: a change of the latched set since `before` rewrites the retained record once more after
the mode has followed. The request of step 7 is that of the changed fault set (`finish`). -/
def closeClear (before s : State) : State :=
  keepChange (s.sup.latched != before.sup.latched) (latchedEmptied before s)

/-- The steps of R190. -/
def clearFaults (s : State) : State :=
  let t := withdrawSpread s
  closeClear t (freeChannels t (clearHalt (releaseDrive (unlatchAbsent t))))

/-- A CLEAR taken by the mode controller (R16). -/
def clearStation (s : State) : State := if s.ctl.mode.takesCommands then clearFaults s else s

/-- CLEAR (R13, R16, R190). Its argument is ignored (R204). -/
def execClear (sender : BitVec 6) (target _argument : Byte) (s : State) :
    Host.Outcome State Fault Refusal :=
  finish s (if addressed s sender target then clearStation s else s)

/-- LOCAL_CLEAR: the rising edge that ends a low period of at least 50 ms acts as a CLEAR for this
station alone; a shorter one is ignored (R16). -/
def execLocalClear (lowMs : Nat) (s : State) : Host.Outcome State Fault Refusal :=
  finish s (if Config.localClearLow ≤ lowMs then clearStation s else s)

/-! ### The halt loop (R192, R193) -/

/-- HALT_LOOP_SENSED_ASSERTED (R192). -/
def execHaltLoopSensedAsserted (s : State) : Host.Outcome State Fault Refusal :=
  finish s
    (if s.sup.loopSensed then s else raiseCond .haltLoop { s with sup.loopSensed := true })

/-- HALT_LOOP_SENSED_RELEASED: a pending HALT LOOP unlatches, and steps 6 and 7 of R190 follow
(R193). -/
def execHaltLoopSensedReleased (s : State) : Host.Outcome State Fault Refusal :=
  finish s
    (if s.sup.loopSensed then
      let t := lapseCond .haltLoop { s with sup.loopSensed := false }
      if t.sup.clearPending then closeClear t (unlatchHalt t) else t
    else s)

/-- CLEAR_PENDING_TIMER_EXPIRY: the mark lapses and HALT LOOP stays latched (R193). -/
def execClearPendingTimerExpiry (s : State) : Host.Outcome State Fault Refusal :=
  finish s
    (if s.sup.clearTimer.isSome then
      let t := expireAt s.sup.clearTimer s
      { t with sup.clearPending := false, sup.clearTimer := none }
    else s)

/-! ### The field supply (R17, R101, R102, R194) -/

/-- A channel at the entry to REDUCED (R101). The blind mark ends with the stroke: the recovery decides by the
reading it finds (R102, notes/assumptions/34.md). -/
def Channel.reduce (now : Nat) (c : Channel) : Channel :=
  if c.state = .off ∨ c.state = .fault ∨ c.state = .inhibited then c
  else { c.shut now with state := .rest, startPending := false, blind := false }

/-- The mode controller, the planner, the cycle timer, the feed controller and the line at the entry to
REDUCED (R17, R22, R85, R120, R159). An attempt under way is cut. -/
def enterReduced (s : State) : State :=
  let was := feedAllowed s
  let t : State :=
    requestReport .urgent
      { s with
        ctl.returnMode := some s.ctl.mode
        ctl.mode := .reduced
        plan.last := .blank
        seq.cycleTimer := none
        seq.expiryHeld := false }
  let u := rejudgeFeed was t
  { u with
    line.report := u.line.report.retry
    line.setupRequest :=
      match u.line.setupRequest with
      | .sending => if s.ctl.mode = .setup then .pending else .empty
      | r => r
    line.frame := none }

/-- SUPPLY_LOW: SUPPLY LOW becomes present and the station enters REDUCED; the strokes under way are
credited there, so no entry checks follow (R11, R17, R101, R194). -/
def execSupplyLow (s : State) : Host.Outcome State Fault Refusal :=
  finish s
    (if s.sup.supplyLow then s
    else
      let t := raiseCond .supplyLow { s with sup.supplyLow := true }
      if t.ctl.mode = .reduced then t
      else creditStrokes t (updateAll (Channel.reduce t.now) (enterReduced t)))

/-- A REST channel at the supply recovery (R102). One that no reading has reached since a restore retracts
blind like any other whose last reading counts as invalid (notes/assumptions/13.md). -/
def Channel.recover (r : SetupRecord) (now : Nat) (c : Channel) : Channel :=
  if c.state = .rest then c.decideHome r now else c

/-- The mode entered on the return from REDUCED (R17). -/
def returnTo (s : State) : Mode :=
  let m := s.ctl.returnMode.getD .setup
  if m.climbs then (if s.ctl.pause.isEmpty then .climbing else .paused) else m

/-- SUPPLY_RECOVERY: SUPPLY LOW ends, the retractions of R102 begin and the station leaves REDUCED with
its ramp count at 0 (R17, R194). -/
def execSupplyRecovery (s : State) : Host.Outcome State Fault Refusal :=
  finish s
    (if s.sup.supplyLow then
      let t := lapseCond .supplyLow { s with sup.supplyLow := false }
      if t.ctl.mode = .reduced then
        enterMode (returnTo t)
          (updateAll (Channel.recover t.setup t.now) { t with plan.ramp := 0 })
      else t
    else s)

/-! ### The time base (R195, R196) -/

/-- CRYSTAL_STOPPED: the time base falls back to INTERNAL, and the run timer stops (R195, R196). Every
timer keeps the count it had reached. -/
def execCrystalStopped (s : State) : Host.Outcome State Fault Refusal :=
  finish s
    (let t : State := { s with sup.crystalTimer := none }
    if s.sup.onCrystal then raiseCond .clockFallback { t with sup.onCrystal := false } else t)

/-- CRYSTAL_CYCLE_SEEN: in fallback the first cycle seen starts the run timer (R196). -/
def execCrystalCycleSeen (s : State) : Host.Outcome State Fault Refusal :=
  finish s
    (if !s.sup.onCrystal && s.sup.crystalTimer.isNone then
      { s with sup.crystalTimer := some (s.now + Config.crystalRunLength) }
    else s)

/-- CRYSTAL_RUN_TIMER_EXPIRY: the time base becomes the crystal and CLOCK FALLBACK ends (R196). -/
def execCrystalRunTimerExpiry (s : State) : Host.Outcome State Fault Refusal :=
  finish s
    (if s.sup.crystalTimer.isSome then
      let t := expireAt s.sup.crystalTimer s
      lapseCond .clockFallback { t with sup.crystalTimer := none, sup.onCrystal := true }
    else s)

end Sys2Proof.Machine
end

