-- ==== Sys2Proof/Machine/Dispatch.lean ====
section
/-! DEFINITION. One arm per command, each one direct call of its meaning. -/

namespace Sys2Proof.Machine

/-- A command's effect on everything but the queue. -/
def exec (i : Instr) (s : State) : Host.Outcome State Fault Refusal :=
  match i with
  | .start sender target argument => Sys2Proof.Machine.execStart sender target argument s
  | .stop sender target argument => Sys2Proof.Machine.execStop sender target argument s
  | .pause sender target argument => Sys2Proof.Machine.execPause sender target argument s
  | .resume sender target argument => Sys2Proof.Machine.execResume sender target argument s
  | .clear sender target argument => Sys2Proof.Machine.execClear sender target argument s
  | .rateScale sender target argument => Sys2Proof.Machine.execRateScale sender target argument s
  | .feedHold sender target argument => Sys2Proof.Machine.execFeedHold sender target argument s
  | .localClear lowMs => Sys2Proof.Machine.execLocalClear lowMs s
  | .report sender payload => Sys2Proof.Machine.execReport sender payload s
  | .setupData sender target item value => Sys2Proof.Machine.execSetupData sender target item value s
  | .setupCommit sender target check => Sys2Proof.Machine.execSetupCommit sender target check s
  | .peerSetupRequest sender payload => Sys2Proof.Machine.execPeerSetupRequest sender payload s
  | .frameDiscarded frame => Sys2Proof.Machine.execFrameDiscarded frame s
  | .powerOnReset strap inhibit => Sys2Proof.Machine.execPowerOnReset strap inhibit s
  | .brownOutReset strap inhibit cutRewrite => Sys2Proof.Machine.execBrownOutReset strap inhibit cutRewrite s
  | .setupRequestTimerExpiry => Sys2Proof.Machine.execSetupRequestTimerExpiry s
  | .windowExpiry => Sys2Proof.Machine.execWindowExpiry s
  | .joinListenExpiry => Sys2Proof.Machine.execJoinListenExpiry s
  | .cycleTimerExpiry => Sys2Proof.Machine.execCycleTimerExpiry s
  | .cycleCompletion => Sys2Proof.Machine.execCycleCompletion s
  | .bankBStart => Sys2Proof.Machine.execBankBStart s
  | .deferredValveOpening ch => Sys2Proof.Machine.execDeferredValveOpening ch s
  | .transducerReading ch reading => Sys2Proof.Machine.execTransducerReading ch reading s
  | .tExtExpiry ch => Sys2Proof.Machine.execTExtExpiry ch s
  | .holdEnd ch => Sys2Proof.Machine.execHoldEnd ch s
  | .tRetExpiry ch => Sys2Proof.Machine.execTRetExpiry ch s
  | .blindRetractionEnd ch => Sys2Proof.Machine.execBlindRetractionEnd ch s
  | .cureSampleEvent reading => Sys2Proof.Machine.execCureSampleEvent reading s
  | .probeSample reading => Sys2Proof.Machine.execProbeSample reading s
  | .blankTimerExpiry => Sys2Proof.Machine.execBlankTimerExpiry s
  | .settleTimerExpiry => Sys2Proof.Machine.execSettleTimerExpiry s
  | .feedTimerExpiry => Sys2Proof.Machine.execFeedTimerExpiry s
  | .reportTimerExpiry => Sys2Proof.Machine.execReportTimerExpiry s
  | .lineIdle => Sys2Proof.Machine.execLineIdle s
  | .attemptStart => Sys2Proof.Machine.execAttemptStart s
  | .arbitrationLost => Sys2Proof.Machine.execArbitrationLost s
  | .transmitError => Sys2Proof.Machine.execTransmitError s
  | .sentWhole => Sys2Proof.Machine.execSentWhole s
  | .muteTimerExpiry => Sys2Proof.Machine.execMuteTimerExpiry s
  | .busyLineTimerExpiry => Sys2Proof.Machine.execBusyLineTimerExpiry s
  | .haltLoopSensedAsserted => Sys2Proof.Machine.execHaltLoopSensedAsserted s
  | .haltLoopSensedReleased => Sys2Proof.Machine.execHaltLoopSensedReleased s
  | .clearPendingTimerExpiry => Sys2Proof.Machine.execClearPendingTimerExpiry s
  | .supplyLow => Sys2Proof.Machine.execSupplyLow s
  | .supplyRecovery => Sys2Proof.Machine.execSupplyRecovery s
  | .inhibitAsserted => Sys2Proof.Machine.execInhibitAsserted s
  | .inhibitReleased => Sys2Proof.Machine.execInhibitReleased s
  | .crystalStopped => Sys2Proof.Machine.execCrystalStopped s
  | .crystalCycleSeen => Sys2Proof.Machine.execCrystalCycleSeen s
  | .crystalRunTimerExpiry => Sys2Proof.Machine.execCrystalRunTimerExpiry s
  | .lineNotIdle => Sys2Proof.Machine.execLineNotIdle s

end Sys2Proof.Machine
end

