-- ==== Sys2Proof/Machine/Idle.lean ====
section
/-! DEFINITION. What the station does while no command waits: its own timers and its own conditions bring
about their events, and otherwise a millisecond passes (notes/assumptions/2.md). -/

namespace Sys2Proof.Machine

/-- A timer with the event of its expiry. -/
def timed (t : Timer) (i : Instr) : List (Nat × Instr) := (t.map fun d => (d, i)).toList

/-- The event of a channel's stroke timer, by the channel's state. -/
def strokeEvent (ch : Ch) (c : Channel) : List (Nat × Instr) :=
  match c.state with
  | .extend => timed c.strokeTimer (.tExtExpiry ch)
  | .hold => timed c.strokeTimer (.holdEnd ch)
  | .retract =>
    timed c.strokeTimer (if c.blind then .blindRetractionEnd ch else .tRetExpiry ch)
  | _ => []

/-- The events of one channel. -/
def channelEvents (s : State) (ch : Ch) : List (Nat × Instr) :=
  timed (s.chan ch).deferred (.deferredValveOpening ch) ++ strokeEvent ch (s.chan ch)

/-- Every event the station brings about itself, with its moment: the timers' expiries, and the
conditions that hold now. The sampling events are not among them, for they carry a sensor's reading. -/
def ownEvents (s : State) : List (Nat × Instr) :=
  timed s.join.windowTimer .windowExpiry
    ++ timed s.join.requestTimer .setupRequestTimerExpiry
    ++ timed s.join.listenTimer .joinListenExpiry
    ++ Ch.all.flatMap (channelEvents s)
    ++ (if cycleComplete s then [(s.now, .cycleCompletion)] else [])
    ++ (if bankBDue s then [(s.now, .bankBStart)] else [])
    ++ timed s.seq.cycleTimer .cycleTimerExpiry
    ++ timed s.feed.blankTimer .blankTimerExpiry
    ++ timed s.feed.settleTimer .settleTimerExpiry
    ++ timed s.feed.feedTimer .feedTimerExpiry
    ++ timed s.line.reportTimer .reportTimerExpiry
    ++ timed s.line.muteTimer .muteTimerExpiry
    ++ timed s.line.busyTimer .busyLineTimerExpiry
    ++ timed s.sup.clearTimer .clearPendingTimerExpiry
    ++ timed s.sup.crystalTimer .crystalRunTimerExpiry
    ++ (if mayAttempt s && (s.line.report.isPending || s.line.setupRequest == .pending) then
          [(s.now, .attemptStart)]
        else [])

/-- The earliest of some events, the first among equals. -/
def earliest : List (Nat × Instr) → Option (Nat × Instr)
  | [] => none
  | e :: rest =>
    match earliest rest with
    | some f => if f.1 < e.1 then some f else some e
    | none => some e

/-- The station's own event that is due now, if any. -/
def dueEvent (s : State) : Option Instr :=
  (earliest ((ownEvents s).filter fun e => decide (e.1 ≤ s.now))).map Prod.snd

/-- A millisecond passes. -/
def passTime (s : State) : State := followBusyLine { s with now := s.now + 1 }

end Sys2Proof.Machine
end

