-- ==== Sys2Proof/Machine/Step.lean ====
section
/-! DEFINITION. One step: the command at the front of the queue is taken; with an empty queue the station's
own event that is due takes place, or else a millisecond passes (notes/assumptions/2.md). -/

namespace Sys2Proof.Machine

/-- A step with nothing commanded. -/
def idleStep (s : State) : Host.Outcome State Fault Refusal :=
  match dueEvent s with
  | some i => exec i s
  | none => .next (passTime s)

/-- One step of the station. -/
def step (s : State) : Host.Outcome State Fault Refusal :=
  match s.pending with
  | [] => idleStep s
  | i :: rest => exec i { s with pending := rest }

/-- The state with the command that a word spells at the front of its queue. -/
def State.withFetchWord (s : State) (nbits w : Nat) : State :=
  match decodeTableWord nbits w with
  | some i => { s with pending := i :: s.pending }
  | none => s

end Sys2Proof.Machine
end

