-- ==== Sys2Proof/Machine/LineCode.lean ====
section
/-! DEFINITION. A frame on the two wires, bit time by bit time: the line code (R142), the layout of a frame
in levels and its reading (R199, R200), arbitration (R144), and the readback that ends an attempt (R144 to
R146). -/

namespace Sys2Proof.Machine

/-- The two levels of the deck line (section 8.2). -/
inductive Level where
  | dominant | recessive
  deriving DecidableEq, Repr

/-- Where two parties drive at once, the dominant level prevails (section 8.2). -/
def Level.overlay : Level → Level → Level
  | .recessive, l => l
  | .dominant, _ => .dominant

/-- The levels of one bit time, in its first half and in its second. -/
structure BitTime where
  first : Level
  second : Level
  deriving DecidableEq, Repr

/-- A bit in plain levels: 0 dominant, 1 recessive (R142). -/
def plainBit (b : Bool) : BitTime :=
  if b then ⟨.recessive, .recessive⟩ else ⟨.dominant, .dominant⟩

/-- A bit in the self-clocked code: 0 dominant then recessive, 1 recessive then dominant (R142). -/
def codedBit (b : Bool) : BitTime :=
  if b then ⟨.recessive, .dominant⟩ else ⟨.dominant, .recessive⟩

/-- What the line shows while two parties drive the same bit time (R142). -/
def BitTime.overlay (a b : BitTime) : BitTime :=
  ⟨a.first.overlay b.first, a.second.overlay b.second⟩

/-- The bit a self-clocked bit time carries; none is a code violation, a bit time without a change of
level at its middle (R142). -/
def readCoded : BitTime → Option Bool
  | ⟨.dominant, .recessive⟩ => some false
  | ⟨.recessive, .dominant⟩ => some true
  | _ => none

/-- The bit a plain bit time carries: recessive only where no party drives (R142). -/
def readPlain (b : BitTime) : Bool := b == ⟨.recessive, .recessive⟩

/-- The line of a frame: the start, the arbitration field in plain levels, the kind, the length, the
payload and the check in the self-clocked code, and the end (R199). -/
def frameLine (f : TxFrame) : List BitTime :=
  [plainBit false]
    ++ (natBits 2 f.priority ++ natBits 6 f.sender).map plainBit
    ++ (natBits 3 f.kind ++ natBits 5 f.payload.length ++ f.payload.flatMap (natBits 8)
        ++ natBits 16 f.check).map codedBit
    ++ [plainBit true, plainBit true]

/-- The number that bits spell, most significant first. -/
def ofBits (bs : List Bool) : Nat := bs.foldl (fun a b => a * 2 + b.toNat) 0

/-- The first `n` bytes of a list of bits. -/
def takeBytes : Nat → List Bool → List Nat
  | 0, _ => []
  | n + 1, bs => ofBits (bs.take 8) :: takeBytes n (bs.drop 8)

/-- The frame a receiver reads off the line: it takes the kind and the length after the arbitration
field, as many payload bytes as the length gives, the check, and looks for the end in the bit time after
the check (R200), in that one alone of the end's two (notes/assumptions/32.md). A bit time with a code
violation reads as 0 and is marked. -/
def readLine (line : List BitTime) : RxFrame :=
  let arbitration := ((line.drop 1).take 8).map readPlain
  let body := line.drop 9
  let bitsAt (i n : Nat) : List Bool := ((body.drop i).take n).map fun b => (readCoded b).getD false
  let length := ofBits (bitsAt 3 5)
  let coded := 24 + 8 * length
  { startSeen := line.head? == some (plainBit false)
    priority := BitVec.ofNat 2 (ofBits (arbitration.take 2))
    sender := BitVec.ofNat 6 (ofBits (arbitration.drop 2))
    kind := BitVec.ofNat 3 (ofBits (bitsAt 0 3))
    length := BitVec.ofNat 5 length
    payload := (takeBytes length (bitsAt 8 (8 * length))).map (BitVec.ofNat 8)
    check := BitVec.ofNat 16 (ofBits (bitsAt (8 + 8 * length) 16))
    codeViolation := (body.take coded).any fun b => readCoded b == none
    endSeen := (body.drop coded).head? == some (plainBit true) }

/-- The arbitration values still driven after the `w` bits of the field, most significant first: at each
bit a sender of a recessive bit that reads a dominant one stops (R144). -/
def contenders : Nat → List Nat → List Nat
  | 0, vs => vs
  | w + 1, vs =>
    contenders w
      (if vs.any fun v => !v.testBit w then vs.filter fun v => !v.testBit w else vs)

/-! ### Readback (R144 to R146) -/

/-- How an attempt ends at a bit of its arbitration field, by the bit sent and the bit read: lost where it
sent recessive and reads dominant (R144), a transmit error where it sent dominant and reads recessive; a match
goes on (R145). -/
def fieldReadback (sent read : BitTime) : Option Instr :=
  match readPlain sent, readPlain read with
  | true, false => some .arbitrationLost
  | false, true => some .transmitError
  | _, _ => none

/-- How an attempt ends at a bit time after the field: a transmit error where the line shows another bit or a
code violation (R146). -/
def bodyReadback (sent read : BitTime) : Option Instr :=
  if read = sent then none else some .transmitError

/-- The readback of bit time `i` of a frame. The start, bit time 0, is not read back
(notes/assumptions/32.md). -/
def readbackAt (i : Nat) (sent read : BitTime) : Option Instr :=
  if i = 0 then none else if i ≤ 8 then fieldReadback sent read else bodyReadback sent read

/-- The readback from bit time `i` on, of the levels sent and the levels the line has shown so far: the first
bit time that ends the attempt, sent whole where all of them match, none while it goes on. -/
def readbackFrom : Nat → List BitTime → List BitTime → Option Instr
  | _, [], _ => some .sentWhole
  | _, _ :: _, [] => none
  | i, sent :: rest, read :: line =>
    match readbackAt i sent read with
    | some outcome => some outcome
    | none => readbackFrom (i + 1) rest line

/-- The event that a frame's readback brings about, `line` being what the line has shown since its start. -/
def readback (f : TxFrame) (line : List BitTime) : Option Instr := readbackFrom 0 (frameLine f) line

/-- The event that ends the attempt under way: ARBITRATION_LOST, TRANSMIT_ERROR or SENT_WHOLE (R144 to
R146). -/
def attemptOutcome (s : State) (line : List BitTime) : Option Instr :=
  s.line.frame.bind fun f => readback f line

/-- What the line shows while two parties send at once. -/
def overlayLines (a b : List BitTime) : List BitTime := List.zipWith BitTime.overlay a b

end Sys2Proof.Machine
end

