-- ==== Sys2Proof/Machine/Pins.lean ====
section
/-! DEFINITION. What the pins' levels stand for (R207): the reading of a current input and the command that a
supply, a loop or a sensor level brings about once its filter has passed it (notes/assumptions/19.md). They
stand beside the machine, as the line's bits do; `exec` takes the readings and the events. -/

namespace Sys2Proof.Machine

/-- The reading of a 4 to 20 mA input over 0 to `top`, from its current in microamperes: open below
3.6 mA. The value is rounded down, so one below 4 mA is negative (R207, notes/assumptions/28.md). -/
def currentReading (top : Int) (microamperes : Nat) : SensorReading :=
  if microamperes < Config.openCurrent then .openCircuit
  else .value (((microamperes : Int) - Config.currentFoot) * top / Config.currentSpan)

/-- A stroke transducer over x 0 to 320 (R83, R207). -/
def transducerPin (ch : Ch) (microamperes : Nat) : Instr :=
  .transducerReading ch (currentReading Config.transducerTop microamperes)

/-- The fill probe over 0 to 16,000; a depth above F is invalid (R106, R207). -/
def probePin (microamperes : Nat) : Instr :=
  .probeSample (currentReading Config.probeTop microamperes)

/-- The event of a field supply that has stood at a level for its filter's time, in tenths of a volt: below
19.0 V with the state NORMAL, above 20.5 V with the state LOW; between the two the state keeps its value
(R194, R207). -/
def supplyPin (s : State) (decivolts : Nat) : Option Instr :=
  if s.sup.supplyLow then
    if Config.supplyRecoveryLevel < decivolts then some .supplyRecovery else none
  else if decivolts < Config.supplyLowLevel then some .supplyLow
  else none

/-- The event of a halt loop that has stood at a level for 1 ms, in millivolts between the loop pins:
asserted below 2 V (R192, R207). -/
def haltLoopPin (s : State) (millivolts : Nat) : Option Instr :=
  if s.sup.loopSensed then
    if Config.haltLoopLevel ≤ millivolts then some .haltLoopSensedReleased else none
  else if millivolts < Config.haltLoopLevel then some .haltLoopSensedAsserted
  else none

/-- A logic supply below 2.95 V makes a brown-out reset, in millivolts (R207). -/
def brownsOut (millivolts : Nat) : Bool := decide (millivolts < Config.logicSupplyLevel)

/-- The event of the jack inhibit input, which is asserted low (R189, R207). -/
def inhibitPin (s : State) (high : Bool) : Option Instr :=
  match s.inhibitInput, high with
  | false, false => some .inhibitAsserted
  | true, true => some .inhibitReleased
  | _, _ => none

end Sys2Proof.Machine
end

