-- ==== Sys2Proof/Safety.lean ====
section
/-! DEFINITION. What a sound state of the station is: one law per block, each a decidable proposition with
the rules it gathers, and `Sound`, all of them together. -/

namespace Sys2Proof.Machine

/-! ### Ranges of plain items -/

/-- The tops of the layers rise, and each layer's bottom is the top of the one below it (R48). -/
def stacked : List Layer → Bool
  | [] => true
  | [l] => decide (l.bottom < l.top)
  | l :: m :: rest => decide (l.bottom < l.top) && m.bottom == l.top && stacked (m :: rest)

/-- No maturity is above that of the layer below (R58). -/
def maturing : List Layer → Bool
  | [] => true
  | [_] => true
  | l :: m :: rest => decide (m.maturity ≤ l.maturity) && maturing (m :: rest)

/-- The fields of a layer lie in the ranges of R47. -/
def layerInRange (l : Layer) : Bool :=
  decide (l.seq < 65536) && decide (l.top ≤ 2015000) && decide (l.placed < 65536)
    && decide (l.maturity ≤ Config.maturityCap)

/-- What R47, R48 and R58 say of the layers alone. -/
abbrev LayersOrdered (ls : List Layer) : Prop :=
  ls.length ≤ Config.maxLayers ∧ stacked ls = true ∧ maturing ls = true
    ∧ ls.all layerInRange = true

/-- Segments 2 to 8 in rising order without repeats (R10). -/
abbrev ReleaseSet (rs : List Nat) : Prop := rs = [2, 3, 4, 5, 6, 7, 8].filter rs.contains

/-- The entries of a latched set are distinct and of class LATCH or TRIP (R181, R184). -/
abbrev LatchedSet (r : SetupRecord) (ls : List Cond) : Prop :=
  ls.Nodup ∧ ∀ c ∈ ls, r.classOf c = .latch ∨ r.classOf c = .trip

/-- A record that a good commit of station `own` lets through (R167, R168). -/
abbrev GoodRecord (own : Nat) (r : SetupRecord) : Prop :=
  recordInRange r = true ∧ failedRule own r = none

/-! ### One law per block -/

/-- The return mode is held exactly in REDUCED and is no REDUCED; in REDUCED, and only there, the supply
is low (R17, R194). -/
abbrev ModeLaw (s : State) : Prop :=
  s.ctl.returnMode.isSome = (s.ctl.mode == .reduced) ∧ s.ctl.returnMode ≠ some .reduced
    ∧ s.sup.supplyLow = (s.ctl.mode == .reduced) ∧ s.ctl.rateScale ≤ Config.rateScaleMax
    ∧ ReleaseSet s.ctl.released

/-- The pause-cause set by mode, in REDUCED by the return mode: empty outside CLIMBING and PAUSED, empty
in CLIMBING, not empty in PAUSED, and with FAULT HOLD exactly while a HOLD-class condition is present
(R6, R8, R17). -/
abbrev PauseLaw (s : State) : Prop :=
  (s.effectiveMode.climbs = false → s.ctl.pause = .empty)
    ∧ (s.ctl.mode = .climbing → s.ctl.pause = .empty)
    ∧ (s.ctl.mode = .paused → s.ctl.pause.isEmpty = false)
    ∧ (s.effectiveMode.climbs = true → s.ctl.pause.faultHold = s.holdPresent)
    ∧ (∀ k ∈ s.ctl.pause.segment, 2 ≤ k ∧ k ≤ 8)

/-- The entry checks hold: below the program top in STANDING, CLIMBING and PAUSED, and no segment waited
at without its SEGMENT ENTRY in CLIMBING and PAUSED (R10, R11). -/
abbrev EntryLaw (s : State) : Prop :=
  (s.ctl.mode.works = true → atTop s = false)
    ∧ (s.ctl.mode.climbs = true → s.ctl.pause.segment.isSome = true ∨ waitingSegment s = none)

/-- The plan record: blank outside CLIMBING and PAUSED, a planned rise of 0 or from S_min to S_nom, and
as a receiver works it out of the other fields (R21, R22, R38, R203). The cycle timer runs in CLIMBING
and PAUSED unless an expiry is held (R85). -/
abbrev PlanLaw (s : State) : Prop :=
  let p := s.plan.last
  (s.ctl.mode.climbs = false → p = .blank)
    ∧ (p.cause = .none → p = .blank)
    ∧ (p.cause ≠ .none →
        (p.candidate.any fun v => decide (v ≤ s.setup.strokeNominal)) = true
          ∧ (p.segment.any fun k => decide (1 ≤ k) && decide (k ≤ 8)) = true)
    ∧ (p.rise = 0 ∨ (s.setup.strokeMin ≤ p.rise ∧ p.rise ≤ s.setup.strokeNominal))
    ∧ p.rise = (if p.cause = .none ∨ p.cause = .held ∨ p.belowMin = true then 0
        else p.candidate.getD 0)
    ∧ (∀ t ∈ p.targets.toList, t ≤ 300)
    ∧ s.plan.ramp ≤ 255
    ∧ s.seq.cycleTimer.isSome = (s.ctl.mode.climbs && !s.seq.expiryHeld)
    ∧ (s.seq.expiryHeld = true → s.ctl.mode.climbs = true)

/-- One channel's valves, dead times and timers (R82, R88, R91, R92): at most one valve stands open, it
stands open only in its own state, and T_dead had run since the other closed. -/
abbrev ChannelValves (r : SetupRecord) (now : Nat) (c : Channel) : Prop :=
  ¬(c.pressureOpen = true ∧ c.dumpOpen = true)
    ∧ (c.pressureOpen = true → c.state = .extend ∧ c.dumpClosed + r.deadTime ≤ now)
    ∧ (c.dumpOpen = true → c.state = .retract ∧ c.pressureClosed + r.deadTime ≤ now)
    ∧ (c.state = .extend →
        c.deferred = if c.pressureOpen then none else some (c.dumpClosed + r.deadTime))
    ∧ (c.state = .retract →
        c.deferred = if c.dumpOpen then none else some (c.pressureClosed + r.deadTime))
    ∧ (c.state ≠ .extend → c.state ≠ .retract → c.deferred = none)
    ∧ c.strokeTimer.isSome = (c.pressureOpen || c.dumpOpen || c.state == .hold)
    ∧ c.pressureClosed ≤ now ∧ c.dumpClosed ≤ now

/-- One channel's ranges (R81) and marks: a start is pending only under a target above 0, at REST or in a
homing retraction met by the plan (R87, R99, R103, R105). -/
abbrev ChannelRanges (c : Channel) : Prop :=
  c.climbed ≤ Config.heightMax ∧ c.target ≤ 300 ∧ c.xPeak ≤ 320
    ∧ (∀ v ∈ c.x, v ≤ 320) ∧ (c.readingValid = true → c.x.isSome = true)
    ∧ (c.startPending = true → (c.state = .rest ∨ c.state = .retract) ∧ 0 < c.target)

/-- Every channel keeps the valve law of R82. -/
abbrev ValveLaw (s : State) : Prop := ∀ ch ∈ Ch.all, ChannelValves s.setup s.now (s.chan ch)

/-- One channel: OFF exactly outside the committed CH_ACTIVE (R81, R105), no stroke before the end of the
join (R3), none in REDUCED (R101), INHIBITED exactly while the input is asserted unless in FAULT
(R99). -/
abbrev ChannelInOrder (s : State) (ch : Ch) (c : Channel) : Prop :=
  c.isActive = (s.join.committed.any fun r => r.active ch)
    ∧ ChannelRanges c
    ∧ (s.join.state ≠ .done → c.state ≠ .extend ∧ c.state ≠ .hold ∧ c.startPending = false)
    ∧ (s.ctl.mode = .reduced → c.moving = false ∧ c.startPending = false)
    ∧ (s.inhibitInput = true → c.state = .off ∨ c.state = .fault ∨ c.state = .inhibited)
    ∧ (s.inhibitInput = false → c.state ≠ .inhibited)

/-- Every channel is in order. -/
abbrev ChannelLaw (s : State) : Prop := ∀ ch ∈ Ch.all, ChannelInOrder s ch (s.chan ch)

/-- The station height is the mean of the active channels' climbed heights once it is set, and 0 with
every climbed height before (R94, R105). -/
abbrev HeightLaw (s : State) : Prop :=
  (s.heightSet = true → s.seq.height = meanOf (activeHeights s.seq.chans))
    ∧ (s.heightSet = false →
        s.seq.height = 0 ∧ ∀ ch ∈ Ch.all, (s.chan ch).climbed = 0)
    ∧ s.seq.height ≤ Config.heightMax ∧ s.seq.strokeCount < 65536

/-- The stack: ordered, no layer at or below the station height, and nothing held before the height is
set (R47, R48, R50, R56, R63). -/
abbrev StackLaw (s : State) : Prop :=
  LayersOrdered s.stack.layers
    ∧ (∀ l ∈ s.stack.layers, s.seq.height < l.top)
    ∧ (s.heightSet = false → s.stack.layers = [] ∧ s.stack.concreteTop = none)
    ∧ (∀ t ∈ s.stack.concreteTop, t ≤ 2015000) ∧ s.stack.nextSeq < 65536

/-- A temperature lies in the range of R69. -/
def temperatureInRange (t : Int) : Bool := decide (-450 ≤ t) && decide (t ≤ 1050)

/-- The cure integrator's ranges (R66, R69, R70, R79); no temperature is in use and the rate is 0 while
TEMPERATURE is present (R79). -/
abbrev CureLaw (s : State) : Prop :=
  s.cure.clock < 65536 ∧ s.cure.missed ≤ 255 ∧ s.cure.rate ≤ 2400
    ∧ s.cure.sampleTimer.isSome = true
    ∧ (∀ t ∈ s.cure.lastTemp, temperatureInRange t = true)
    ∧ (∀ t ∈ s.cure.inUse, temperatureInRange t = true)
    ∧ (s.isPresent .temperature = true → s.cure.inUse = none ∧ s.cure.rate = 0)

/-- The gate is open exactly in OPEN, a station asks or feeds only while feeding is allowed, and the two
feed timers run by the feed state (R110, R111). -/
abbrev GateLaw (s : State) : Prop :=
  s.feed.gate = (s.feed.state == .opened)
    ∧ (s.feed.state ≠ .idle → feedAllowed s = true)
    ∧ (s.feed.settled = true → s.feed.state = .asking)
    ∧ s.feed.settleTimer.isSome = (s.feed.state == .asking && !s.feed.settled)
    ∧ s.feed.feedTimer.isSome = (s.feed.state == .opened)

/-- The held depth lies from 0 to F, and a valid reading has one (R106, R109, R111). -/
abbrev DepthLaw (s : State) : Prop :=
  (∀ d ∈ s.feed.depth, d ≤ s.setup.formHeight)
    ∧ (s.feed.probeValid = true → s.feed.depth.isSome = true)
    ∧ s.feed.probeTimer.isSome = true

/-- The numbers of the roster other than the station's own, in rising order (R125). -/
def rosterNumbers (roster own : Nat) : List Nat :=
  ((List.range roster).map (· + 1)).filter (· != own)

/-- One peer record (R126, R128, R131): one heard since the reset carries a stroke count and a feed
state. -/
abbrev PeerInRange (p : Peer) : Prop :=
  p.miss ≤ 8 ∧ (p.liveness = .live → p.miss < 8) ∧ (p.heard = true → p.liveness = .live)
    ∧ (p.liveness = .unheard → p = State.resetPeer p.number)
    ∧ (p.liveness ≠ .unheard → p.strokeCount.isSome = true ∧ p.feed.isSome = true)
    ∧ (∀ h ∈ p.height, h ≤ Config.heightMax) ∧ (∀ n ∈ p.strokeCount, n < 65536)
    ∧ (∀ d ∈ p.deficit, d ≤ 15000) ∧ (∀ m ∈ p.topMaturity, m ≤ 2000)

/-- The peer table holds records for the roster numbers other than the own, and the link list is the one
of the committed record (R125, R130, R134). -/
abbrev PeerLaw (s : State) : Prop :=
  s.peers.records.map Peer.number = rosterNumbers s.setup.roster s.join.ownNumber
    ∧ (∀ p ∈ s.peers.records, PeerInRange p)
    ∧ s.peers.links = ((s.join.committed.map (linkList s.join.ownNumber)).getD [])
    ∧ s.peers.dupMiss ≤ 8
    ∧ (s.isPresent .duplicateNumber = true → s.peers.dupMiss < 8)

/-- NEIGHBOUR LOST is present while a linked neighbour is unavailable, PEER SILENT while a roster number
outside the link list has a SILENT record (R135). -/
abbrev AvailabilityLaw (s : State) : Prop :=
  s.isPresent .neighbourLost = !allAvailable s ∧ s.isPresent .peerSilent = peerSilent s

/-- The line interface: at most one slot is SENDING, a frame is under way exactly then, the line is not
idle and the station not in REDUCED then, and only a station in SETUP holds a SETUP REQUEST (R141, R147,
R148, R153, R154, R159). -/
abbrev LineLaw (s : State) : Prop :=
  ¬(s.line.report.isSending = true ∧ s.line.setupRequest = .sending)
    ∧ s.line.frame.isSome = attempting s
    ∧ (attempting s = true → s.line.idle = false ∧ s.ctl.mode ≠ .reduced)
    ∧ (s.line.setupRequest = .pending → s.effectiveMode = .setup)
    ∧ s.line.errors ≤ Config.errorLimit ∧ s.line.muteTimer.isSome = s.line.muted
    ∧ s.line.reportTimer.isSome = true ∧ s.line.sender = s.join.ownNumber

/-- The join unit's stages, timers and states move together with the mode (R161, R164, R166, R169, R173,
R179, R185). -/
abbrev JoinLaw (s : State) : Prop :=
  s.join.ownNumber ≤ 59
    ∧ s.join.committed.isSome = (s.join.stage == .committed)
    ∧ (s.join.kind != .none) = (s.join.stage == .committed)
    ∧ (s.join.state != .none) = (s.join.stage == .committed)
    ∧ s.join.windowTimer.isSome = (s.join.stage == .window)
    ∧ s.join.requestTimer.isSome = (s.join.stage == .waiting || s.join.stage == .window)
    ∧ s.join.listenTimer.isSome = (s.join.state == .listening)
    ∧ (s.effectiveMode == .setup) = (s.join.stage == .waiting || s.join.stage == .window)
    ∧ (s.effectiveMode == .locked) = (s.join.stage == .closed)
    ∧ (s.effectiveMode == .joining)
        = (s.join.state == .listening || s.join.state == .waitingForLink)
    ∧ s.effectiveMode.retainable = (s.join.state == .done)
    ∧ s.sup.armed = (s.join.state == .done)
    ∧ s.join.restoredMode.isSome = (s.join.kind == .afterRestore)
    ∧ (s.join.ownNumber = 0 → s.join.stage = .closed)
    ∧ s.join.itemsReceived ≤ 255

/-- The out-of-range marks follow the staged values, and a committed record passed the commit (R165,
R167, R168). -/
abbrev SetupLaw (s : State) : Prop :=
  s.join.marks.toList
      = (List.range 87).map (fun i => !itemInRange (i + 1) (s.join.staged.item (i + 1)))
    ∧ ∀ r ∈ s.join.committed, GoodRecord s.join.ownNumber r

/-- Nothing is latched in STANDING, CLIMBING and PAUSED; before a commit only HALT LOOP and DUPLICATE
NUMBER can be (R6, R15, R16, R181, R185). -/
abbrev LatchLaw (s : State) : Prop :=
  (s.effectiveMode.works = true → s.sup.latched = [])
    ∧ LatchedSet s.setup s.sup.latched
    ∧ (s.join.committed = none → ∀ c ∈ s.sup.latched, c = .haltLoop ∨ c = .duplicateNumber)

/-- The station pulls the halt loop if and only if a TRIP-class entry is latched (R191). -/
abbrev DriveLaw (s : State) : Prop := s.sup.drive = s.tripLatched

/-- HALT LOOP is present while the loop is sensed asserted and is latched then; it has a cause exactly
while it is latched, and a clear waits only for a latched HALT LOOP (R192, R193). -/
abbrev HaltLaw (s : State) : Prop :=
  s.isPresent .haltLoop = s.sup.loopSensed
    ∧ (s.sup.loopSensed = true → s.isLatched .haltLoop = true)
    ∧ s.sup.haltCause.isSome = s.isLatched .haltLoop
    ∧ s.sup.clearTimer.isSome = s.sup.clearPending
    ∧ (s.sup.clearPending = true → s.isLatched .haltLoop = true)

/-- The presence marks are distinct; SUPPLY LOW, INHIBIT and CLOCK FALLBACK stand with the supply, the
input and the time base (R181, R189, R194, R195), and no EXTEND TIMEOUT outlasts its stroke (R186). -/
abbrev PresenceLaw (s : State) : Prop :=
  s.sup.present.Nodup
    ∧ s.isPresent .supplyLow = s.sup.supplyLow
    ∧ s.isPresent .inhibit = s.inhibitInput
    ∧ s.isPresent .clockFallback = !s.sup.onCrystal
    ∧ (s.sup.crystalTimer.isSome = true → s.sup.onCrystal = false)
    ∧ ∀ ch ∈ Ch.all, extendTimeoutOver s (.extendTimeout ch) = true →
        s.isPresent (.extendTimeout ch) = false

/-- What an image keeps lies in its ranges, valid or not: it is always the image of a station that was
in order (R170, R171). -/
abbrev KeptInOrder (i : Image) : Prop :=
  1 ≤ i.kept.number ∧ i.kept.number ≤ 59 ∧ GoodRecord i.kept.number i.kept.setup
    ∧ i.kept.mode.retainable = true
    ∧ (∀ h ∈ i.kept.climbed.toList, h ≤ Config.heightMax) ∧ i.kept.strokeCount < 65536
    ∧ LayersOrdered i.kept.layers ∧ ReleaseSet i.kept.released
    ∧ LatchedSet i.kept.setup i.kept.latched ∧ i.generation < 256

/-- While a retained record is kept, the image in use holds the station as it stands (R171, R179). -/
abbrev RecordLaw (s : State) : Prop :=
  (∀ i ∈ s.join.imageA, KeptInOrder i) ∧ (∀ i ∈ s.join.imageB, KeptInOrder i)
    ∧ (recordable s = true →
        (usedImage s.join.imageA s.join.imageB).map Image.kept = some (keptOf s))

/-- A sound state: every law holds. -/
structure Sound (s : State) : Prop where
  mode : ModeLaw s
  pause : PauseLaw s
  entry : EntryLaw s
  plan : PlanLaw s
  valves : ValveLaw s
  channels : ChannelLaw s
  height : HeightLaw s
  stack : StackLaw s
  cure : CureLaw s
  gate : GateLaw s
  depth : DepthLaw s
  peers : PeerLaw s
  availability : AvailabilityLaw s
  line : LineLaw s
  join : JoinLaw s
  setup : SetupLaw s
  latch : LatchLaw s
  drive : DriveLaw s
  halt : HaltLaw s
  presence : PresenceLaw s
  record : RecordLaw s

/-! ### What a report can carry -/

/-- Every field of a report lies in the range that R202 gives it, and the stack fields are absent with
an empty stack (R203). -/
abbrev ReportInRange (r : Report) : Prop :=
  (∀ k ∈ r.segmentEntry, 2 ≤ k ∧ k ≤ 8) ∧ (∀ k ∈ r.segment, 1 ≤ k ∧ k ≤ 8)
    ∧ (∀ v ∈ r.stack, 1 ≤ v.depth ∧ v.depth ≤ 16 ∧ v.bottomMaturity ≤ 2000
        ∧ v.topMaturity ≤ 2000 ∧ v.topSeq < 65536 ∧ v.topAge < 65536)
    ∧ r.rateScale ≤ 150 ∧ (∀ h ∈ r.height, h ≤ 2000000) ∧ r.strokeCount < 65536
    ∧ (∀ v ∈ r.candidate, v ≤ 300) ∧ (∀ t ∈ r.temperature, -450 ≤ t ∧ t ≤ 1050)
    ∧ r.cureRate ≤ 2400 ∧ (∀ d ∈ r.deficit, d ≤ 15000) ∧ r.faults < 2 ^ 32

/-! ### Reading a result -/

/-- What becomes of a channel `c` whose start falls due at `now`: FAULT on an invalid reading, a skipped
start with the jack at or above the target, otherwise EXTEND with the pressure valve open once T_dead has
run since the dump valve closed (R88). -/
abbrev StartOutcome (r : SetupRecord) (now : Nat) (c d : Channel) : Prop :=
  if c.readingValid = false then
    d.state = .fault ∧ d.startPending = false ∧ d.pressureOpen = false ∧ d.dumpOpen = false
      ∧ d.climbed = c.climbed
  else if c.target ≤ c.x.getD 0 then d = { c with startPending := false }
  else if c.dumpClosed + r.deadTime ≤ now then
    d = { c with state := .extend, startPending := false, xPeak := c.x.getD 0, blind := false,
                 pressureOpen := true, deferred := none, strokeTimer := some (now + r.extendTime) }
  else
    d = { c with state := .extend, startPending := false, xPeak := c.x.getD 0, blind := false,
                 deferred := some (c.dumpClosed + r.deadTime), strokeTimer := none }

/-- A retraction begins: RETRACT with both valves closed until T_dead has run since the pressure valve
closed, and the dump valve open from then on (R82, R91, R92, R100, R102). -/
abbrev RetractionBegun (r : SetupRecord) (now : Nat) (blind : Bool) (d : Channel) : Prop :=
  d.state = .retract ∧ d.blind = blind ∧ d.pressureOpen = false
    ∧ (if d.pressureClosed + r.deadTime ≤ now then
        d.dumpOpen = true ∧ d.deferred = none ∧ d.strokeTimer = some (now + r.retractTime)
      else
        d.dumpOpen = false ∧ d.deferred = some (d.pressureClosed + r.deadTime)
          ∧ d.strokeTimer = none)

/-- A channel stands with both valves closed and its stroke timer stopped. -/
abbrev StandsShut (st : ChState) (d : Channel) : Prop :=
  d.state = st ∧ d.pressureOpen = false ∧ d.dumpOpen = false ∧ d.strokeTimer = none
    ∧ d.deferred = none

/-- A latch acts on channel `c` at `now`: an extension is cut to HOLD with the pressure valve closed and T_dead
running, whether its opening was still deferred or not, and a start pending is cancelled; nothing else of the
channel changes (R98). -/
abbrev CutByLatch (r : SetupRecord) (now : Nat) (c d : Channel) : Prop :=
  d.pressureOpen = false
    ∧ d = if c.state = .extend then
        { c with state := .hold, startPending := false, pressureOpen := false,
                 pressureClosed := if c.pressureOpen = true then now else c.pressureClosed,
                 strokeTimer := some (now + r.deadTime), deferred := none }
      else { c with startPending := false }

/-- The blank timer at a command of moment `now`: T_blank runs from there where the gate closes and where the
last channel leaves EXTEND, HOLD and RETRACT, a T_blank of 0 ending at once; otherwise the timer is as it was
(R107). -/
abbrev BlankFollows (s t : State) (now : Nat) : Prop :=
  let moves (c : Channel) : Prop := c.state ∈ [.extend, .hold, .retract]
  t.feed.blankTimer =
    if (s.feed.gate = true ∧ t.feed.gate = false)
        ∨ ((∃ ch ∈ Ch.all, moves (s.chan ch)) ∧ ∀ ch ∈ Ch.all, ¬ moves (t.chan ch)) then
      (if s.setup.blankTime = 0 then none else some (now + s.setup.blankTime))
    else s.feed.blankTimer

/-- The station admits itself or waits at an arrival or a sweep that leaves it in a mode that feeds: a
settled station in ASKING opens its gate where the gates known to be open and the askers that rank above it
are together fewer than G_max (R114, R115). -/
abbrev Admitted (s t : State) : Prop :=
  s.feed.state = .asking → s.feed.settled = true → t.ctl.mode.works = true →
    t.feed.state = if openPeers t + askersAbove t < s.setup.gateMax then .opened else .asking

/-- REJOIN leaves at an arrival or a sweep that finds every linked neighbour available, and with the whole
set where the station stops (R6, R9). -/
abbrev RejoinLeaves (s t : State) : Prop :=
  s.ctl.pause.rejoin = true →
    t.ctl.pause.rejoin = (t.effectiveMode.climbs && !allAvailable t)

/-- The records of the linked neighbours that are available (R135). -/
def availableOf (s : State) : List Peer :=
  s.peers.records.filter fun p =>
    s.peers.links.contains p.number && p.liveness == .live && p.height.isSome

/-- A join of state `s` has ended in state `t`, whose peer table decided it (R175 to R179): fresh, by
adoption or as restored. The station has left JOINING for the mode of R3 as its entry checks settle it, or in
REDUCED has that mode as its return mode (R17). -/
abbrev JoinEnded (s t : State) : Prop :=
  let r := s.setup
  let ps := availableOf t
  let climbed : Prop := ∃ p ∈ ps, p.strokeCount ≠ some 0 ∨ p.height ≠ some r.programStart
  let mean := (ps.map fun p => p.height.getD 0).sum / ps.length
  let least := ((ps.map fun p => p.topMaturity.getD 0).min?.getD 0) * 600
  let activeAt (h : Nat) : Prop := t.seq.height = h ∧ ∀ ch ∈ Ch.all,
    (t.chan ch).climbed = if (s.chan ch).isActive = true then h else (s.chan ch).climbed
  let stands : Mode := if t.sup.latched = [] then .standing else .stopped
  let outcome : Mode :=
    if s.join.kind = .afterRestore then
      (match s.join.restoredMode with
      | some .topped => .topped
      | some .stopped => .stopped
      | some .standing => stands
      | _ => if t.sup.latched = [] then .paused else .stopped)
    else stands
  t.join.state = .done ∧ t.join.listenTimer = none ∧ t.sup.armed = true ∧ t.cure = s.cure
    ∧ (s.join.kind = .afterCommit → s.peers.links = [] ∨ ¬ climbed →
        activeAt r.programStart ∧ t.seq.strokeCount = 0 ∧ t.stack.layers = [])
    ∧ (s.join.kind = .afterCommit → s.peers.links ≠ [] → climbed →
        activeAt mean ∧ t.seq.strokeCount = s.seq.strokeCount
          ∧ (∀ depth, s.feed.depth = some depth →
              t.stack.concreteTop = some (mean + r.formHeight - depth)
                ∧ t.stack.layers
                  = if depth < r.formHeight then
                      [{ seq := s.stack.nextSeq, bottom := mean, top := mean + r.formHeight - depth,
                         placed := s.cure.clock, maturity := least, adopted := true }]
                    else [])
          ∧ (s.feed.depth = none → t.stack.layers = [] ∧ t.stack.concreteTop = none))
    ∧ (s.join.kind = .afterRestore →
        t.seq.height = s.seq.height ∧ t.stack = s.stack ∧ t.seq.strokeCount = s.seq.strokeCount
          ∧ ∀ ch ∈ Ch.all, (t.chan ch).climbed = (s.chan ch).climbed)
    ∧ (s.ctl.mode = .reduced →
        t.ctl.mode = .reduced ∧ t.ctl.returnMode = some outcome
          ∧ t.ctl.pause = ⟨false, outcome == .paused && t.holdPresent,
              outcome == .paused && !allAvailable t, none⟩)
    ∧ (s.ctl.mode ≠ .reduced →
        t.ctl.returnMode = none
          ∧ t.ctl.mode = (if outcome.works = true ∧ atTop t = true then .topped
            else if outcome = .paused then
              (if t.ctl.pause = ⟨false, false, false, none⟩ then .climbing else .paused)
            else outcome)
          ∧ (t.ctl.mode.climbs = true → t.ctl.pause.operator = false
              ∧ t.ctl.pause.rejoin = !allAvailable t
              ∧ t.ctl.pause.faultHold = t.holdPresent ∧ t.ctl.pause.segment = waitingSegment t))

/-- A join that waits for a link ends at an arrival or a sweep that finds one available, and waits on
otherwise (R176). -/
abbrev WaitEnds (s t : State) : Prop :=
  s.join.state = .waitingForLink →
    (s.peers.links ≠ [] → availableOf t = [] → t.join.state = .waitingForLink ∧ t.ctl = s.ctl)
      ∧ (s.peers.links = [] ∨ availableOf t ≠ [] → JoinEnded s t)

/-- A state without the four items that a command may touch beside the effect a statement names: the
REPORT slot, the busy-line timer and the two retained images (R149, R171, R197). -/
def State.body (s : State) : State :=
  { s with
    line.report := .empty
    line.busyTimer := none
    join.imageA := none
    join.imageB := none }

end Sys2Proof.Machine

namespace Sys2Proof

/-- The commands that are resets. -/
def Instr.isReset : Instr → Bool
  | .powerOnReset _ _ => true
  | .brownOutReset _ _ _ => true
  | _ => false

end Sys2Proof
end

