-- ==== Sys2Proof/Certificates/Slice0/Obligations.lean ====
section
/-! DEFINITION. The statements for the provers, grouped as the spec's chapters are. A statement about a
command says that `exec` answers a next state and what that state holds; `Sound` (Sys2Proof/Safety.lean)
is its premise where it could fail only in states no run reaches, and is itself kept by every step. -/

open Sys2Proof Sys2Proof.Machine

/-! ### The queue and the resets -/

/-- A step with a command at the front of the queue runs that command on the state with the rest of the
queue. Every command answers a next state and leaves the queue as it stands, since no rule gives a command
without an outcome (notes/assumptions/23.md), and so does a step with an empty queue, where the station's
own events and time go on (notes/assumptions/2.md). -/
def Obligations.StepRunsFrontCommand : Prop :=
  ∀ (c : Instr) (s : State) (rest : List Instr),
    step { s with pending := c :: rest } = exec c { s with pending := rest }
      ∧ (∃ t, exec c s = .next t ∧ t.pending = s.pending)
      ∧ ∃ t, step { s with pending := [] } = .next t ∧ t.pending = []

/-- The state after a power-on reset is in order in every law. -/
def Obligations.ResetIsSound : Prop := Sound State.reset

/-- A power-on reset with a good strap, and a brown-out that finds no valid image of the strap's number, cut
a rewrite or not, put the station in SETUP under the strap's number with every item at its reset value and
nothing kept. The SETUP REQUEST slot is PENDING then and the busy-line timer stopped
(notes/assumptions/5.md); an inhibit input found asserted is INHIBIT's onset and requests an urgent report
(notes/assumptions/16.md). A strap of 0 or above 59 puts it in LOCKED under number 0, a power-on reset
without images and a brown-out with the image in use it found. -/
def Obligations.ResetTakesCourseByStrap : Prop :=
  ∀ (s : State) (strap : BitVec 6) (inhibit cut : Bool),
    (1 ≤ strap.toNat → strap.toNat ≤ 59 →
      let t : State :=
        { State.reset with
          strap := strap
          inhibitInput := inhibit
          peers.records := (rosterNumbers 59 strap.toNat).map State.resetPeer
          line.sender := strap.toNat
          line.report := if inhibit then .pending .urgent else .empty
          join.ownNumber := strap.toNat
          sup.present := if inhibit then [.clockFallback, .inhibit] else [.clockFallback]
          pending := s.pending }
      exec (.powerOnReset strap inhibit) s = .next t
        ∧ ((∀ i ∈ usedImage s.join.imageA s.join.imageB, i.kept.number ≠ strap.toNat) →
            exec (.brownOutReset strap inhibit cut) s = .next t))
      ∧ (strap.toNat = 0 ∨ 59 < strap.toNat →
          ∃ t u, exec (.powerOnReset strap inhibit) s = .next t
            ∧ exec (.brownOutReset strap inhibit cut) s = .next u
            ∧ t.ctl.mode = .locked ∧ u.ctl.mode = .locked
            ∧ t.join.ownNumber = 0 ∧ u.join.ownNumber = 0
            ∧ t.line.sender = 0 ∧ u.line.sender = 0
            ∧ t.join.stage = .closed ∧ u.join.stage = .closed
            ∧ t.join.requestTimer = none ∧ u.join.requestTimer = none
            ∧ t.line.setupRequest = .empty ∧ u.line.setupRequest = .empty
            ∧ t.line.report = (if inhibit then .pending .urgent else .empty)
            ∧ u.line.report = (if inhibit then .pending .urgent else .empty)
            ∧ t.join.imageA = none ∧ t.join.imageB = none
            ∧ usedImage u.join.imageA u.join.imageB = usedImage s.join.imageA s.join.imageB
            ∧ (cut = false →
                u.join.imageA = s.join.imageA ∧ u.join.imageB = s.join.imageB))

/-- A brown-out reset that finds a valid image of the strap's number loads it: the heights, the stroke
count, the layers above the restored station height with their placed minutes at 0, the release set, the
committed record, the link list and the latched set, and the station listens in JOINING with every valve
closed. So does one that cut a rewrite off, which leaves the image in use whole. The next sequence number
follows the image's highest layer, before the removal (notes/assumptions/24.md). JACK SPREAD is judged at
the restored heights; it and an inhibit input found asserted request an urgent report where they change the
fault set (notes/assumptions/16.md). -/
def Obligations.RestoreLoadsImage : Prop :=
  ∀ (s : State) (strap : BitVec 6) (inhibit cut : Bool) (i : Image),
    Sound s → 1 ≤ strap.toNat → strap.toNat ≤ 59 →
    usedImage s.join.imageA s.join.imageB = some i → i.kept.number = strap.toNat →
    ∃ t, exec (.brownOutReset strap inhibit cut) s = .next t
      ∧ t.ctl.mode = .joining ∧ t.ctl.pause = .empty ∧ t.ctl.released = i.kept.released
      ∧ t.ctl.rateScale = 100 ∧ t.ctl.feedHold = false ∧ t.ctl.refusal = none
      ∧ t.ctl.returnMode = none
      ∧ t.seq.chans.map Channel.climbed = i.kept.climbed
      ∧ t.seq.height = meanOf (activeHeights t.seq.chans)
      ∧ t.seq.strokeCount = i.kept.strokeCount
      ∧ t.seq.cycleTimer = none ∧ t.seq.expiryHeld = false
      ∧ (∀ ch : Ch, StandsShut
          (if i.kept.setup.active ch then (if inhibit then .inhibited else .rest) else .off)
          (t.chan ch))
      ∧ t.stack.layers
          = (i.kept.layers.map fun l => { l with placed := 0 }).dropWhile
              (fun l => decide (l.top ≤ t.seq.height))
      ∧ t.stack.concreteTop = none ∧ t.stack.reckoning = false
      ∧ t.stack.nextSeq
          = ((i.kept.layers.getLast?.map fun l => (l.seq + 1) % 65536).getD 0)
      ∧ t.join.committed = some i.kept.setup ∧ t.join.stage = .committed
      ∧ t.join.kind = .afterRestore ∧ t.join.state = .listening
      ∧ t.join.listenTimer = some (i.kept.setup.missLimit * i.kept.setup.reportPeriod)
      ∧ t.join.restoredMode = some i.kept.mode
      ∧ (cut = false → t.join.imageA = s.join.imageA ∧ t.join.imageB = s.join.imageB)
      ∧ usedImage t.join.imageA t.join.imageB = some i
      ∧ t.peers.links = linkList strap.toNat i.kept.setup
      ∧ (∀ p ∈ t.peers.records, p = State.resetPeer p.number)
      ∧ i.kept.latched <+: t.sup.latched ∧ t.sup.drive = t.tripLatched
      ∧ (t.isPresent .jackSpread = true ↔
          ∃ c ∈ Ch.all, ∃ d ∈ Ch.all, i.kept.setup.active c = true ∧ i.kept.setup.active d = true
            ∧ i.kept.setup.spreadMax < i.kept.climbed.get c - i.kept.climbed.get d)
      ∧ t.isPresent .inhibit = inhibit
      ∧ t.sup.armed = false ∧ t.line.setupRequest = .empty
      ∧ t.line.report
          = (if inhibit = true
                ∨ (t.isPresent .jackSpread = true ∧ Cond.jackSpread ∉ i.kept.latched) then
              .pending .urgent
            else .empty)

/-- Every reset, of whatever kind and course, puts the cure integrator, the feed controller and the plan
at the values of their tables, whatever the retained record holds, and the time base on the internal
oscillator. The model's own clock starts again at 0 (notes/assumptions/1.md). -/
def Obligations.EveryResetClearsCureAndFeed : Prop :=
  ∀ (c : Instr) (s : State), c.isReset = true → ∃ t, exec c s = .next t
    ∧ t.cure = { clock := 0, sampleTimer := some 60000, lastTemp := none, missed := 0, rate := 0,
                 inUse := none }
    ∧ t.feed = { state := .idle, settled := false, settleTimer := none, feedTimer := none,
                 gate := false, depth := none, blankTimer := none, probeValid := false,
                 probeTimer := some 1000 }
    ∧ t.plan = { ramp := 0, last := .blank } ∧ t.now = 0
    ∧ t.isPresent .temperature = false ∧ t.isPresent .probe = false
    ∧ t.isPresent .feedTimeout = false
    ∧ t.sup.onCrystal = false ∧ t.isPresent .clockFallback = true

/-! ### What every step keeps -/

/-- Every step keeps the mode, the pause-cause set and the entry checks in order. -/
def Obligations.StepKeepsModesInOrder : Prop :=
  ∀ s t : State, Sound s → step s = .next t → ModeLaw t ∧ PauseLaw t ∧ EntryLaw t

/-- Every step keeps the plan record and the cycle timer in order, and the cure integrator's and the
probe's values in their ranges. -/
def Obligations.StepKeepsPlanAndConcrete : Prop :=
  ∀ s t : State, Sound s → step s = .next t → PlanLaw t ∧ CureLaw t ∧ DepthLaw t

/-- Every step keeps the law of the valves: never both open, and each opened only once T_dead had run
since the other closed. -/
def Obligations.StepKeepsValveLaw : Prop :=
  ∀ s t : State, Sound s → step s = .next t → ValveLaw t

/-- Every step keeps the channels and the station height in order. -/
def Obligations.StepKeepsChannelsInOrder : Prop :=
  ∀ s t : State, Sound s → step s = .next t → ChannelLaw t ∧ HeightLaw t

/-- Every step keeps the layer stack in order: at most 16 layers, rising tops, each layer on the one
below, none at or below the station height, maturities not rising upward. A layer's bottom may lie above
the 2,000,000 of R47's range: the model's choice (notes/assumptions/25.md). -/
def Obligations.StepKeepsStackOrder : Prop :=
  ∀ s t : State, Sound s → step s = .next t → StackLaw t

/-- Every step keeps the gate law: the gate is open exactly in OPEN, and a station asks or feeds only
while feeding is allowed. -/
def Obligations.StepKeepsGateLaw : Prop :=
  ∀ s t : State, GateLaw s → step s = .next t → GateLaw t

/-- Every step keeps the peer table's keys and ranges, the link list, and NEIGHBOUR LOST and PEER SILENT
as the records stand. -/
def Obligations.StepKeepsPeerTable : Prop :=
  ∀ s t : State, Sound s → step s = .next t → PeerLaw t ∧ AvailabilityLaw t

/-- Every step keeps the transmit slots, the mute and the error count in order, and no attempt under way
in REDUCED. -/
def Obligations.StepKeepsLineInterface : Prop :=
  ∀ s t : State, Sound s → step s = .next t → LineLaw t

/-- Every step keeps the join unit's stages, timers and states together with the mode, the out-of-range
marks with the staged values, and a committed record as it is until a reset. -/
def Obligations.StepKeepsJoinUnit : Prop :=
  ∀ s t : State, Sound s → step s = .next t → JoinLaw t ∧ SetupLaw t
    ∧ (∀ r ∈ s.join.committed, (∀ c ∈ s.pending.head?, c.isReset = false) →
        t.join.committed = some r)

/-- Every step keeps nothing latched in STANDING, CLIMBING and PAUSED, the halt drive pulling if and only
if a TRIP-class entry is latched, and HALT LOOP latched while the loop is sensed asserted. -/
def Obligations.StepKeepsLatchesAndDrive : Prop :=
  ∀ s t : State, Sound s → step s = .next t → LatchLaw t ∧ DriveLaw t ∧ HaltLaw t

/-- Every step keeps the presence of SUPPLY LOW, INHIBIT and CLOCK FALLBACK with what they stand for, and
no EXTEND TIMEOUT past its stroke. -/
def Obligations.StepKeepsPresence : Prop :=
  ∀ s t : State, Sound s → step s = .next t → PresenceLaw t

/-- Every step keeps the retained record current: from the end of the first join on, the image in use
holds the station as it stands. -/
def Obligations.StepKeepsRetainedRecord : Prop :=
  ∀ s t : State, Sound s → step s = .next t → RecordLaw t

/-! ### What only some commands may change -/

/-- Outside resets a channel's climbed height never falls once the join has ended. -/
def Obligations.ClimbedHeightNeverFalls : Prop :=
  ∀ (c : Instr) (s : State), Sound s → s.join.state = .done → c.isReset = false →
    ∃ t, exec c s = .next t ∧ ∀ ch : Ch, (s.chan ch).climbed ≤ (t.chan ch).climbed

/-- Outside resets an entry leaves the latched set only at a CLEAR, by command or local, except a HALT
LOOP that was clear pending at the release of the loop. -/
def Obligations.OnlyClearUnlatches : Prop :=
  ∀ (c : Instr) (s : State), c.isReset = false →
    (∀ sender target argument, c ≠ .clear sender target argument) → (∀ low, c ≠ .localClear low) →
    ∃ t, exec c s = .next t ∧ ∀ e ∈ s.sup.latched, e ∈ t.sup.latched
      ∨ (e = .haltLoop ∧ c = .haltLoopSensedReleased ∧ s.sup.clearPending = true)

/-- Outside resets and the two events that raise a plan event, no command changes a channel's target, and
the plan record stays whole or is cleared whole. -/
def Obligations.PlanHoldsThroughCycle : Prop :=
  ∀ (c : Instr) (s : State), c.isReset = false → c ≠ .cycleTimerExpiry → c ≠ .cycleCompletion →
    ∃ t, exec c s = .next t ∧ (∀ ch : Ch, (t.chan ch).target = (s.chan ch).target)
      ∧ (t.plan.last = s.plan.last ∨ t.plan.last = .blank)

/-! ### The rise computation and the cycle -/

/-- A plan event's record: the candidate is the least of the limits present, STROKE MAX among them; in
CLIMBING the planned rise follows by the minimum-stroke rule and the cause is the first limit at the
candidate; in PAUSED the rise is 0, the cause HELD and every target 0. -/
def Obligations.PlanChoosesRise : Prop :=
  ∀ s : State, s.ctl.mode = .climbing ∨ s.ctl.mode = .paused →
    let ls := limits (raiseRamp s)
    let p := (planEvent s).plan.last
    (ls.map Prod.fst).Sublist
        [.segment, .level, .deck, .exit, .fill, .ramp, .program, .strokeMax]
      ∧ (.strokeMax, s.setup.strokeNominal) ∈ ls
      ∧ ∃ v, p.candidate = some v ∧ (∃ l ∈ ls, l.2 = v) ∧ (∀ l ∈ ls, v ≤ l.2)
        ∧ v ≤ s.setup.strokeNominal
        ∧ (s.ctl.mode = .climbing →
            (s.setup.strokeMin ≤ v → p.rise = v ∧ p.belowMin = false)
              ∧ (v = 0 → p.rise = 0 ∧ p.belowMin = false)
              ∧ (0 < v → v < s.setup.strokeMin → p.rise = 0 ∧ p.belowMin = true)
              ∧ (p.rise = 0 ∨ (s.setup.strokeMin ≤ p.rise ∧ p.rise ≤ s.setup.strokeNominal))
              ∧ (∀ l ∈ ls, p.rise ≤ l.2)
              ∧ ∃ before after, ls = before ++ (p.cause, v) :: after ∧ ∀ l ∈ before, l.2 ≠ v)
        ∧ (s.ctl.mode = .paused →
            p.rise = 0 ∧ p.cause = .held ∧ p.belowMin = false ∧ p.targets = ⟨0, 0, 0, 0⟩)

/-- Each limit is worked from its own source, exactly and clamped at 0 from below, and RAMP and LEVEL are
absent exactly with RAMP_STEP 0 and an empty link list. The rate and the lead are those of the segment
that holds the station height, and the exit limit is the top of the mature run, or the station height where
the run is empty. -/
def Obligations.LimitsFromTheirSources : Prop :=
  ∀ s : State,
    let r := s.setup
    let h : Int := s.seq.height
    let k := currentSegment r s.seq.height
    let ls := limits s
    let held (n : Nat) : Prop :=
      n ≤ r.segCount ∧ r.segHold n = true ∧ n ∉ s.ctl.released
    ((.program, r.segRate k * s.ctl.rateScale / 100 * r.cycleTime / 360) ∈ ls)
      ∧ (∀ rate scale cycle : Nat, rate ≤ 600 → scale ≤ 150 → cycle ≤ 900 →
          programLimit rate scale cycle ≤ programLimit 600 150 900)
      ∧ programLimit 600 150 900 = 2250
      ∧ (∀ v, (.ramp, v) ∈ ls ↔ r.rampStep ≠ 0 ∧ v = r.rampStep * s.plan.ramp)
      ∧ (∀ v, (.level, v) ∈ ls ↔
          s.peers.links ≠ []
            ∧ (v : Int) = (if allAvailable s = true then
                max 0 (((linkedHeights s).min?.getD 0 : Nat) + (r.segLead k : Int) - h) else 0))
      ∧ (∀ v, (.deck, v) ∈ ls ↔
          (v : Int) = max 0 ((deckFloor s : Int) + r.deckSpread - h))
      ∧ deckFloor s ≤ s.seq.height ∧ (∀ x ∈ liveHeights s, deckFloor s ≤ x)
      ∧ (deckFloor s = s.seq.height ∨ deckFloor s ∈ liveHeights s)
      ∧ (∀ v, (.deck, v) ∈ ls → v ≤ r.deckSpread)
      ∧ (∀ v, (.exit, v) ∈ ls ↔ (v : Int) = max 0 ((exitLimit s : Int) - h))
      ∧ (∀ run rest, s.stack.layers = run ++ rest → (∀ l ∈ run, r.nat 43 * 600 ≤ l.maturity) →
          (∀ l ∈ rest.head?, l.maturity < r.nat 43 * 600) →
          exitLimit s = (match run.getLast? with
            | some l => l.top
            | none => s.seq.height))
      ∧ (∀ v, (.fill, v) ∈ ls ↔
          (v : Int) = (if s.stack.layers = [] then 0 else
            match s.stack.concreteTop with
            | some top => max 0 ((top : Int) - r.concreteMin - h)
            | none => 0))
      ∧ (∀ v, (.segment, v) ∈ ls ↔
          (v : Int) = (match heldStart s with
            | some start => max 0 (min ((start : Int) - h) ((r.programTop : Int) - h))
            | none => max 0 ((r.programTop : Int) - h)))
      ∧ (∀ start, heldStart s = some start ↔
          ∃ n ∈ [2, 3, 4, 5, 6, 7, 8], held n ∧ start = r.segStart n
            ∧ ∀ m ∈ [2, 3, 4, 5, 6, 7, 8], m < n → ¬ held m)
      ∧ (s.seq.height < r.programStart → k = 1)
      ∧ (r.programStart ≤ s.seq.height → s.seq.height < r.programTop →
          1 ≤ k ∧ k ≤ r.segCount ∧ r.segStart k ≤ s.seq.height
            ∧ s.seq.height < r.segStart k + r.segLen k)

/-- An expiry of the cycle timer that finds every active channel at REST with no start pending, and a
cycle completion, raise the plan event: the plan is made from the state as it stands, the timer restarts
for Tc, the stroke count rises where the rise is above 0, and each active channel takes its target: the
rise with its clamped trim, or 0. An expiry that finds a channel out of REST or with its start pending is
held. The expiry is taken at its moment of the model's clock (notes/assumptions/1.md). -/
def Obligations.CycleExpiryPlans : Prop :=
  ∀ (s : State) (d : Nat), Sound s → s.ctl.mode.climbs = true →
    let now := max s.now d
    let planned (u t : State) : Prop :=
      let p := t.plan.last
      let r := s.setup
      p = planOf (raiseRamp u) ∧ t.now = u.now
        ∧ t.plan.ramp
            = (if s.ctl.mode = .climbing then min 255 (s.plan.ramp + 1) else s.plan.ramp)
        ∧ t.seq.strokeCount
            = (if 0 < p.rise then (s.seq.strokeCount + 1) % 65536 else s.seq.strokeCount)
        ∧ t.seq.cycleTimer = some (u.now + r.cycleTime * 1000) ∧ t.seq.expiryHeld = false
        ∧ t.seq.height = s.seq.height
        ∧ (∀ ch ∈ Ch.all, (s.chan ch).isActive = true →
            (t.chan ch).climbed = (s.chan ch).climbed
              ∧ (t.chan ch).target = p.targets.get ch
              ∧ ((t.chan ch).target : Int)
                  = (if p.rise = 0 then 0 else
                      max 0 (min 300 ((p.rise : Int)
                        + max (-(r.trimMax : Int)) (min r.trimMax
                            ((s.seq.height : Int) - (s.chan ch).climbed)))))
              ∧ ((t.chan ch).target = 0 →
                (t.chan ch).state = .rest ∧ (t.chan ch).startPending = false
                  ∧ (t.chan ch).pressureOpen = (s.chan ch).pressureOpen))
        ∧ (∀ ch ∈ Ch.all, (s.chan ch).isActive = false → t.chan ch = s.chan ch)
        ∧ t.ctl = s.ctl ∧ t.stack = s.stack ∧ t.cure = s.cure ∧ t.feed = s.feed
        ∧ t.peers = s.peers ∧ t.sup = s.sup ∧ t.line.report = s.line.report
    (s.seq.cycleTimer = some d → allAtRest s = true →
        ∃ t, exec .cycleTimerExpiry s = .next t ∧ planned { s with now := now } t)
      ∧ (s.seq.expiryHeld = true → allAtRest s = true →
          ∃ t, exec .cycleCompletion s = .next t ∧ planned s t)
      ∧ (s.seq.cycleTimer = some d → allAtRest s = false →
          ∃ t, exec .cycleTimerExpiry s = .next t
            ∧ t.body = { s with now := now, seq.cycleTimer := none, seq.expiryHeld := true }.body
            ∧ t.line.report = s.line.report)

/-- The starts of a cycle fall due at the plan event, raised by the cycle timer's expiry or by a cycle
completion: together with BANKED off; with BANKED on those of bank A, and bank B's wait for the moment at
which every active bank A channel is in REST with no start pending, which may be the plan event itself. A
start that finds the last reading invalid latches no entry of its own (notes/assumptions/21.md). -/
def Obligations.StartsFallDueByBank : Prop :=
  ∀ (s : State) (d : Nat), Sound s →
    let started (now : Nat) (t : State) : Prop :=
      t.sup = s.sup ∧ ∀ ch ∈ Ch.all, (s.chan ch).isActive = true → 0 < (t.chan ch).target →
        let marked : Channel := { s.chan ch with target := (t.chan ch).target, startPending := true }
        if s.setup.banked = true ∧ ch.bankA = false ∧ bankAReady t = false then t.chan ch = marked
        else StartOutcome s.setup now marked (t.chan ch)
    (s.ctl.mode.climbs = true → allAtRest s = true →
        (s.seq.expiryHeld = true → ∃ t, exec .cycleCompletion s = .next t ∧ started s.now t)
          ∧ (s.seq.cycleTimer = some d →
            ∃ t, exec .cycleTimerExpiry s = .next t ∧ started (max s.now d) t))
      ∧ (∀ u : State, bankAReady u = true ↔
          ∀ ch ∈ [Ch.c1, Ch.c3], (u.chan ch).state = .off
            ∨ ((u.chan ch).state = .rest ∧ (u.chan ch).startPending = false))
      ∧ (s.setup.banked = true → bankAReady s = true → bankBWaiting s = true →
          ∃ t, exec .bankBStart s = .next t
            ∧ t.chan .c1 = s.chan .c1 ∧ t.chan .c3 = s.chan .c3
            ∧ (∀ ch ∈ [Ch.c2, Ch.c4],
                if (s.chan ch).state = .rest ∧ (s.chan ch).startPending = true then
                  StartOutcome s.setup s.now (s.chan ch) (t.chan ch)
                else t.chan ch = s.chan ch)
            ∧ t.now = s.now ∧ t.ctl = s.ctl ∧ t.plan = s.plan ∧ t.stack = s.stack
            ∧ t.cure = s.cure ∧ t.peers = s.peers ∧ t.sup = s.sup
            ∧ t.seq.height = s.seq.height ∧ t.seq.strokeCount = s.seq.strokeCount)

/-! ### The jack channels -/

/-- A valid reading at or above the target ends an extension in HOLD with the pressure valve closed, one
at or below X_home ends a retraction that is not blind in REST with the dump valve closed, the first one
after a reset decides the homing, though in REDUCED no valve opens for it (R101, notes/assumptions/13.md),
and any other only becomes the channel's reading; every other channel and block stays as it is, the line
interface but for a requested report, and the feed controller but for the blank timer, which starts where the
last moving channel comes to rest. An OFF channel is not read. -/
def Obligations.ValidReadingActsByState : Prop :=
  ∀ (s : State) (ch : Ch) (v : Nat), Sound s → v ≤ 320 →
    let c := s.chan ch
    let read : Channel := { c with x := some v, readingValid := true }
    let peaked : Channel := { read with xPeak := max c.xPeak v }
    let d : Channel :=
      if c.state = .extend then
        (if c.pressureOpen = true ∧ c.target ≤ v then
          { peaked with state := .hold, pressureOpen := false, pressureClosed := s.now,
                        strokeTimer := some (s.now + s.setup.deadTime), deferred := none }
        else peaked)
      else if c.state = .hold then peaked
      else if c.state = .retract ∧ c.dumpOpen = true ∧ c.blind = false ∧ v ≤ s.setup.home then
        { read with state := .rest, dumpOpen := false, dumpClosed := s.now, strokeTimer := none,
                    deferred := none, homing := .none }
      else read
    ∃ t, exec (.transducerReading ch (.value v)) s = .next t
      ∧ (c.isActive = false → t.body = s.body ∧ t.line.report = s.line.report)
      ∧ (c.isActive = true → c.state ≠ .rest ∨ c.homing = .none →
          t.seq = { s.seq with chans := s.seq.chans.set ch d })
      ∧ (c.state = .rest → c.homing ≠ .none →
          t.seq = { s.seq with chans := s.seq.chans.set ch (t.chan ch) }
            ∧ (if s.setup.home < v ∧ s.ctl.mode ≠ .reduced then
                RetractionBegun s.setup s.now false (t.chan ch)
                  ∧ (t.chan ch).x = some v ∧ (t.chan ch).climbed = c.climbed
              else t.chan ch = { read with homing := .none }))
      ∧ (c.isActive = true → t.isPresent (.transducer ch) = false)
      ∧ (∀ e, e ≠ .transducer ch → (∀ other, e ≠ .extendTimeout other) →
          t.isPresent e = s.isPresent e)
      ∧ t.now = s.now ∧ t.ctl = s.ctl ∧ t.plan = s.plan ∧ t.stack = s.stack ∧ t.cure = s.cure
      ∧ t.peers = s.peers
      ∧ t.feed = { s.feed with blankTimer := t.feed.blankTimer } ∧ BlankFollows s t s.now
      ∧ t.sup = { s.sup with present := t.sup.present }
      ∧ t.join = s.join
      ∧ t.line = { s.line with report := t.line.report, busyTimer := t.line.busyTimer }
      ∧ (t.line.report = s.line.report ∨ t.line.report = s.line.report.request .urgent)

/-- An open transducer and a value outside 0 to 320 are invalid: TRANSDUCER of the channel becomes
present and is latched, a station in STANDING, CLIMBING or PAUSED stops, and the channel acts by its
state; its last valid reading and its climbed height stay. The latch cuts the other channels' extensions and
cancels every pending start; an entry latched before cuts nothing. A first reading after a commit begins a
blind retraction, which in REDUCED is left to the recovery and to a further invalid reading
(notes/assumptions/13.md). -/
def Obligations.InvalidReadingLatches : Prop :=
  ∀ (s : State) (ch : Ch) (reading : SensorReading), Sound s →
    reading = .openCircuit ∨ (∃ v : Int, reading = .value v ∧ (v < 0 ∨ 320 < v)) →
    (s.chan ch).isActive = true →
    ∃ t, exec (.transducerReading ch reading) s = .next t
      ∧ t.isPresent (.transducer ch) = true
      ∧ (s.isPresent (.transducer ch) = false → t.isLatched (.transducer ch) = true
          ∧ (s.ctl.mode.works = true → t.ctl.mode = .stopped))
      ∧ (if s.isPresent (.transducer ch) = false ∧ s.isLatched (.transducer ch) = false then
          (t.chan ch).startPending = false
            ∧ ∀ other ∈ Ch.all, other ≠ ch →
              CutByLatch s.setup s.now (s.chan other) (t.chan other)
        else ∀ other ∈ Ch.all, other ≠ ch → t.chan other = s.chan other)
      ∧ BlankFollows s t s.now
      ∧ (t.chan ch).x = (s.chan ch).x ∧ (t.chan ch).xPeak = (s.chan ch).xPeak
      ∧ (t.chan ch).readingValid = false ∧ (t.chan ch).climbed = (s.chan ch).climbed
      ∧ ((s.chan ch).state = .rest → (s.chan ch).homing ≠ .atCommit →
          StandsShut .fault (t.chan ch) ∧ (t.chan ch).startPending = false)
      ∧ ((s.chan ch).state = .rest → (s.chan ch).homing = .atCommit →
          if s.ctl.mode = .reduced then StandsShut .rest (t.chan ch)
          else RetractionBegun s.setup s.now true (t.chan ch))
      ∧ ((s.chan ch).state = .extend →
          (t.chan ch).state = .hold ∧ (t.chan ch).pressureOpen = false
            ∧ (t.chan ch).strokeTimer = some (s.now + s.setup.deadTime)
            ∧ (t.chan ch).blind = true)
      ∧ ((s.chan ch).state = .hold →
          (t.chan ch).state = .hold ∧ (t.chan ch).strokeTimer = (s.chan ch).strokeTimer
            ∧ (t.chan ch).blind = true)
      ∧ ((s.chan ch).state = .retract →
          (t.chan ch).state = .retract ∧ (t.chan ch).blind = true
            ∧ (t.chan ch).strokeTimer = (s.chan ch).strokeTimer
            ∧ (t.chan ch).dumpOpen = (s.chan ch).dumpOpen)
      ∧ ((s.chan ch).state = .inhibited → (t.chan ch).state = .inhibited)
      ∧ ((s.chan ch).state = .fault → (t.chan ch).state = .fault)

/-- The ends of the stroke timers: T_ext takes an extension to HOLD with EXTEND TIMEOUT raised by its
class, T_ret takes a retraction that is not blind to FAULT with RETRACT TIMEOUT latched and its condition
over, and the end of a blind retraction takes the channel to FAULT where an entry holds it or its last
reading was invalid, and otherwise by its last reading, in the order of notes/assumptions/17.md; both valves
stand closed then. A latch made here cuts the other channels' extensions and cancels every pending start,
otherwise they stay as they are. The blank timer starts with a gate close and with the end of the last
motion. -/
def Obligations.StrokeTimersEndMotion : Prop :=
  ∀ (s : State) (ch : Ch) (d : Nat), Sound s → (s.chan ch).strokeTimer = some d →
    let now := max s.now d
    let c := s.chan ch
    (c.state = .extend →
        ∃ t, exec (.tExtExpiry ch) s = .next t ∧ t.now = now
          ∧ (t.chan ch).state = .hold ∧ (t.chan ch).pressureOpen = false
          ∧ (t.chan ch).pressureClosed = now
          ∧ (t.chan ch).strokeTimer = some (now + s.setup.deadTime)
          ∧ (t.chan ch).xPeak = c.xPeak ∧ (t.chan ch).climbed = c.climbed
          ∧ t.isPresent (.extendTimeout ch) = true
          ∧ (s.classOf (.extendTimeout ch) = .warn →
              t.ctl = s.ctl ∧ t.sup.latched = s.sup.latched)
          ∧ (s.classOf (.extendTimeout ch) ≠ .warn → s.isPresent (.extendTimeout ch) = false →
              t.isLatched (.extendTimeout ch) = true
                ∧ (s.ctl.mode.works = true → t.ctl.mode = .stopped))
          ∧ (∀ other ∈ Ch.all, other ≠ ch →
              if s.classOf (.extendTimeout ch) ≠ .warn ∧ s.isPresent (.extendTimeout ch) = false
                  ∧ s.isLatched (.extendTimeout ch) = false then
                CutByLatch s.setup now (s.chan other) (t.chan other)
              else t.chan other = s.chan other)
          ∧ BlankFollows s t now)
      ∧ (c.state = .retract → c.blind = false → s.isPresent (.retractTimeout ch) = false →
          ∃ t, exec (.tRetExpiry ch) s = .next t ∧ t.now = now
            ∧ StandsShut .fault (t.chan ch) ∧ (t.chan ch).startPending = false
            ∧ (t.chan ch).dumpClosed = now ∧ (t.chan ch).climbed = c.climbed
            ∧ t.isLatched (.retractTimeout ch) = true
            ∧ t.isPresent (.retractTimeout ch) = false
            ∧ (s.ctl.mode.works = true → t.ctl.mode = .stopped)
            ∧ (s.classOf (.retractTimeout ch) = .trip → t.sup.drive = true)
            ∧ (∀ other ∈ Ch.all, other ≠ ch →
                if s.isLatched (.retractTimeout ch) = false then
                  CutByLatch s.setup now (s.chan other) (t.chan other)
                else t.chan other = s.chan other)
            ∧ BlankFollows s t now)
      ∧ (c.state = .retract → c.blind = true →
          ∃ t, exec (.blindRetractionEnd ch) s = .next t ∧ t.now = now
            ∧ t.ctl = s.ctl ∧ t.sup.latched = s.sup.latched ∧ t.stack = s.stack
            ∧ (t.chan ch).climbed = c.climbed
            ∧ (if s.isLatched (.transducer ch) = true ∨ s.isLatched (.retractTimeout ch) = true
                  ∨ c.readingValid = false then
                StandsShut .fault (t.chan ch)
              else if s.setup.home < c.x.getD 0 then
                RetractionBegun s.setup now false (t.chan ch) ∧ (t.chan ch).dumpClosed = now
              else StandsShut .rest (t.chan ch))
            ∧ (∀ other ∈ Ch.all, other ≠ ch → t.chan other = s.chan other)
            ∧ BlankFollows s t now)

/-- The end of HOLD credits the channel once with its peak extension less JAW_LOSS, or 0, works the
station height as the mean of the active channels, drops the layers at or below it, and begins the
retraction, blind where a reading was invalid. The entry checks come before TILT and JACK SPREAD, of which
R95 allows either first (notes/assumptions/9.md); those two are then present exactly as judged at the new
heights, and an onset of class LATCH or TRIP is latched. -/
def Obligations.HoldEndCreditsStroke : Prop :=
  ∀ (s : State) (ch : Ch) (d : Nat), Sound s → (s.chan ch).state = .hold →
    (s.chan ch).strokeTimer = some d →
    let now := max s.now d
    let c := s.chan ch
    ∃ t, exec (.holdEnd ch) s = .next t ∧ t.now = now
      ∧ ((t.chan ch).climbed : Int)
          = min 2000000 ((c.climbed : Int) + max 0 ((c.xPeak : Int) - s.setup.jawLoss))
      ∧ (∀ other ∈ Ch.all, other ≠ ch → (t.chan other).climbed = (s.chan other).climbed)
      ∧ t.seq.height = meanOf (activeHeights t.seq.chans)
      ∧ t.stack.layers = s.stack.layers.dropWhile (fun l => decide (l.top ≤ t.seq.height))
      ∧ t.stack.concreteTop = s.stack.concreteTop
      ∧ RetractionBegun s.setup now (c.blind || !c.readingValid) (t.chan ch)
      ∧ (t.chan ch).target = c.target ∧ t.seq.strokeCount = s.seq.strokeCount
      ∧ t.cure = s.cure ∧ t.peers = s.peers
      ∧ (s.ctl.mode.works = true → s.setup.programTop ≤ t.seq.height →
          t.ctl.mode = .topped ∧ t.feed.gate = false)
      ∧ BlankFollows s t now
      ∧ (t.isPresent .tilt = true ↔ ∃ h ∈ linkedHeights s,
          s.setup.tiltMax < t.seq.height - h ∨ s.setup.tiltMax < h - t.seq.height)
      ∧ (t.isPresent .jackSpread = true ↔ ∃ a ∈ Ch.all, ∃ b ∈ Ch.all,
          (s.chan a).isActive = true ∧ (s.chan b).isActive = true
            ∧ s.setup.spreadMax < (t.chan a).climbed - (t.chan b).climbed)
      ∧ (∀ e ∈ [Cond.tilt, Cond.jackSpread], s.isPresent e = false → t.isPresent e = true →
          s.classOf e = .latch ∨ s.classOf e = .trip → t.isLatched e = true)

/-- A deferred opening takes place when T_dead has run: the pressure valve in EXTEND, the dump valve in
RETRACT, and the stroke timer starts with it. -/
def Obligations.DeferredValveOpens : Prop :=
  ∀ (s : State) (ch : Ch) (d : Nat), Sound s → (s.chan ch).deferred = some d →
    let now := max s.now d
    let c := s.chan ch
    let e : Channel :=
      if c.state = .extend then
        { c with pressureOpen := true, deferred := none,
                 strokeTimer := some (now + s.setup.extendTime) }
      else
        { c with dumpOpen := true, deferred := none,
                 strokeTimer := some (now + s.setup.retractTime) }
    ∃ t, exec (.deferredValveOpening ch) s = .next t
      ∧ t.body = { s with now := now, seq.chans := s.seq.chans.set ch e }.body
      ∧ t.line.report = s.line.report
      ∧ (c.state = .extend → c.dumpClosed + s.setup.deadTime ≤ t.now)
      ∧ (c.state = .retract → c.pressureClosed + s.setup.deadTime ≤ t.now)

/-- The inhibit input's assertion closes every valve at once and takes every active channel not in FAULT
to INHIBITED, crediting those in EXTEND and HOLD one by one (notes/assumptions/9.md): the station height is
the mean of what they have climbed, the layers at or below it leave, and where nothing latches the entry
checks and FAULT HOLD give the mode, the credits coming before the onset of INHIBIT
(notes/assumptions/29.md). The blank timer starts as the motion ends. Its release takes each INHIBITED channel
on by its last reading, whatever earlier ones of the stroke or under inhibit were, which is the model's choice
(notes/assumptions/34.md), in REDUCED to REST. INHIBIT is present in between. -/
def Obligations.InhibitStopsAndReleases : Prop :=
  ∀ s : State, Sound s →
    (s.inhibitInput = false →
        ∃ t, exec .inhibitAsserted s = .next t ∧ t.inhibitInput = true
          ∧ t.isPresent .inhibit = true ∧ t.now = s.now
          ∧ (∀ ch ∈ Ch.all,
              ((s.chan ch).state = .off ∨ (s.chan ch).state = .fault →
                  t.chan ch = s.chan ch)
                ∧ ((s.chan ch).state ≠ .off → (s.chan ch).state ≠ .fault →
                  StandsShut .inhibited (t.chan ch) ∧ (t.chan ch).startPending = false)
                ∧ ((t.chan ch).climbed : Int)
                    = if (s.chan ch).state = .extend ∨ (s.chan ch).state = .hold then
                        min 2000000 (((s.chan ch).climbed : Int)
                          + max 0 (((s.chan ch).xPeak : Int) - s.setup.jawLoss))
                      else (s.chan ch).climbed)
          ∧ (s.heightSet = true → t.seq.height = meanOf (activeHeights t.seq.chans))
          ∧ t.stack.layers = s.stack.layers.dropWhile (fun l => decide (l.top ≤ t.seq.height))
          ∧ t.stack.concreteTop = s.stack.concreteTop ∧ t.seq.strokeCount = s.seq.strokeCount
          ∧ t.cure = s.cure ∧ t.peers = s.peers ∧ BlankFollows s t s.now
          ∧ (s.ctl.mode.works = true → t.sup.latched = [] →
              t.ctl.mode = (if s.setup.programTop ≤ t.seq.height then .topped
                else if s.ctl.mode = .climbing then .paused else s.ctl.mode))
          ∧ ((∀ ch ∈ Ch.all, (s.chan ch).inStroke = false) →
              t.stack = s.stack ∧ t.seq.height = s.seq.height
                ∧ t.ctl.mode = (if s.ctl.mode = .climbing then .paused else s.ctl.mode)
                ∧ (s.ctl.mode.climbs = true → t.ctl.pause.faultHold = true)))
      ∧ (s.inhibitInput = true →
          ∃ t, exec .inhibitReleased s = .next t ∧ t.inhibitInput = false
            ∧ t.isPresent .inhibit = false ∧ t.now = s.now ∧ t.stack.layers = s.stack.layers
            ∧ t.seq.height = s.seq.height ∧ BlankFollows s t s.now
            ∧ ∀ ch ∈ Ch.all,
                let c := s.chan ch
                (c.state ≠ .inhibited → t.chan ch = c)
                  ∧ (c.state = .inhibited → (t.chan ch).climbed = c.climbed
                    ∧ (if s.ctl.mode = .reduced then StandsShut .rest (t.chan ch)
                      else if c.readingValid = false then
                        RetractionBegun s.setup s.now true (t.chan ch)
                      else if s.setup.home < c.x.getD 0 then
                        RetractionBegun s.setup s.now false (t.chan ch)
                      else StandsShut .rest (t.chan ch))))

/-! ### Cure maturity -/

/-- The rate of a sample under a record that passed its commit: 0 at and below the datum and with the cap
at or below it, otherwise the three widths of the capped excess by their slopes, summed, divided by 1,000
and rounded down once; at most 2,400. -/
def Obligations.CureRateCurve : Prop :=
  ∀ (own : Nat) (r : SetupRecord) (temp : Int), GoodRecord own r →
    let e := temp - r.datum
    let capped := min e (r.tempCap - r.datum)
    let k1 := max 0 (r.knee1 - r.datum)
    let k2 := max 0 (r.knee2 - r.datum)
    let w1 := if r.cureSegs = 1 then capped else min capped k1
    let w2 :=
      if r.cureSegs = 1 then 0
      else if r.cureSegs = 2 then max 0 (capped - k1)
      else max 0 (min capped k2 - k1)
    let w3 := if r.cureSegs = 3 then max 0 (capped - k2) else 0
    k1 ≤ k2 ∧ capped ≤ 1200 ∧ (r.cureSegs = 1 ∨ r.cureSegs = 2 ∨ r.cureSegs = 3)
      ∧ (e ≤ 0 → cureRate r temp = 0)
      ∧ (r.tempCap ≤ r.datum → cureRate r temp = 0)
      ∧ (0 < e → r.datum < r.tempCap →
          0 ≤ w1 ∧ 0 ≤ w2 ∧ 0 ≤ w3
            ∧ (cureRate r temp : Int) = (r.slope1 * w1 + r.slope2 * w2 + r.slope3 * w3) / 1000)
      ∧ cureRate r temp ≤ 2400

/-- A sample event: the clock and the timer move first, a valid reading outside REDUCED forms the
temperature with the trim, any other sample is missed and the last temperature stands in for T_hold
samples; the rate, derated in fallback, is recorded and added to every layer; TEMPERATURE becomes present
at a missed sample whose count is above T_hold, and absent at a valid reading alone. While it is present no
temperature stands in, also after a commit has raised T_hold (notes/assumptions/26.md). -/
def Obligations.CureSampleTaken : Prop :=
  ∀ (s : State) (reading : SensorReading) (d : Nat), Sound s → s.cure.sampleTimer = some d →
    let now := max s.now d
    let r := s.setup
    let effect (last inUse : Option Int) (missed : Nat) (present : Bool) : Prop :=
      let worked := match inUse with
        | some temp => cureRate r temp
        | none => 0
      let rate := if s.sup.onCrystal = true then worked else worked * 95 / 100
      ∃ t, exec (.cureSampleEvent reading) s = .next t ∧ t.now = now
        ∧ t.cure = { clock := (s.cure.clock + 1) % 65536, sampleTimer := some (now + 60000),
                     lastTemp := last, missed := missed, rate := rate, inUse := inUse }
        ∧ t.stack = { s.stack with
            layers := s.stack.layers.map fun l =>
              { l with maturity := min 1200000 (l.maturity + rate) } }
        ∧ t.isPresent .temperature = present
        ∧ t.seq = s.seq ∧ t.feed = s.feed ∧ t.peers = s.peers ∧ t.plan.last = s.plan.last
        ∧ t.sup.latched = s.sup.latched ∧ t.sup.drive = s.sup.drive
        ∧ (s.classOf .temperature = .warn ∨ s.isPresent .temperature = present →
            t.ctl = s.ctl ∧ t.plan = s.plan)
    let held := min 255 (s.cure.missed + 1)
    (∀ v : Int, reading = .value v → s.ctl.mode ≠ .reduced → -400 ≤ v → v ≤ 1000 →
        effect (some (v + r.tempTrim)) (some (v + r.tempTrim)) 0 false)
      ∧ ((s.ctl.mode = .reduced ∨ reading = .openCircuit
            ∨ ∃ v : Int, reading = .value v ∧ (v < -400 ∨ 1000 < v)) →
          effect s.cure.lastTemp
            (if s.isPresent .temperature = false ∧ held ≤ r.tempHold then s.cure.lastTemp
              else none) held
            (s.isPresent .temperature || decide (r.tempHold < held)))

/-! ### The fill probe, the stack and the gate -/

/-- A pending reckoning made at a usable probe sample: no layer where the concrete top is at or below the
highest layer, a first layer on the station height, the highest layer rewritten with maturity 0 where the
rise is below L_min or the stack is full, and otherwise a new layer on top. The mark is
cleared, and set again only by a gate that this sample closes. The bottom of a pushed layer is the former
top also where that lies above the 2,000,000 of R47's range: there the bottom is the model's choice
(notes/assumptions/25.md). -/
def Obligations.ReckoningBuildsLayers : Prop :=
  ∀ (s : State) (v : Nat), Sound s → s.ctl.mode ≠ .reduced → blanked s = false →
    s.heightSet = true → s.stack.reckoning = true → v ≤ s.setup.formHeight →
    let r := s.setup
    let top := s.seq.height + r.formHeight - v
    let fresh (bottom : Nat) : Layer :=
      { seq := s.stack.nextSeq, bottom := bottom, top := top, placed := s.cure.clock, maturity := 0,
        adopted := false }
    ∃ t, exec (.probeSample (.value v)) s = .next t
      ∧ t.stack.concreteTop = some top
      ∧ t.stack.reckoning = (s.feed.state == .opened && decide (v ≤ r.depthFull))
      ∧ (s.stack.layers = [] →
          (top ≤ s.seq.height →
              t.stack.layers = [] ∧ t.stack.nextSeq = s.stack.nextSeq)
            ∧ (s.seq.height < top →
              t.stack.layers = [fresh s.seq.height]
                ∧ t.stack.nextSeq = (s.stack.nextSeq + 1) % 65536))
      ∧ (∀ (below : List Layer) (high : Layer), s.stack.layers = below ++ [high] →
          (top ≤ high.top →
              t.stack.layers = s.stack.layers ∧ t.stack.nextSeq = s.stack.nextSeq)
            ∧ (high.top < top → (top < high.top + r.layerMin ∨ s.stack.layers.length = 16) →
              t.stack.layers
                  = below ++ [{ high with top := top, placed := s.cure.clock, maturity := 0 }]
                ∧ t.stack.nextSeq = s.stack.nextSeq)
            ∧ (high.top + r.layerMin ≤ top → s.stack.layers.length < 16 →
              t.stack.layers = s.stack.layers ++ [fresh high.top]
                ∧ t.stack.nextSeq = (s.stack.nextSeq + 1) % 65536))

/-- A probe sample: discarded in REDUCED and while blanked; a valid one sets D, ends PROBE, forms the
concrete top once the height is set and then makes a short station ask, a full asker return to IDLE and
a full gate close; an invalid one raises PROBE and ends the permission. -/
def Obligations.ProbeSampleTaken : Prop :=
  ∀ (s : State) (reading : SensorReading) (d : Nat), Sound s → s.feed.probeTimer = some d →
    let now := max s.now d
    let r := s.setup
    let blank : Timer := if r.blankTime = 0 then none else some (now + r.blankTime)
    let ticked : Feed := { s.feed with probeTimer := some (now + 1000) }
    let closed (f : Feed) : Feed :=
      { f with state := .idle, settled := false, settleTimer := none, feedTimer := none,
               gate := false, blankTimer := if s.feed.state = .opened then blank else f.blankTimer }
    let kept (t : State) : Prop :=
      t.now = now ∧ t.seq = s.seq ∧ t.cure = s.cure ∧ t.peers = s.peers ∧ t.plan.last = s.plan.last
        ∧ t.sup.latched = s.sup.latched ∧ t.sup.drive = s.sup.drive
    ((s.ctl.mode = .reduced ∨ blanked s = true) →
        ∃ t, exec (.probeSample reading) s = .next t
          ∧ t.body = { s with now := now, feed := ticked }.body ∧ t.line.report = s.line.report)
      ∧ (s.ctl.mode ≠ .reduced → blanked s = false →
          (∀ v : Nat, reading = .value v → v ≤ r.formHeight →
              let sampled : Feed := { ticked with depth := some v, probeValid := true }
              ∃ t, exec (.probeSample reading) s = .next t ∧ kept t
                ∧ t.isPresent .probe = false
                ∧ t.stack.concreteTop
                    = (if s.heightSet = true then some (s.seq.height + r.formHeight - v)
                      else s.stack.concreteTop)
                ∧ (s.feed.state = .idle →
                    t.feed = if s.ctl.mode.works = true ∧ s.ctl.feedHold = false ∧ r.depthCall < v
                      then { sampled with state := .asking, settled := false,
                                          settleTimer := some (now + r.settleTime) }
                      else sampled)
                ∧ (s.feed.state ≠ .idle → r.depthFull < v → t.feed = sampled)
                ∧ (s.feed.state ≠ .idle → v ≤ r.depthFull → t.feed = closed sampled)
                ∧ (s.feed.state = .opened → v ≤ r.depthFull →
                    t.stack.reckoning = true ∧ t.isPresent .feedTimeout = false))
            ∧ ((reading = .openCircuit
                  ∨ ∃ v : Int, reading = .value v ∧ (v < 0 ∨ (r.formHeight : Int) < v)) →
              ∃ t, exec (.probeSample reading) s = .next t ∧ kept t
                ∧ t.isPresent .probe = true
                ∧ t.feed = closed { ticked with probeValid := false }
                ∧ t.stack = { s.stack with
                    reckoning := s.feed.state == .opened || s.stack.reckoning }))

/-- The end of the settle time makes the first admission: with O gates known to be open and A askers that
rank above this station, the gate opens when O + A is below G_max; otherwise the station stays in ASKING
with its settled mark set and is admitted by the same count at an arrival. An OPEN station under which
G_max or more gates of lower numbers stand open yields at an arrival: it closes its gate and asks again
with a fresh settle time. -/
def Obligations.AdmissionAndYield : Prop :=
  ∀ (s : State) (d : Nat), Sound s →
    let now := max s.now d
    let own := s.join.ownNumber
    let depth := s.feed.depth.getD 0
    let isOpen (p : Peer) : Bool := p.liveness == .live && p.feed == some .opened
    let ranks (p : Peer) : Bool :=
      p.liveness == .live && p.feed == some .asking
        && (decide (depth < p.deficit.getD 0)
          || (p.deficit.getD 0 == depth && decide (p.number < own)))
    let ahead (ps : List Peer) : Nat := ps.countP isOpen + ps.countP ranks
    let opened (n : Nat) : Feed :=
      { s.feed with
        state := .opened, gate := true, settled := false, settleTimer := none,
        feedTimer := some (n + s.setup.feedTime) }
    (s.feed.settleTimer = some d →
        ∃ t, exec .settleTimerExpiry s = .next t
          ∧ (ahead s.peers.records < s.setup.gateMax →
              t.body = { s with now := now, feed := opened now }.body
                ∧ t.line.report = s.line.report.request .urgent)
          ∧ (s.setup.gateMax ≤ ahead s.peers.records →
              t.body = { s with
                  now := now, feed := { s.feed with settled := true, settleTimer := none } }.body
                ∧ t.line.report = s.line.report))
      ∧ (∀ (sender : BitVec 6) (payload : BitVec 224), (decodeReport payload.toNat).isSome = true →
          sender.toNat ∈ s.peers.records.map Peer.number → s.join.state ≠ .waitingForLink →
          ∃ t, exec (.report sender payload) s = .next t
            ∧ (t.ctl.mode.works = true → s.feed.state = .asking → s.feed.settled = true →
                t.feed = if ahead t.peers.records < s.setup.gateMax then opened s.now
                  else s.feed)
            ∧ (t.ctl.mode.works = true → s.feed.state = .opened →
                t.feed = if s.setup.gateMax
                    ≤ t.peers.records.countP (fun p => isOpen p && decide (p.number < own)) then
                  { s.feed with
                    state := .asking, gate := false, settled := false, feedTimer := none,
                    settleTimer := some (s.now + s.setup.settleTime),
                    blankTimer := if s.setup.blankTime = 0 then none
                      else some (s.now + s.setup.blankTime) }
                else s.feed))

/-- The gate closes at the end of T_feed, with FEED TIMEOUT, and at FEED HOLD on. FEED HOLD off sets the
hold off in every mode that takes commands and lets a short station in IDLE ask again where that allows
feeding; with the hold off already, in STOPPED and TOPPED and after an invalid probe reading it does nothing
else. The blank timer ends alone. Every close starts the blank timer and sets the reckoning pending mark. -/
def Obligations.GateClosesAndHolds : Prop :=
  ∀ (s : State) (d : Nat), Sound s →
    let now := max s.now d
    let r := s.setup
    let blank (n : Nat) : Timer := if r.blankTime = 0 then none else some (n + r.blankTime)
    let closed (n : Nat) : Feed :=
      { s.feed with
        state := .idle, settled := false, settleTimer := none, feedTimer := none, gate := false,
        blankTimer := if s.feed.state = .opened then blank n else s.feed.blankTimer }
    (s.feed.feedTimer = some d →
        ∃ t, exec .feedTimerExpiry s = .next t ∧ t.now = now ∧ t.feed = closed now
          ∧ t.stack = { s.stack with reckoning := true }
          ∧ t.isPresent .feedTimeout = true ∧ t.seq = s.seq ∧ t.cure = s.cure
          ∧ t.peers = s.peers ∧ t.sup.latched = s.sup.latched
          ∧ (s.classOf .feedTimeout = .warn → t.ctl = s.ctl))
      ∧ (s.feed.blankTimer = some d →
          ∃ t, exec .blankTimerExpiry s = .next t
            ∧ t.body = { s with now := now, feed.blankTimer := none }.body
            ∧ t.line.report = s.line.report)
      ∧ (∀ (sender : BitVec 6) (target : Byte), addressed s sender target = true →
          s.ctl.mode.takesCommands = true →
          (∃ t, exec (.feedHold sender target 1) s = .next t
              ∧ t.body = { s with
                  ctl.feedHold := true
                  feed := closed s.now
                  stack.reckoning :=
                    (s.feed.state == FeedState.opened || s.stack.reckoning) }.body
              ∧ t.line.report
                  = (if s.feed.state = .idle then s.line.report
                    else s.line.report.request .urgent))
            ∧ (let asks : Prop := s.ctl.feedHold = true ∧ s.ctl.mode.works = true
                ∧ s.feed.probeValid = true ∧ depthCalls s = true
              ∃ t, exec (.feedHold sender target 0) s = .next t
                ∧ t.body = { s with
                    ctl.feedHold := false
                    feed := if asks then
                        { s.feed with state := .asking, settled := false,
                                      settleTimer := some (s.now + r.settleTime) }
                      else s.feed }.body
                ∧ t.line.report
                  = (if asks then s.line.report.request .urgent else s.line.report))
            ∧ (∀ argument : Byte, 2 ≤ argument.toNat →
              ∃ t, exec (.feedHold sender target argument) s = .next t ∧ t.body = s.body
                ∧ t.line.report = s.line.report))

/-! ### The peer table -/

/-- A report of a roster number is entered whole in its record. A linked arrival judges TILT, present where
the station height differs from an available linked neighbour's by more than TILT_MAX and absent otherwise;
a settled station in ASKING is admitted or waits; REJOIN leaves once every linked neighbour is available; a
join that waits for a link ends once one is. Where the feed is IDLE, the sender is not linked and was not
SILENT, and neither a join nor REJOIN waits, nothing else changes. The height of a peer in SETUP, LOCKED or
JOINING is absent, whatever its bits hold. A report of a number without a record,
and one whose payload holds a value that R202 does not give, have no effect, the own number excepted
(notes/assumptions/10.md). -/
def Obligations.ReportEntersRecord : Prop :=
  ∀ (s : State) (sender : BitVec 6) (payload : BitVec 224), Sound s →
    let n := sender.toNat
    let nothing : Prop := ∃ t, exec (.report sender payload) s = .next t ∧ t.body = s.body
      ∧ t.line.report = s.line.report
    let numbers := s.peers.records.map Peer.number
    (decodeReport payload.toNat = none → n = 0 ∨ n ≠ s.join.ownNumber → nothing)
      ∧ (n ∉ numbers → n = 0 ∨ n ≠ s.join.ownNumber → nothing)
      ∧ (∀ r : Report, decodeReport payload.toNat = some r → n ∈ numbers →
          let entered (p : Peer) : Peer :=
            if p.number = n then
              { number := n, liveness := .live, miss := 0, heard := true, height := r.height,
                strokeCount := some r.strokeCount, feed := some r.feed, deficit := r.deficit,
                topMaturity := r.stack.map StackView.topMaturity }
            else p
          ∃ t, exec (.report sender payload) s = .next t
            ∧ t.peers = { s.peers with records := s.peers.records.map entered }
            ∧ (r.mode ∈ [.setup, .locked, .joining] →
                ∀ p ∈ t.peers.records, p.number = n → p.height = none)
            ∧ t.now = s.now ∧ t.cure = s.cure
            ∧ (n ∈ s.peers.links → (t.isPresent .tilt = true ↔
                s.heightSet = true ∧ ∃ h ∈ linkedHeights t,
                  s.setup.tiltMax < s.seq.height - h ∨ s.setup.tiltMax < h - s.seq.height))
            ∧ (n ∉ s.peers.links → t.isPresent .tilt = s.isPresent .tilt)
            ∧ (s.sup.armed = true → s.isPresent .tilt = false → t.isPresent .tilt = true →
                t.isLatched .tilt = true ∧ (s.ctl.mode.works = true → t.ctl.mode = .stopped))
            ∧ Admitted s t ∧ RejoinLeaves s t ∧ WaitEnds s t
            ∧ (s.feed.state = .idle → s.join.state ≠ .waitingForLink →
                s.ctl.pause.rejoin = false → n ∉ s.peers.links →
                (∀ p ∈ s.peers.records, p.number = n → p.liveness ≠ .silent) →
                t.body = { s with peers.records := s.peers.records.map entered }.body
                  ∧ t.line.report = s.line.report))

/-- A report under the station's own number raises DUPLICATE NUMBER, whatever its payload holds
(notes/assumptions/10.md): absent before and not latched, it is latched, the station pulls the halt loop,
stops, cuts its extensions and cancels its pending starts; present before, only the count and the mark of
the duplicate change. -/
def Obligations.OwnNumberTrips : Prop :=
  ∀ (s : State) (sender : BitVec 6) (payload : BitVec 224), Sound s →
    sender.toNat = s.join.ownNumber → sender.toNat ≠ 0 →
    ∃ t, exec (.report sender payload) s = .next t
      ∧ t.peers = { s.peers with dupMiss := 0, dupHeard := true }
      ∧ t.isPresent .duplicateNumber = true
      ∧ (s.isPresent .duplicateNumber = true →
          t.body = { s with peers := { s.peers with dupMiss := 0, dupHeard := true } }.body
            ∧ t.line.report = s.line.report)
      ∧ (s.isPresent .duplicateNumber = false → s.isLatched .duplicateNumber = false →
          t.sup.latched = s.sup.latched ++ [.duplicateNumber] ∧ t.sup.drive = true
            ∧ t.ctl.mode = (if s.ctl.mode.works = true then .stopped else s.ctl.mode)
            ∧ t.line.report = s.line.report.request .urgent
            ∧ t.now = s.now ∧ t.cure = s.cure ∧ t.seq.height = s.seq.height
            ∧ t.stack.layers = s.stack.layers ∧ t.feed.gate = (s.feed.gate && !s.ctl.mode.works)
            ∧ ∀ ch ∈ Ch.all,
                CutByLatch s.setup s.now (s.chan ch) (t.chan ch))

/-- The report timer's expiry restarts it with T_rep, ages every record and requests a periodic report. The
sweep judges no TILT, admits a settled station in ASKING or lets it wait, removes REJOIN where every linked
neighbour is available and ends a join that waits for a link where one is; where none of these waits for it,
nothing else changes. A set heard mark is cleared, of a report taken just before the sweep as of any other
(notes/assumptions/30.md). DUPLICATE NUMBER ends once MISS_LIMIT sweeps have passed without a report under the
own number. -/
def Obligations.AgeSweepByTable : Prop :=
  ∀ (s : State) (d : Nat), Sound s → s.line.reportTimer = some d →
    let now := max s.now d
    let limit := s.setup.missLimit
    let aged (p : Peer) : Peer :=
      if p.liveness = .live then
        (if p.heard = true then { p with heard := false }
        else if limit ≤ p.miss + 1 then { p with miss := p.miss + 1, liveness := .silent }
        else { p with miss := p.miss + 1 })
      else p
    ∃ t, exec .reportTimerExpiry s = .next t ∧ t.now = now
      ∧ t.line.reportTimer = some (now + s.setup.reportPeriod)
      ∧ t.peers.records = s.peers.records.map aged ∧ t.peers.links = s.peers.links
      ∧ t.cure = s.cure ∧ t.isPresent .tilt = s.isPresent .tilt
      ∧ Admitted s t ∧ RejoinLeaves s t ∧ WaitEnds s t
      ∧ (s.isPresent .duplicateNumber = true →
          (s.peers.dupHeard = true →
              t.peers.dupHeard = false ∧ t.peers.dupMiss = s.peers.dupMiss
                ∧ t.isPresent .duplicateNumber = true)
            ∧ (s.peers.dupHeard = false →
              t.peers.dupMiss = s.peers.dupMiss + 1
                ∧ t.isPresent .duplicateNumber = decide (s.peers.dupMiss + 1 < limit)
                ∧ t.sup.latched.contains .duplicateNumber
                    = s.sup.latched.contains .duplicateNumber))
      ∧ (s.isPresent .duplicateNumber = false →
          (∀ p ∈ s.peers.records, p.liveness = .live → p.heard = true ∨ p.miss + 1 < limit) →
          s.feed.settled = false → s.ctl.pause.rejoin = false →
          s.join.state ≠ .waitingForLink →
          t.body = { s with
              now := now
              peers.records := s.peers.records.map aged
              line.reportTimer := some (now + s.setup.reportPeriod) }.body
            ∧ t.line.report = (match s.line.report with
              | .empty => .pending .periodic
              | .pending p => .pending p
              | .sending p none => .sending p (some .periodic)
              | .sending p (some f) => .sending p (some f)))

/-- The link list of a record that passed its commit: the ring predecessor and successor of the own
number and the two cross links, each once, none of them the station itself, all within the roster. -/
def Obligations.LinkListFormed : Prop :=
  ∀ (n : Nat) (r : SetupRecord), 1 ≤ n → GoodRecord n r →
    let top := if r.nat 72 = 0 then r.roster else r.nat 72
    let before := if n = r.ringFirst then top else n - 1
    let after := if n = top then r.ringFirst else n + 1
    let l := linkList n r
    l.Nodup ∧ l.length ≤ 4 ∧ n ∉ l ∧ (∀ m ∈ l, 1 ≤ m ∧ m ≤ r.roster)
      ∧ (∀ m : Nat, m ∈ l ↔
          (r.linkRing = true ∧ (m = before ∨ m = after) ∧ m ≠ n)
            ∨ (m ≠ 0 ∧ (m = r.linkX1 ∨ m = r.linkX2)))
      ∧ (r.linkRing = true → r.ringFirst ≠ top → l.head? = some before)

/-! ### The deck line -/

/-- An attempt begins only on an idle line, neither muted nor in REDUCED nor while another is under way.
It takes the REPORT where it is PENDING, otherwise a PENDING SETUP REQUEST; the slot becomes SENDING and
the frame is gathered then, from the state as it stands. -/
def Obligations.AttemptTakesSlot : Prop :=
  ∀ s : State, Sound s →
    let may : Prop := s.line.idle = true ∧ s.line.muted = false ∧ s.ctl.mode ≠ .reduced
      ∧ s.line.report.isSending = false ∧ s.line.setupRequest ≠ .sending
    (∀ p : Prio, may → s.line.report = .pending p →
        ∃ t, exec .attemptStart s = .next t ∧ t.line.report = .sending p none
          ∧ t.body = { s with
              line.idle := false
              line.frame := some (TxFrame.make (match p with | .urgent => 1 | .periodic => 2)
                s.join.ownNumber 1 (bytesOf 28 (encodeReport (gatherReport s)))) }.body)
      ∧ (may → s.line.report = .empty → s.line.setupRequest = .pending →
          ∃ t, exec .attemptStart s = .next t ∧ t.line.report = .empty
            ∧ t.body = { s with
                line.setupRequest := .sending
                line.idle := false
                line.frame := some
                  (TxFrame.make 3 s.join.ownNumber 5 (gatherRequest s)) }.body)
      ∧ (¬ may ∨ (s.line.report = .empty ∧ s.line.setupRequest = .empty) →
          ∃ t, exec .attemptStart s = .next t ∧ t.body = s.body
            ∧ t.line.report = s.line.report)

/-- How the three ends of an attempt act on the slots: sent whole the REPORT slot takes its follow-on
request or empties and the SETUP REQUEST slot empties; lost in arbitration or failed, the REPORT becomes
PENDING with the lesser priority and the SETUP REQUEST PENDING, or EMPTY out of SETUP. Sent whole sets
the error count to 0 and ends LINE; a failure counts, and at 16 mutes the station for 5 s with LINE
present; a loss changes neither. -/
def Obligations.AttemptEnds : Prop :=
  ∀ s : State, Sound s → s.line.report.isSending = true ∨ s.line.setupRequest = .sending →
    let retried : ReportSlot := match s.line.report with
      | .sending p none => .pending p
      | .sending p (some f) => .pending (if p = .urgent ∨ f = .urgent then .urgent else .periodic)
      | slot => slot
    let sent : ReportSlot := match s.line.report with
      | .sending _ none => .empty
      | .sending _ (some f) => .pending f
      | slot => slot
    let request : SetupSlot :=
      if s.line.setupRequest = .sending then
        (if s.effectiveMode = .setup then .pending else .empty)
      else s.line.setupRequest
    (∃ t, exec .arbitrationLost s = .next t ∧ t.line.report = retried
        ∧ t.body = { s with line.setupRequest := request, line.frame := none }.body)
      ∧ (∃ t, exec .sentWhole s = .next t ∧ t.line.errors = 0 ∧ t.line.frame = none
        ∧ t.line.setupRequest
            = (if s.line.setupRequest = .sending then .empty else s.line.setupRequest)
        ∧ t.isPresent .line = false ∧ t.line.muted = s.line.muted
        ∧ t.now = s.now ∧ t.seq = s.seq ∧ t.stack = s.stack ∧ t.cure = s.cure ∧ t.feed = s.feed
        ∧ t.peers = s.peers ∧ t.sup.latched = s.sup.latched
        ∧ (s.isPresent .line = false →
            t.line.report = sent ∧ t.ctl = s.ctl ∧ t.plan = s.plan ∧ t.sup = s.sup))
      ∧ (∃ t, exec .transmitError s = .next t ∧ t.line.frame = none
        ∧ t.line.errors = min 16 (s.line.errors + 1) ∧ t.line.setupRequest = request
        ∧ t.now = s.now ∧ t.stack = s.stack ∧ t.cure = s.cure ∧ t.peers = s.peers
        ∧ t.sup.latched = s.sup.latched
        ∧ (s.line.errors < 15 →
            t.line.report = retried
              ∧ t.body = { s with
                  line.setupRequest := request
                  line.frame := none
                  line.errors := s.line.errors + 1 }.body)
        ∧ (15 ≤ s.line.errors →
            t.line.muted = true ∧ t.line.muteTimer = some (s.now + 5000)
              ∧ t.isPresent .line = true
              ∧ (s.ctl.mode = .climbing → s.isPresent .line = false → t.ctl.mode = .paused)))

/-- The line's level, the end of a mute and the busy-line timer: it runs from the moment the line stops
being idle while a slot is PENDING, the station neither muted nor in REDUCED, and its expiry counts a
transmit error. A LINE_NOT_IDLE that finds the condition held already, as the first one after a reset does,
starts it where it stands stopped (notes/assumptions/5.md). The mute at an expiry leaves an attempt of the other
slot under way (notes/assumptions/31.md). -/
def Obligations.LineLevelAndTimers : Prop :=
  ∀ (s : State) (d : Nat), Sound s →
    let now := max s.now d
    let waits (n : Nat) (muted : Bool) : Timer :=
      if (s.line.report.isPending = true ∨ s.line.setupRequest = .pending) ∧ muted = false
          ∧ s.ctl.mode ≠ .reduced then some n else none
    (s.line.report.isSending = false → s.line.setupRequest ≠ .sending →
        ∃ t, exec .lineIdle s = .next t ∧ t.body = { s with line.idle := true }.body
          ∧ t.line.report = s.line.report ∧ t.line.busyTimer = none)
      ∧ (∃ t, exec .lineNotIdle s = .next t ∧ t.body = { s with line.idle := false }.body
          ∧ t.line.report = s.line.report
          ∧ (s.line.busyTimer = none → t.line.busyTimer = waits (s.now + 10) s.line.muted)
          ∧ (∀ b, s.line.busyTimer = some b → t.line.busyTimer = waits b s.line.muted))
      ∧ (s.line.muteTimer = some d →
          ∃ t, exec .muteTimerExpiry s = .next t
            ∧ t.body = { s with
                now := now, line.muted := false, line.muteTimer := none }.body
            ∧ t.line.report = s.line.report)
      ∧ (s.line.busyTimer = some d →
          ∃ t, exec .busyLineTimerExpiry s = .next t ∧ t.now = now
            ∧ t.line.errors = min 16 (s.line.errors + 1)
            ∧ (s.line.errors < 15 →
                t.body = { s with now := now, line.errors := s.line.errors + 1 }.body
                  ∧ t.line.report = s.line.report
                  ∧ t.line.busyTimer
                    = (if s.line.idle = true then none else waits (now + 10) s.line.muted))
            ∧ (15 ≤ s.line.errors →
                t.line.muted = true ∧ t.line.muteTimer = some (now + 5000)
                  ∧ t.line.busyTimer = none ∧ t.isPresent .line = true
                  ∧ t.line.frame = s.line.frame ∧ t.line.setupRequest = s.line.setupRequest
                  ∧ t.line.report
                    = (if s.isPresent .line = true then s.line.report
                      else s.line.report.request .urgent)
                  ∧ t.line.report.isSending = s.line.report.isSending))

/-- The command that a whole frame brings about is the one of its kind, and of its command code, with the
sender number and the payload it carries; a frame that fails a test for arriving whole, its payload's length
among them, is discarded, and one whose command code is not listed, which R13 ignores, is spelled as a
discarded frame (notes/assumptions/10.md). -/
def Obligations.FramesSpellCommands : Prop :=
  ∀ (priority sender : Nat) (bytes : List Nat), priority < 4 → sender < 64 →
    (∀ b ∈ bytes, b < 256) →
    let frame (kind : Nat) : RxFrame := (TxFrame.make priority sender kind bytes).received
    let number : BitVec 6 := BitVec.ofNat 6 sender
    let byte (i : Nat) : Byte := BitVec.ofNat 8 (bytes.getD i 0)
    (bytes.length = 28 →
        commandOfFrame (frame 1) = .report number (BitVec.ofNat 224 (ofBytes bytes)))
      ∧ (bytes.length = 3 →
          commandOfFrame (frame 2) = (match bytes.getD 1 0 with
            | 1 => .start number (byte 0) (byte 2)
            | 2 => .stop number (byte 0) (byte 2)
            | 3 => .pause number (byte 0) (byte 2)
            | 4 => .resume number (byte 0) (byte 2)
            | 5 => .clear number (byte 0) (byte 2)
            | 6 => .rateScale number (byte 0) (byte 2)
            | 7 => .feedHold number (byte 0) (byte 2)
            | _ => .frameDiscarded (frame 2)))
      ∧ (bytes.length = 6 →
          commandOfFrame (frame 3)
            = .setupData number (byte 0) (byte 1) (BitVec.ofNat 32 (ofBytes (bytes.drop 2))))
      ∧ (bytes.length = 2 → commandOfFrame (frame 4) = .setupCommit number (byte 0) (byte 1))
      ∧ (bytes.length = 5 →
          commandOfFrame (frame 5) = .peerSetupRequest number (BitVec.ofNat 40 (ofBytes bytes)))
      ∧ (∀ kind < 8, kindLength kind ≠ some bytes.length → bytes.length < 32 →
          commandOfFrame (frame kind) = .frameDiscarded (frame kind))
      ∧ (∀ f : RxFrame, f.startSeen = false ∨ f.endSeen = false ∨ f.codeViolation = true
            ∨ f.payload.length ≠ f.length.toNat
            ∨ kindLength f.kind.toNat ≠ some f.length.toNat
            ∨ f.check.toNat ≠ frameCheck (frameMessage f.priority.toNat f.sender.toNat
                f.kind.toNat (f.payload.map BitVec.toNat)) →
          commandOfFrame f = .frameDiscarded f)

/-- Arbitration leaves the least value driven, whoever else began, and two different bits driven in the
self-clocked part at once show no change of level at the middle of the bit time. The readback of the frame
under way ends its attempt at the first bit time that does not match: lost where the arbitration field sent
recessive and reads dominant, a transmit error at every other mismatch, in the field or after it; it ends it as
sent whole where all match to the end, and before that goes on (the start is not read back, the end is:
notes/assumptions/32.md). So a frame of a greater arbitration value loses to one of a lesser, and of two with
one value and different bits both fail. -/
def Obligations.LeastArbitrationPrevails : Prop :=
  (∀ values : List Nat, (∀ v ∈ values, v < 256) →
      contenders 8 values = values.filter fun v => values.all fun w => decide (v ≤ w))
    ∧ (∀ a b : Bool,
        (a ≠ b → readCoded ((codedBit a).overlay (codedBit b)) = none)
          ∧ readCoded ((codedBit a).overlay (codedBit a)) = some a
          ∧ readPlain ((plainBit a).overlay (plainBit b)) = (a && b))
    ∧ (∀ (s : State) (f : TxFrame) (shown : List BitTime) (i : Nat) (sent read : BitTime),
        s.line.frame = some f → (frameLine f)[i]? = some sent → shown[i]? = some read → 1 ≤ i →
        (∀ j, 1 ≤ j → j < i →
          if j ≤ 8 then ((frameLine f)[j]?).map readPlain = (shown[j]?).map readPlain
          else (frameLine f)[j]? = shown[j]?) →
        (i ≤ 8 → readPlain sent = true → readPlain read = false →
            attemptOutcome s shown = some .arbitrationLost)
          ∧ (i ≤ 8 → readPlain sent = false → readPlain read = true →
            attemptOutcome s shown = some .transmitError)
          ∧ (9 ≤ i → read ≠ sent → attemptOutcome s shown = some .transmitError)
          ∧ ((if i ≤ 8 then readPlain read = readPlain sent else read = sent) →
            (i + 1 = (frameLine f).length → attemptOutcome s shown = some .sentWhole)
              ∧ (i + 1 < (frameLine f).length → shown.length = i + 1 →
                attemptOutcome s shown = none)))
    ∧ (∀ f g : TxFrame, f.priority < 4 → f.sender < 64 → f.payload.length < 32 →
        g.priority < 4 → g.sender < 64 → g.payload.length < 32 →
        (f.arbitration < g.arbitration →
            readback f (frameLine f) = some .sentWhole
              ∧ readback g (frameLine f) = some .arbitrationLost)
          ∧ (f.arbitration = g.arbitration → frameLine f ≠ frameLine g →
            readback f (overlayLines (frameLine f) (frameLine g)) = some .transmitError
              ∧ readback g (overlayLines (frameLine f) (frameLine g)) = some .transmitError)
          ∧ (frameLine f = frameLine g →
            readback f (overlayLines (frameLine f) (frameLine g)) = some .sentWhole))

/-- A frame laid out on the two wires bit time by bit time is read back as it was sent, and the frame a
station sends with a payload of its kind's length arrives whole. -/
def Obligations.FrameReadsBack : Prop :=
  (∀ f : TxFrame, f.priority < 4 → f.sender < 64 → f.kind < 8 → f.payload.length < 32 →
      (∀ b ∈ f.payload, b < 256) → f.check < 65536 → readLine (frameLine f) = f.received)
    ∧ (∀ (priority sender kind : Nat) (payload : List Nat), priority < 4 → sender < 64 →
        kind < 8 → (∀ b ∈ payload, b < 256) → kindLength kind = some payload.length →
        rxWhole (readLine (frameLine (TxFrame.make priority sender kind payload))) = true)

/-- A report with every field in its range is read back from its 224 bits as it was gathered, but for what a
receiver takes as absent whatever its bits hold: a height in SETUP, LOCKED and JOINING, and a candidate rise and
a current segment with limit cause NONE. The bits sent as 0 are ignored: the four reserved ones at the end, and
with an empty stack the maturities, the sequence number and the age of its layers. Two clauses are the model's
choice: a field that holds its own absent code is absent in any mode and with any cause
(notes/assumptions/33.md), and a report whose fault set holds the HALT LOOP cause bit 28 at 1 beside bit 27 at 0
is read back like any other (notes/assumptions/27.md). -/
def Obligations.ReportReadsBack : Prop :=
  ∀ (r : Report) (k : Nat), ReportInRange r → k < 16 →
    let read : Report :=
      { r with
        height := if r.mode ∈ [.setup, .locked, .joining] then none else r.height
        candidate := if r.cause = .none then none else r.candidate
        segment := if r.cause = .none then none else r.segment }
    encodeReport r + k < 2 ^ 224 ∧ decodeReport (encodeReport r + k) = some read
      ∧ (r.stack = none → ∀ bottom top seq age : Nat,
          bottom < 2 ^ 11 → top < 2 ^ 11 → seq < 2 ^ 16 → age < 2 ^ 16 →
          decodeReport (encodeReport r + bottom * 2 ^ 116 + top * 2 ^ 105 + seq * 2 ^ 89
            + age * 2 ^ 73 + k) = some read)

/-- The report a sound station gathers takes each field from the block that owns it: the height absent in
SETUP, LOCKED and JOINING, the stack fields from the lowest and the highest layer, no temperature and a rate of
0 while TEMPERATURE is present, and the 32 fault set bits from the conditions present and latched, the cause
and the mark of HALT LOOP and the halt drive. Every field
is in its range, and a receiver takes from it the planned rise of the station's own plan record. -/
def Obligations.ReportCarriesState : Prop :=
  ∀ s : State, Sound s →
    let g := gatherReport s
    let shows (e : Cond) : Bool := decide (e ∈ s.sup.present)
    let holds (e : Cond) : Bool := decide (e ∈ s.sup.latched)
    let inSet (e : Cond) : Bool := shows e || holds e
    ReportInRange g
      ∧ decodeReport (encodeReport g) = some g
      ∧ Report.plannedRise g = s.plan.last.rise
      ∧ g.mode = s.ctl.mode ∧ g.rateScale = s.ctl.rateScale ∧ g.refusal = s.ctl.refusal
      ∧ g.operator = s.ctl.pause.operator ∧ g.faultHold = s.ctl.pause.faultHold
      ∧ g.rejoin = s.ctl.pause.rejoin ∧ g.segmentEntry = s.ctl.pause.segment
      ∧ g.height = (if s.ctl.mode ∈ [.setup, .locked, .joining] then none else some s.seq.height)
      ∧ g.strokeCount = s.seq.strokeCount
      ∧ (∀ ch ∈ Ch.all, g.channels.get ch = (s.chan ch).state)
      ∧ g.candidate = s.plan.last.candidate ∧ g.cause = s.plan.last.cause
      ∧ g.belowMin = s.plan.last.belowMin ∧ g.segment = s.plan.last.segment
      ∧ (s.stack.layers = [] → g.stack = none)
      ∧ (∀ low high : Layer, s.stack.layers.head? = some low → s.stack.layers.getLast? = some high →
          g.stack = some
            { depth := s.stack.layers.length, bottomMaturity := low.maturity / 600,
              topMaturity := high.maturity / 600, topSeq := high.seq,
              topAge := s.cure.clock - high.placed })
      ∧ (g.adopted = true ↔ ∃ l ∈ s.stack.layers, l.adopted = true)
      ∧ g.temperature = s.cure.inUse ∧ g.cureRate = s.cure.rate
      ∧ (shows .temperature = true → g.temperature = none ∧ g.cureRate = 0)
      ∧ g.feed = s.feed.state ∧ g.deficit = s.feed.depth
      ∧ (List.range 32).map (fun i => g.faults.testBit (31 - i))
        = [inSet (.extendTimeout .c1), inSet (.extendTimeout .c2), inSet (.extendTimeout .c3),
           inSet (.extendTimeout .c4),
           holds (.extendTimeout .c1) || holds (.extendTimeout .c2) || holds (.extendTimeout .c3)
             || holds (.extendTimeout .c4),
           holds (.retractTimeout .c1), holds (.retractTimeout .c2), holds (.retractTimeout .c3),
           holds (.retractTimeout .c4),
           holds (.transducer .c1), holds (.transducer .c2), holds (.transducer .c3),
           holds (.transducer .c4),
           inSet .jackSpread, holds .jackSpread, inSet .neighbourLost, holds .neighbourLost,
           shows .peerSilent, inSet .tilt, holds .tilt, shows .probe, shows .temperature,
           shows .line, holds .duplicateNumber, shows .clockFallback, shows .feedTimeout,
           shows .supplyLow, holds .haltLoop, decide (s.sup.haltCause = some .other),
           s.sup.clearPending, shows .inhibit, s.sup.drive]

/-! ### Setup and the join -/

/-- The setup exchange: an item of a console for this station enters the staged record with its mark, is
counted and opens the window with the first; anything else is ignored; the request timer requests a
SETUP REQUEST every 5 s; the end of the window locks the station. -/
def Obligations.SetupExchange : Prop :=
  ∀ (s : State) (d : Nat), Sound s →
    let now := max s.now d
    (∀ (sender : BitVec 6) (target item : Byte) (value : BitVec 32),
        let id := item.toNat
        let taken : Prop := s.ctl.mode = .setup ∧ 60 ≤ sender.toNat
          ∧ (target.toNat = 0 ∨ target.toNat = s.join.ownNumber) ∧ 1 ≤ id ∧ id ≤ 87
        ∃ t, exec (.setupData sender target item value) s = .next t
          ∧ t.line.report = s.line.report
          ∧ (¬ taken → t.body = s.body)
          ∧ (taken →
              t.join.staged.item id = value.toInt
                ∧ (∀ j, 1 ≤ j → j ≤ 87 → j ≠ id →
                  t.join.staged.item j = s.join.staged.item j)
                ∧ t.body = { s with
                    join := { s.join with
                      staged := t.join.staged
                      marks := s.join.marks.setIfInBounds (id - 1) (!itemInRange id value.toInt)
                      itemsReceived := min 255 (s.join.itemsReceived + 1)
                      stage := .window
                      windowTimer :=
                        if s.join.stage = SetupStage.waiting then some (s.now + 60000)
                        else s.join.windowTimer } }.body))
      ∧ (s.join.requestTimer = some d →
          ∃ t, exec .setupRequestTimerExpiry s = .next t
            ∧ t.body = { s with
                now := now
                join.requestTimer := some (now + 5000)
                line.setupRequest :=
                  if s.line.setupRequest = SetupSlot.empty then .pending
                  else s.line.setupRequest }.body
            ∧ t.line.report = s.line.report)
      ∧ (s.join.windowTimer = some d → s.ctl.mode = .setup →
          ∃ t, exec .windowExpiry s = .next t
            ∧ t.body = { s with
                now := now
                ctl.mode := .locked
                join.stage := .closed
                join.windowTimer := none
                join.requestTimer := none
                line.setupRequest :=
                  if s.line.setupRequest = SetupSlot.pending then .empty
                  else s.line.setupRequest }.body
            ∧ t.line.report = s.line.report.request .urgent)
      ∧ (s.join.windowTimer = some d → s.ctl.mode = .reduced →
          ∃ t, exec .windowExpiry s = .next t ∧ t.ctl.mode = .reduced
            ∧ t.ctl.returnMode = some .locked ∧ t.join.stage = .closed
            ∧ t.join.windowTimer = none ∧ t.join.requestTimer = none)

/-- A commit is judged by the setup check, then by the lowest item out of range, then by the first
cross-item rule that fails; each refusal sets the last commit result and requests a SETUP REQUEST. A good
commit brings the record into force and the station into JOINING; a held depth above the committed form
height is discarded with its reading. -/
def Obligations.CommitJudged : Prop :=
  ∀ (s : State) (sender : BitVec 6) (target check : Byte), Sound s → s.ctl.mode = .setup →
    addressed s sender target = true →
    let r := s.join.staged
    let own := s.join.ownNumber
    let refused (c : CommitResult) : Prop :=
      ∃ t, exec (.setupCommit sender target check) s = .next t
        ∧ t.body = { s with
            join.lastCommit := c
            line.setupRequest :=
              if s.line.setupRequest = SetupSlot.empty then .pending else s.line.setupRequest }.body
        ∧ t.line.report = s.line.report
    (r.check ≠ check.toNat → refused (.check r.check))
      ∧ (r.check = check.toNat → ∀ id, 1 ≤ id → id ≤ 87 →
          itemInRange id (r.item id) = false →
          (∀ j, 1 ≤ j → j < id → itemInRange j (r.item j) = true) → refused (.range id))
      ∧ (r.check = check.toNat → recordInRange r = true →
          ∀ k, failedRule own r = some k → refused (.rule k))
      ∧ (r.check = check.toNat → recordInRange r = true → failedRule own r = none →
          ∃ t, exec (.setupCommit sender target check) s = .next t
            ∧ t.ctl.mode = .joining ∧ t.setup = r ∧ t.now = s.now
            ∧ t.join = { s.join with
                committed := some r, stage := .committed, windowTimer := none,
                requestTimer := none, kind := .afterCommit, state := .listening,
                listenTimer := some (s.now + r.missLimit * r.reportPeriod) }
            ∧ t.line.setupRequest ≠ .pending
            ∧ t.line.report = s.line.report.request .urgent
            ∧ t.peers.links = linkList own r
            ∧ t.peers.records = s.peers.records.filter (fun p => decide (p.number ≤ r.roster))
            ∧ t.cure = s.cure ∧ t.stack = s.stack ∧ t.seq.height = 0
            ∧ t.feed = (match s.feed.depth with
              | some depth =>
                if r.formHeight < depth then { s.feed with depth := none, probeValid := false }
                else s.feed
              | none => s.feed)
            ∧ t.sup.latched = s.sup.latched
            ∧ ∀ ch ∈ Ch.all, t.chan ch =
                if r.active ch = true then
                  (if s.inhibitInput = true then { s.chan ch with state := .inhibited }
                  else { s.chan ch with state := .rest, homing := .atCommit })
                else s.chan ch)

/-- The rules of a commit, in their order: a channel is active, the program top is at most 200 m, the
feed depths rise to F, the knees rise, the own number is in the roster, the cross links and the ring lie
within it. -/
def Obligations.CommitRules : Prop :=
  ∀ (own : Nat) (r : SetupRecord), recordInRange r = true →
    let holds : Nat → Prop
      | 1 => ∃ ch ∈ Ch.all, r.active ch = true
      | 2 => r.programTop ≤ 2000000
      | 3 => r.depthFull < r.depthCall ∧ r.depthCall < r.formHeight
      | 4 => r.knee1 < r.knee2
      | 5 => own ≤ r.roster
      | 6 => ∀ x ∈ [r.linkX1, r.linkX2], x ≠ 0 → x ≤ r.roster ∧ x ≠ own
      | 7 => r.linkRing = true → r.ringFirst ≤ own ∧ own ≤ r.ringLast ∧ r.ringLast ≤ r.roster
      | _ => False
    (∀ k, failedRule own r = some k →
        2 ≤ k ∧ k ≤ 7 ∧ ¬ holds k ∧ ∀ j, 1 ≤ j → j < k → holds j)
      ∧ (failedRule own r = none ↔ ∀ k, 1 ≤ k → k ≤ 7 → holds k)
      ∧ r.programTop = r.programStart
          + ((List.range r.segCount).map fun j => r.segLen (j + 1)).sum

/-- How a join listen ends: it waits while links exist and none is available; it starts fresh after a
commit where no available neighbour has climbed; it adopts the mean of their heights where one has, with
one adopted layer under the concrete where a depth is held, also over an invalid last probe reading
(notes/assumptions/12.md); after a restore it keeps the heights and the stack. Otherwise than waiting, the
join is DONE and the deck supervisions are armed; the station leaves JOINING for the mode of R3, and in
REDUCED that mode becomes its return mode (R17). -/
def Obligations.JoinListenEnds : Prop :=
  ∀ (s : State) (d : Nat), Sound s → s.join.listenTimer = some d →
    ∃ t, exec .joinListenExpiry s = .next t ∧ t.now = max s.now d ∧ t.peers = s.peers
      ∧ (s.peers.links ≠ [] → availableOf s = [] →
          t.body = { s with
            now := max s.now d, join.state := .waitingForLink, join.listenTimer := none }.body)
      ∧ (s.peers.links = [] ∨ availableOf s ≠ [] → JoinEnded s t)

/-! ### The deck commands -/

/-- START in STANDING with every linked neighbour available, nothing latched, no HOLD-class condition and
a layer in the stack is taken: CLIMBING with its ramp at 0 and the first plan due at once, or PAUSED at a
segment that waits. Each precondition that fails refuses it with its own cause, as does a mode without
deck commands; in the other modes and to another address it is ignored. -/
def Obligations.StartTakenOrRefused : Prop :=
  ∀ (s : State) (sender : BitVec 6) (target argument : Byte), Sound s →
    let available : Prop := ∀ n ∈ s.peers.links, ∃ p ∈ s.peers.records,
      p.number = n ∧ p.liveness = .live ∧ p.height.isSome = true
    let refused (c : RefusalCause) : Prop :=
      ∃ t, exec (.start sender target argument) s = .next t
        ∧ t.body = { s with ctl.refusal := some c }.body
        ∧ t.line.report = s.line.report.request .urgent
    let ignored : Prop :=
      ∃ t, exec (.start sender target argument) s = .next t ∧ t.body = s.body
        ∧ t.line.report = s.line.report
    (addressed s sender target = false → ignored)
      ∧ (addressed s sender target = true →
          (s.ctl.mode ∈ [.setup, .locked, .joining, .reduced] → refused .notReady)
            ∧ (s.ctl.mode ∈ [.climbing, .paused, .stopped, .topped] → ignored)
            ∧ (s.ctl.mode = .standing →
              (¬ available → refused .neighbour)
                ∧ (available → s.sup.latched ≠ [] ∨ s.holdPresent = true → refused .fault)
                ∧ (available → s.sup.latched = [] → s.holdPresent = false →
                    s.stack.layers = [] → refused .stackEmpty)
                ∧ (available → s.sup.latched = [] → s.holdPresent = false →
                    s.stack.layers ≠ [] →
                    ∃ t, exec (.start sender target argument) s = .next t
                      ∧ t.body = { s with
                          ctl := { s.ctl with
                            mode := if waitingSegment s = none then .climbing else .paused
                            pause := ⟨false, false, false, waitingSegment s⟩
                            refusal := none }
                          plan.ramp := 0
                          seq.cycleTimer := some s.now
                          seq.expiryHeld := false }.body
                      ∧ t.line.report = s.line.report.request .urgent)))

/-- STOP takes CLIMBING and PAUSED to STANDING with the cycle timer stopped and the plan record cleared;
PAUSE adds OPERATOR and takes CLIMBING to PAUSED. Both leave the channels, the stack and the feed as they
are, and do nothing in another mode. RATE SCALE sets the rate scale, clamped to 150, in the modes that
take deck commands. -/
def Obligations.StopPauseAndRate : Prop :=
  ∀ (s : State) (sender : BitVec 6) (target argument : Byte), Sound s →
    addressed s sender target = true →
    (∃ t, exec (.stop sender target argument) s = .next t
        ∧ (s.ctl.mode.climbs = true →
            t.body = { s with
                ctl := { s.ctl with mode := .standing, pause := ⟨false, false, false, none⟩ }
                plan.last := ⟨0, none, .none, false, none, ⟨0, 0, 0, 0⟩⟩
                seq.cycleTimer := none
                seq.expiryHeld := false }.body
              ∧ t.line.report = s.line.report.request .urgent)
        ∧ (s.ctl.mode.climbs = false → t.body = s.body ∧ t.line.report = s.line.report))
      ∧ (∃ t, exec (.pause sender target argument) s = .next t
        ∧ (s.ctl.mode = .climbing →
            t.body = { s with
                ctl := { s.ctl with mode := .paused, pause := ⟨true, false, false, none⟩ } }.body
              ∧ t.line.report = s.line.report.request .urgent)
        ∧ (s.ctl.mode = .paused →
            t.body = { s with ctl.pause.operator := true }.body
              ∧ t.line.report = s.line.report)
        ∧ (s.ctl.mode.climbs = false → t.body = s.body ∧ t.line.report = s.line.report))
      ∧ (∃ t, exec (.rateScale sender target argument) s = .next t
        ∧ t.line.report = s.line.report
        ∧ (s.ctl.mode ∈ [.standing, .climbing, .paused, .stopped, .topped] →
            t.body = { s with ctl.rateScale := min 150 argument.toNat }.body)
        ∧ (s.ctl.mode ∈ [.setup, .locked, .joining, .reduced] → t.body = s.body))

/-- RESUME 0 removes OPERATOR; RESUME k, from 2 to 8, releases the segment waited at and no other, and the
next waiting segment joins at once. When the last member leaves, the station climbs with its ramp at 0.
Where the set empties but the next segment waits, it settles in PAUSED, with the ramp at 0 and a report
requested all the same (notes/assumptions/18.md). Any other argument does nothing. -/
def Obligations.ResumeReleases : Prop :=
  ∀ (s : State) (sender : BitVec 6) (target argument : Byte), Sound s →
    addressed s sender target = true →
    let k := argument.toNat
    let p := s.ctl.pause
    let others : Prop := p.operator = true ∨ p.faultHold = true ∨ p.rejoin = true
    ∃ t, exec (.resume sender target argument) s = .next t
      ∧ (s.ctl.mode = .paused → k = 0 → p.operator = true →
          (p.faultHold = true ∨ p.rejoin = true ∨ p.segment ≠ none →
              t.body = { s with ctl.pause.operator := false }.body
                ∧ t.line.report = s.line.report)
            ∧ (p.faultHold = false → p.rejoin = false → p.segment = none →
              t.body = { s with
                  ctl := { s.ctl with mode := .climbing, pause := ⟨false, false, false, none⟩ }
                  plan.ramp := 0 }.body
                ∧ t.line.report = s.line.report.request .urgent))
      ∧ (s.ctl.mode = .paused → 2 ≤ k → k ≤ 8 → p.segment = some k →
          let released := [2, 3, 4, 5, 6, 7, 8].filter fun j =>
            j == k || s.ctl.released.contains j
          let next := waitingSegment { s with ctl.released := released }
          next ≠ some k
            ∧ (others →
              t.body = { s with
                  ctl := { s.ctl with released := released, pause.segment := next } }.body
                ∧ t.line.report = s.line.report)
            ∧ (¬ others →
              t.body = { s with
                  ctl := { s.ctl with
                    released := released
                    mode := if next = none then .climbing else .paused
                    pause := ⟨false, false, false, next⟩ }
                  plan.ramp := 0 }.body
                ∧ t.line.report = s.line.report.request .urgent))
      ∧ (s.ctl.mode ≠ .paused ∨ (k = 0 ∧ p.operator = false) ∨ k = 1 ∨ 8 < k
            ∨ (2 ≤ k ∧ p.segment ≠ some k) →
          t.body = s.body ∧ t.line.report = s.line.report)

/-! ### The supervisor -/

/-- CLEAR, and a local clear held low for 50 ms, unlatch every entry but HALT LOOP whose condition is
absent, JACK SPREAD being withdrawn first outside CLIMBING and PAUSED, whatever its class, with every other
condition as it was; a change of the fault set makes an urgent request; HALT LOOP unlatches with the loop
released and waits 2 s otherwise; the channels whose entries went leave FAULT by their last reading, in the
order of notes/assumptions/17.md; and a STOPPED station whose latched set becomes empty stands again
(notes/assumptions/8.md). A CLEAR that finds nothing latched and nothing to withdraw changes nothing and
makes no report. -/
def Obligations.ClearUnlatchesAbsent : Prop :=
  ∀ (s : State) (sender : BitVec 6) (target argument : Byte) (low : Nat), Sound s →
    s.ctl.mode.takesCommands = true → addressed s sender target = true → 50 ≤ low →
    let kept (c : Cond) : Bool :=
      if c = .haltLoop then s.sup.loopSensed
      else s.isPresent c && !(c == .jackSpread && !s.ctl.mode.climbs)
    let held (ls : List Cond) (ch : Ch) : Bool :=
      ls.contains (.transducer ch) || ls.contains (.retractTimeout ch)
    ∃ t, exec (.clear sender target argument) s = .next t
      ∧ exec (.localClear low) s = .next t
      ∧ t.sup.latched = s.sup.latched.filter kept
      ∧ t.isPresent .jackSpread = (s.isPresent .jackSpread && s.ctl.mode.climbs)
      ∧ (∀ e, e ≠ .jackSpread → t.isPresent e = s.isPresent e)
      ∧ t.sup.drive = (t.sup.latched.any fun c => s.classOf c == .trip)
      ∧ t.line.report
          = (if t.isPresent .jackSpread = s.isPresent .jackSpread
                ∧ t.sup.latched = s.sup.latched ∧ t.sup.clearPending = s.sup.clearPending then
              s.line.report
            else s.line.report.request .urgent)
      ∧ t.now = s.now ∧ t.seq.height = s.seq.height ∧ t.seq.strokeCount = s.seq.strokeCount
      ∧ t.stack = s.stack ∧ t.cure = s.cure ∧ t.peers = s.peers ∧ t.plan = s.plan
      ∧ t.feed.gate = s.feed.gate ∧ t.feed.depth = s.feed.depth
      ∧ (s.isLatched .haltLoop = true →
          (s.sup.loopSensed = true →
              t.sup.clearPending = true ∧ t.sup.clearTimer = some (s.now + 2000)
                ∧ t.sup.haltCause = s.sup.haltCause)
            ∧ (s.sup.loopSensed = false →
              t.sup.clearPending = false ∧ t.sup.clearTimer = none ∧ t.sup.haltCause = none))
      ∧ t.ctl = { s.ctl with
          mode := if s.ctl.mode = .stopped ∧ s.sup.latched ≠ [] ∧ t.sup.latched = [] then
              (if atTop s = true then .topped else .standing)
            else s.ctl.mode }
      ∧ (s.sup.latched = [] → s.isPresent .jackSpread = false ∨ s.ctl.mode.climbs = true →
          t.body = s.body ∧ t.line.report = s.line.report)
      ∧ (∀ ch ∈ Ch.all,
          let c := s.chan ch
          let freed : Prop := c.state = .fault ∧ held s.sup.latched ch = true
            ∧ held t.sup.latched ch = false
          (¬ freed → t.chan ch = c)
            ∧ (freed → (t.chan ch).climbed = c.climbed ∧ (t.chan ch).x = c.x
              ∧ (if s.inhibitInput = true then StandsShut .inhibited (t.chan ch)
                else if c.readingValid = false then StandsShut .fault (t.chan ch)
                else if s.setup.home < c.x.getD 0 then
                  RetractionBegun s.setup s.now false (t.chan ch)
                else StandsShut .rest (t.chan ch))))

/-- Another station's SETUP REQUEST and a discarded frame change nothing, nor does a local clear shorter
than 50 ms. A deck command from a sender below 60, or to a target that is neither 0 nor the own number,
changes nothing, and in SETUP, LOCKED, JOINING and REDUCED none does but START. A SETUP COMMIT outside SETUP,
or from a sender below 60 or to another target, is ignored. An event whose timer does not
run or whose condition does not hold changes nothing either (notes/assumptions/1.md). -/
def Obligations.CommandsWithoutEffect : Prop :=
  ∀ (s : State) (sender : BitVec 6) (target argument : Byte) (low : Nat), Sound s →
    (∀ payload : BitVec 40, ∃ t, exec (.peerSetupRequest sender payload) s = .next t
          ∧ t.body = s.body ∧ t.line.report = s.line.report ∧ t.join = s.join)
      ∧ (∀ frame : RxFrame, ∃ t, exec (.frameDiscarded frame) s = .next t ∧ t.body = s.body
          ∧ t.line.report = s.line.report ∧ t.join = s.join)
      ∧ (low < 50 ∨ s.ctl.mode ∈ [.setup, .locked, .joining, .reduced] →
        ∃ t, exec (.localClear low) s = .next t ∧ t.body = s.body
          ∧ t.line.report = s.line.report)
      ∧ (addressed s sender target = false
            ∨ s.ctl.mode ∈ [.setup, .locked, .joining, .reduced] →
        ∃ t, exec (.clear sender target argument) s = .next t ∧ t.body = s.body
          ∧ t.line.report = s.line.report)
      ∧ (sender.toNat < 60 ∨ (target.toNat ≠ 0 ∧ target.toNat ≠ s.join.ownNumber) →
        ∀ c ∈ [Instr.start sender target argument, .stop sender target argument,
            .pause sender target argument, .resume sender target argument,
            .clear sender target argument, .rateScale sender target argument,
            .feedHold sender target argument],
          ∃ t, exec c s = .next t ∧ t.body = s.body ∧ t.line.report = s.line.report)
      ∧ (s.ctl.mode ≠ .setup ∨ sender.toNat < 60
            ∨ (target.toNat ≠ 0 ∧ target.toNat ≠ s.join.ownNumber) →
        ∀ check : Byte, ∃ t, exec (.setupCommit sender target check) s = .next t
          ∧ t.body = s.body ∧ t.line.report = s.line.report)
      ∧ (s.ctl.mode ∈ [.setup, .locked, .joining, .reduced] →
        ∀ c ∈ [Instr.stop sender target argument, .pause sender target argument,
            .resume sender target argument, .clear sender target argument,
            .rateScale sender target argument, .feedHold sender target argument],
          ∃ t, exec c s = .next t ∧ t.body = s.body ∧ t.line.report = s.line.report)
      ∧ ∀ (ch : Ch), ∀ e ∈ ([
            (s.join.windowTimer.isNone, .windowExpiry),
            (s.join.requestTimer.isNone, .setupRequestTimerExpiry),
            (s.join.listenTimer.isNone, .joinListenExpiry),
            (s.seq.cycleTimer.isNone, .cycleTimerExpiry),
            (!s.seq.expiryHeld || !allAtRest s, .cycleCompletion),
            (!s.setup.banked || !bankAReady s || !bankBWaiting s, .bankBStart),
            ((s.chan ch).deferred.isNone, .deferredValveOpening ch),
            ((s.chan ch).strokeTimer.isNone || (s.chan ch).state != .extend, .tExtExpiry ch),
            ((s.chan ch).strokeTimer.isNone || (s.chan ch).state != .hold, .holdEnd ch),
            ((s.chan ch).strokeTimer.isNone || (s.chan ch).state != .retract
              || (s.chan ch).blind, .tRetExpiry ch),
            ((s.chan ch).strokeTimer.isNone || (s.chan ch).state != .retract
              || !(s.chan ch).blind, .blindRetractionEnd ch),
            (s.feed.blankTimer.isNone, .blankTimerExpiry),
            (s.feed.settleTimer.isNone, .settleTimerExpiry),
            (s.feed.feedTimer.isNone, .feedTimerExpiry),
            (!attempting s, .arbitrationLost), (!attempting s, .transmitError),
            (!attempting s, .sentWhole), (attempting s, .lineIdle),
            (s.line.muteTimer.isNone, .muteTimerExpiry),
            (s.line.busyTimer.isNone, .busyLineTimerExpiry),
            (s.sup.clearTimer.isNone, .clearPendingTimerExpiry),
            (s.sup.crystalTimer.isNone, .crystalRunTimerExpiry),
            (s.sup.loopSensed, .haltLoopSensedAsserted),
            (!s.sup.loopSensed, .haltLoopSensedReleased),
            (s.sup.supplyLow, .supplyLow), (!s.sup.supplyLow, .supplyRecovery),
            (s.inhibitInput, .inhibitAsserted),
            (!s.inhibitInput, .inhibitReleased)] : List (Bool × Instr)),
          e.1 = true →
          ∃ t, exec e.2 s = .next t ∧ t.body = s.body ∧ t.line.report = s.line.report

/-- The halt loop sensed asserted latches HALT LOOP with its cause, stops a working station and cuts its
extensions; sensed released it ends the condition and, under a pending clear, unlatches the entry; the
clear pending timer's end lets the mark lapse with the entry still latched. A release in REDUCED that empties
the latched set leaves a return mode of STOPPED as it is (notes/assumptions/8.md). -/
def Obligations.HaltLoopSensed : Prop :=
  ∀ (s : State) (d : Nat), Sound s →
    (s.sup.loopSensed = false →
        ∃ t, exec .haltLoopSensedAsserted s = .next t ∧ t.sup.loopSensed = true
          ∧ t.isPresent .haltLoop = true ∧ t.isLatched .haltLoop = true
          ∧ t.sup.drive = s.sup.drive ∧ t.sup.clearPending = s.sup.clearPending
          ∧ t.now = s.now ∧ t.cure = s.cure ∧ t.peers = s.peers
          ∧ t.seq.height = s.seq.height ∧ t.stack.layers = s.stack.layers
          ∧ (s.isLatched .haltLoop = true →
              t.sup.haltCause = s.sup.haltCause ∧ t.ctl = s.ctl ∧ t.seq = s.seq
                ∧ t.feed = s.feed)
          ∧ (s.isLatched .haltLoop = false →
              t.sup.haltCause = some (if s.sup.drive = true then .self else .other)
                ∧ t.ctl.mode = (if s.ctl.mode.works = true then .stopped else s.ctl.mode)
                ∧ t.line.report = s.line.report.request .urgent
                ∧ t.feed.gate = (s.feed.gate && !s.ctl.mode.works)
                ∧ (s.ctl.mode = .reduced → t.ctl.returnMode
                  = if s.effectiveMode.works = true then some .stopped else s.ctl.returnMode)
                ∧ ∀ ch ∈ Ch.all,
                  CutByLatch s.setup s.now (s.chan ch) (t.chan ch)))
      ∧ (s.sup.loopSensed = true →
          ∃ t, exec .haltLoopSensedReleased s = .next t
            ∧ (s.sup.clearPending = false →
                t.body = { s with
                  sup.loopSensed := false
                  sup.present := s.sup.present.filter (· != Cond.haltLoop) }.body)
            ∧ (s.sup.clearPending = true →
                t.isPresent .haltLoop = false
                  ∧ t.sup.latched = s.sup.latched.filter (· != .haltLoop)
                  ∧ t.sup.haltCause = none ∧ t.sup.clearPending = false
                  ∧ t.sup.clearTimer = none ∧ t.sup.drive = s.sup.drive
                  ∧ t.seq = s.seq ∧ t.stack = s.stack ∧ t.cure = s.cure ∧ t.peers = s.peers
                  ∧ t.ctl = { s.ctl with
                      mode := if s.ctl.mode = .stopped ∧ t.sup.latched = [] then
                          (if atTop s = true then .topped else .standing)
                        else s.ctl.mode }))
      ∧ (s.sup.clearTimer = some d →
          ∃ t, exec .clearPendingTimerExpiry s = .next t
            ∧ t.body = { s with
                now := max s.now d, sup.clearPending := false, sup.clearTimer := none }.body)

/-- SUPPLY LOW takes the station to REDUCED with its mode as the return mode: the plan record is cleared,
the cycle timer stops, the gate closes, an attempt is cut, every moving channel is credited and rests
with its valves closed. The height is the mean of what they have climbed, the layers at or below it leave,
and the return mode is the mode found where nothing latches; no entry check is made
(notes/assumptions/9.md), and the blank timer starts as the motion or the flow ends. The recovery returns by the pause-cause set with the ramp at 0, and begins the
retractions of the channels that rest above home or with an invalid reading, one that was never read since a
restore among them (notes/assumptions/13.md), by the last reading alone (notes/assumptions/34.md). -/
def Obligations.SupplyFallsAndReturns : Prop :=
  ∀ s : State, Sound s →
    (s.sup.supplyLow = false →
        ∃ t, exec .supplyLow s = .next t ∧ t.ctl.mode = .reduced
          ∧ t.isPresent .supplyLow = true ∧ t.sup.supplyLow = true ∧ t.now = s.now
          ∧ t.plan.last = ⟨0, none, .none, false, none, ⟨0, 0, 0, 0⟩⟩
          ∧ t.seq.cycleTimer = none ∧ t.seq.expiryHeld = false
          ∧ t.feed.state = .idle ∧ t.feed.gate = false ∧ t.line.frame = none
          ∧ t.line.report.isPending = true ∧ t.line.setupRequest ≠ .sending
          ∧ t.cure = s.cure ∧ t.peers = s.peers ∧ BlankFollows s t s.now
          ∧ (∀ ch ∈ Ch.all,
              let c := s.chan ch
              ((t.chan ch).climbed : Int)
                  = (if c.state = .extend ∨ c.state = .hold then
                      min 2000000 ((c.climbed : Int)
                        + max 0 ((c.xPeak : Int) - s.setup.jawLoss))
                    else c.climbed)
                ∧ (c.state ∈ [.rest, .extend, .hold, .retract] →
                  StandsShut .rest (t.chan ch) ∧ (t.chan ch).startPending = false)
                ∧ (c.state ∈ [.off, .inhibited, .fault] → t.chan ch = c))
          ∧ (s.heightSet = true → t.seq.height = meanOf (activeHeights t.seq.chans))
          ∧ t.stack.layers = s.stack.layers.dropWhile (fun l => decide (l.top ≤ t.seq.height))
          ∧ t.stack.concreteTop = s.stack.concreteTop ∧ t.seq.strokeCount = s.seq.strokeCount
          ∧ (t.sup.latched = s.sup.latched → t.ctl.returnMode = some s.ctl.mode)
          ∧ (t.sup.latched ≠ s.sup.latched →
              t.ctl.returnMode = some (if s.ctl.mode.works = true then .stopped else s.ctl.mode))
          ∧ ((∀ ch ∈ Ch.all, (s.chan ch).inStroke = false) →
              t.ctl = { s.ctl with mode := .reduced, returnMode := some s.ctl.mode }
                ∧ t.stack.layers = s.stack.layers ∧ t.seq.height = s.seq.height
                ∧ t.sup.latched = s.sup.latched))
      ∧ (s.sup.supplyLow = true →
          ∃ t, exec .supplyRecovery s = .next t ∧ t.isPresent .supplyLow = false
            ∧ t.sup.supplyLow = false ∧ t.plan.ramp = 0 ∧ t.ctl.returnMode = none
            ∧ t.now = s.now ∧ t.cure = s.cure ∧ t.peers = s.peers ∧ t.stack = s.stack
            ∧ t.seq.height = s.seq.height ∧ t.sup.latched = s.sup.latched
            ∧ t.line.report.isPending = true
            ∧ (s.effectiveMode.works = false → t.ctl.mode = s.effectiveMode)
            ∧ (s.effectiveMode.works = true → atTop s = true → t.ctl.mode = .topped)
            ∧ (s.effectiveMode = .standing → atTop s = false → t.ctl.mode = .standing)
            ∧ (s.effectiveMode.climbs = true → atTop s = false →
                t.ctl.pause = { s.ctl.pause with
                    segment := if s.ctl.pause.segment = none then waitingSegment s
                      else s.ctl.pause.segment }
                  ∧ t.ctl.mode = (if t.ctl.pause = ⟨false, false, false, none⟩ then .climbing
                    else .paused)
                  ∧ t.seq.cycleTimer = some s.now)
            ∧ (∀ ch ∈ Ch.all,
                let c := s.chan ch
                (t.chan ch).climbed = c.climbed
                  ∧ (c.state ≠ .rest → t.chan ch = c)
                  ∧ (c.state = .rest →
                    if c.readingValid = false then
                      RetractionBegun s.setup s.now true (t.chan ch)
                    else if s.setup.home < c.x.getD 0 then
                      RetractionBegun s.setup s.now false (t.chan ch)
                    else StandsShut .rest (t.chan ch))))

/-- The crystal's stopping puts the time base on the internal oscillator with CLOCK FALLBACK present; in
fallback a cycle seen starts the 10 s run, which a stop breaks off and whose end returns to the crystal.
With CLOCK FALLBACK of class HOLD its onset pauses a climbing station by FAULT HOLD, and its end, as the last
HOLD-class condition, releases it. No other timer changes. -/
def Obligations.TimeBaseFollowsCrystal : Prop :=
  ∀ (s : State) (d : Nat), Sound s →
    let same (t : State) : Prop :=
      t.seq = s.seq ∧ t.stack = s.stack ∧ t.cure = s.cure ∧ t.feed = s.feed ∧ t.peers = s.peers
        ∧ t.join.listenTimer = s.join.listenTimer ∧ t.join.windowTimer = s.join.windowTimer
        ∧ t.join.requestTimer = s.join.requestTimer ∧ t.line.muteTimer = s.line.muteTimer
        ∧ t.line.reportTimer = s.line.reportTimer ∧ t.sup.clearTimer = s.sup.clearTimer
        ∧ t.sup.latched = s.sup.latched
    let followed (t : State) : Prop :=
      t.ctl = { s.ctl with
        mode := if s.ctl.mode = .climbing ∧ t.holdPresent = true then .paused
          else if s.ctl.mode = .paused ∧ t.ctl.pause = ⟨false, false, false, none⟩ then .climbing
          else s.ctl.mode
        pause := { s.ctl.pause with faultHold := s.effectiveMode.climbs && t.holdPresent } }
    (∃ t, exec .crystalStopped s = .next t ∧ same t ∧ t.now = s.now
        ∧ t.sup.onCrystal = false ∧ t.sup.crystalTimer = none
        ∧ t.isPresent .clockFallback = true
        ∧ followed t ∧ (s.classOf .clockFallback = .hold → t.holdPresent = true)
        ∧ (s.sup.onCrystal = false →
            t.body = { s with sup.crystalTimer := none }.body ∧ t.line.report = s.line.report))
      ∧ (∃ t, exec .crystalCycleSeen s = .next t ∧ t.line.report = s.line.report
        ∧ t.body = (if s.sup.onCrystal = false ∧ s.sup.crystalTimer = none then
            { s with sup.crystalTimer := some (s.now + 10000) } else s).body)
      ∧ (s.sup.crystalTimer = some d →
          ∃ t, exec .crystalRunTimerExpiry s = .next t ∧ same t ∧ t.now = max s.now d
            ∧ t.sup.onCrystal = true ∧ t.sup.crystalTimer = none
            ∧ t.isPresent .clockFallback = false
            ∧ followed t
            ∧ t.holdPresent = (s.sup.present.any fun e =>
                e != .clockFallback && s.classOf e == .hold && s.effective e))
end

