-- ==== Sys2Proof/Laws/Channels.lean ====
section
/-! SUPPORT. What each operation on one channel leaves, as a record, and that each keeps the law of the
valves (R82). -/

namespace Sys2Proof.Machine

/-! ### The records -/

theorem Channel.shut_eq (now : Nat) (c : Channel) :
    c.shut now
      = { c with
          pressureOpen := false
          dumpOpen := false
          pressureClosed := if c.pressureOpen = true then now else c.pressureClosed
          dumpClosed := if c.dumpOpen = true then now else c.dumpClosed
          strokeTimer := none
          deferred := none } := by
  obtain ⟨st, cl, ta, sp, x, rv, xp, bl, po, dp, pc, dc, tm, df, ho⟩ := c
  cases po <;> cases dp <;> rfl

theorem Channel.stand_eq (st : ChState) (now : Nat) (c : Channel) :
    c.stand st now = { c.shut now with state := st, blind := false, homing := .none } := rfl

theorem Channel.halt_eq (st : ChState) (now : Nat) (c : Channel) :
    c.halt st now = { c.stand st now with startPending := false } := rfl

theorem Channel.toHold_eq (r : SetupRecord) (now : Nat) (c : Channel) :
    c.toHold r now
      = { c.shut now with state := .hold, strokeTimer := some (now + r.deadTime) } := rfl

/-- A retraction begins with the dump valve open where the dead time has run, and deferred otherwise. -/
theorem Channel.toRetract_eq (r : SetupRecord) (now : Nat) (blind : Bool) (c : Channel) :
    c.toRetract r now blind
      = (let d : Channel :=
          { c.shut now with state := .retract, blind := blind, homing := .none }
        if d.pressureClosed + r.deadTime ≤ now then
          { d with
            dumpOpen := true, deferred := none, strokeTimer := some (now + r.retractTime) }
        else { d with deferred := some (d.pressureClosed + r.deadTime), strokeTimer := none }) := rfl

/-- An extension begins with the pressure valve open where the dead time has run, and deferred
otherwise. -/
theorem Channel.toExtend_eq (r : SetupRecord) (now : Nat) (c : Channel) :
    c.toExtend r now
      = (let d : Channel :=
          { c with state := .extend, startPending := false, xPeak := c.x.getD 0, blind := false }
        if c.dumpClosed + r.deadTime ≤ now then
          { d with
            pressureOpen := true, deferred := none, strokeTimer := some (now + r.extendTime) }
        else { d with deferred := some (c.dumpClosed + r.deadTime), strokeTimer := none }) := rfl

@[simp] theorem Channel.shut_pressureOpen (now : Nat) (c : Channel) :
    (c.shut now).pressureOpen = false := by
  rw [Channel.shut_eq]

@[simp] theorem Channel.shut_dumpOpen (now : Nat) (c : Channel) : (c.shut now).dumpOpen = false := by
  rw [Channel.shut_eq]

@[simp] theorem Channel.shut_climbed (now : Nat) (c : Channel) : (c.shut now).climbed = c.climbed := by
  rw [Channel.shut_eq]

@[simp] theorem Channel.stand_climbed (st : ChState) (now : Nat) (c : Channel) :
    (c.stand st now).climbed = c.climbed := by
  rw [Channel.stand_eq, Channel.shut_eq]

@[simp] theorem Channel.halt_climbed (st : ChState) (now : Nat) (c : Channel) :
    (c.halt st now).climbed = c.climbed := by
  rw [Channel.halt_eq, Channel.stand_eq, Channel.shut_eq]

@[simp] theorem Channel.toHold_climbed (r : SetupRecord) (now : Nat) (c : Channel) :
    (c.toHold r now).climbed = c.climbed := by
  rw [Channel.toHold_eq, Channel.shut_eq]

@[simp] theorem Channel.toRetract_climbed (r : SetupRecord) (now : Nat) (b : Bool) (c : Channel) :
    (c.toRetract r now b).climbed = c.climbed := by
  rw [Channel.toRetract_eq]; dsimp only; split <;> exact Channel.shut_climbed now c

@[simp] theorem Channel.toExtend_climbed (r : SetupRecord) (now : Nat) (c : Channel) :
    (c.toExtend r now).climbed = c.climbed := by
  rw [Channel.toExtend_eq]; dsimp only; split <;> rfl

@[simp] theorem Channel.cut_climbed (r : SetupRecord) (now : Nat) (c : Channel) :
    (Channel.cut r now c).climbed = c.climbed := by
  unfold Channel.cut; dsimp only; split <;> simp

@[simp] theorem Channel.decideHome_climbed (r : SetupRecord) (now : Nat) (c : Channel) :
    (c.decideHome r now).climbed = c.climbed := by
  unfold Channel.decideHome; split
  · simp
  · split <;> simp

@[simp] theorem Channel.startDue_climbed (r : SetupRecord) (now : Nat) (c : Channel) :
    (c.startDue r now).climbed = c.climbed := by
  unfold Channel.startDue; split
  · simp
  · split <;> simp

/-- A credit adds the peak extension less JAW_LOSS, up to 200 m. -/
theorem Channel.credited_climbed (r : SetupRecord) (c : Channel) :
    (Channel.credited r c).climbed = min Config.heightMax (c.climbed + (c.xPeak - r.jawLoss)) := rfl

/-! ### The law of the valves -/

/-- Both valves shut and nothing timed or deferred, in a state that needs neither. -/
theorem valves_stand {r : SetupRecord} {now : Nat} {c : Channel} (h : ChannelValves r now c)
    (st : ChState) (he : st ≠ .extend) (hr : st ≠ .retract) (hh : st ≠ .hold) :
    ChannelValves r now (c.stand st now) := by
  obtain ⟨-, -, -, -, -, -, -, hp, hd⟩ := h
  rw [Channel.stand_eq, Channel.shut_eq]
  refine ⟨by simp, by simp, by simp, ?_, ?_, by simp, ?_, ?_, ?_⟩
  · intro k; exact absurd k he
  · intro k; exact absurd k hr
  · simp [hh]
  · dsimp only; split <;> omega
  · dsimp only; split <;> omega

theorem valves_halt {r : SetupRecord} {now : Nat} {c : Channel} (h : ChannelValves r now c)
    (st : ChState) (he : st ≠ .extend) (hr : st ≠ .retract) (hh : st ≠ .hold) :
    ChannelValves r now (c.halt st now) :=
  valves_stand h st he hr hh

theorem valves_toHold {r : SetupRecord} {now : Nat} {c : Channel} (h : ChannelValves r now c) :
    ChannelValves r now (c.toHold r now) := by
  obtain ⟨-, -, -, -, -, -, -, hp, hd⟩ := h
  rw [Channel.toHold_eq, Channel.shut_eq]
  refine ⟨by simp, by simp, by simp, by simp, by simp, by simp, by simp, ?_, ?_⟩
  · dsimp only; split <;> omega
  · dsimp only; split <;> omega

theorem valves_toRetract {r : SetupRecord} {now : Nat} {c : Channel} (h : ChannelValves r now c)
    (b : Bool) : ChannelValves r now (c.toRetract r now b) := by
  obtain ⟨-, -, -, -, -, -, -, hp, hd⟩ := h
  rw [Channel.toRetract_eq]
  have po := Channel.shut_pressureOpen now c
  have dpo := Channel.shut_dumpOpen now c
  have hp' : (c.shut now).pressureClosed ≤ now := by rw [Channel.shut_eq]; dsimp only; split <;> omega
  have hd' : (c.shut now).dumpClosed ≤ now := by rw [Channel.shut_eq]; dsimp only; split <;> omega
  generalize c.shut now = e at *
  dsimp only
  split
  · rename_i k
    exact ⟨by simp [po], by simp [po], fun _ => ⟨rfl, k⟩, by simp, by simp, by simp, by simp, hp', hd'⟩
  · exact ⟨by simp [po], by simp [po], by simp [dpo], by simp, by simp [dpo], by simp,
      by simp [po, dpo], hp', hd'⟩

/-- A start is made from REST, where both valves stand closed. -/
theorem valves_toExtend {r : SetupRecord} {now : Nat} {c : Channel} (h : ChannelValves r now c)
    (hs : c.state = .rest) : ChannelValves r now (c.toExtend r now) := by
  obtain ⟨-, hpo, hdo, -, -, hdf, htm, hp, hd⟩ := h
  have po : c.pressureOpen = false := by
    cases k : c.pressureOpen
    · rfl
    · exact absurd (hpo k).1 (by simp [hs])
  have dpo : c.dumpOpen = false := by
    cases k : c.dumpOpen
    · rfl
    · exact absurd (hdo k).1 (by simp [hs])
  rw [Channel.toExtend_eq]
  dsimp only
  split
  · rename_i k
    exact ⟨by simp [dpo], fun _ => ⟨rfl, k⟩, by simp [dpo], by simp, by simp, by simp,
      by simp, hp, hd⟩
  · exact ⟨by simp [dpo], by simp [po], by simp [dpo], by simp [po], by simp, by simp,
      by simp [po, dpo], hp, hd⟩

theorem valves_cut {r : SetupRecord} {now : Nat} {c : Channel} (h : ChannelValves r now c) :
    ChannelValves r now (Channel.cut r now c) := by
  unfold Channel.cut
  dsimp only
  split
  · exact valves_toHold (c := { c with startPending := false }) h
  · exact h

theorem valves_decideHome {r : SetupRecord} {now : Nat} {c : Channel} (h : ChannelValves r now c) :
    ChannelValves r now (c.decideHome r now) := by
  unfold Channel.decideHome
  split
  · exact valves_toRetract h true
  · split
    · exact valves_toRetract h false
    · exact valves_stand h .rest (by decide) (by decide) (by decide)

theorem valves_startDue {r : SetupRecord} {now : Nat} {c : Channel} (h : ChannelValves r now c)
    (hs : c.state = .rest) : ChannelValves r now (c.startDue r now) := by
  unfold Channel.startDue
  split
  · exact valves_halt h .fault (by decide) (by decide) (by decide)
  · split
    · exact h
    · exact valves_toExtend h hs

theorem valves_openDeferred {r : SetupRecord} {now : Nat} {c : Channel}
    (h : ChannelValves r now c) {d : Nat} (hd : c.deferred = some d) (hn : d ≤ now) :
    ChannelValves r now (c.openDeferred r now) := by
  obtain ⟨hb, hpo, hdo, hx, hr, hdf, htm, hp, hq⟩ := h
  unfold Channel.openDeferred
  split
  · rename_i k
    have e := hx k; rw [hd] at e
    cases po : c.pressureOpen
    · rw [po] at e; simp only [Bool.false_eq_true, if_false, Option.some.injEq] at e
      have dpo : c.dumpOpen = false := by
        cases q : c.dumpOpen
        · rfl
        · exact absurd (hdo q).1 (by simp [k])
      exact ⟨by simp [dpo], fun _ => ⟨k, by simpa using (by omega : c.dumpClosed + r.deadTime ≤ now)⟩,
        by simp [dpo], by simp, by simp [k], by simp, by simp, hp, hq⟩
    · rw [po] at e; simp at e
  · rename_i k
    have e := hr k; rw [hd] at e
    cases dpo : c.dumpOpen
    · rw [dpo] at e; simp only [Bool.false_eq_true, if_false, Option.some.injEq] at e
      have po : c.pressureOpen = false := by
        cases q : c.pressureOpen
        · rfl
        · exact absurd (hpo q).1 (by simp [k])
      exact ⟨by simp [po], by simp [po],
        fun _ => ⟨k, by simpa using (by omega : c.pressureClosed + r.deadTime ≤ now)⟩,
        by simp [k], by simp, by simp, by simp, hp, hq⟩
    · rw [dpo] at e; simp at e
  · exact ⟨hb, hpo, hdo, hx, hr, hdf, htm, hp, hq⟩

/-- Time passing keeps the law. -/
theorem valves_later {r : SetupRecord} {now later : Nat} {c : Channel} (h : ChannelValves r now c)
    (hl : now ≤ later) : ChannelValves r later c := by
  obtain ⟨hb, hpo, hdo, hx, hr, hdf, htm, hp, hq⟩ := h
  exact ⟨hb, fun k => ⟨(hpo k).1, le_trans (hpo k).2 hl⟩, fun k => ⟨(hdo k).1, le_trans (hdo k).2 hl⟩,
    hx, hr, hdf, htm, le_trans hp hl, le_trans hq hl⟩

/-! ### The four channels -/

@[simp] theorem PerChannel.get_set {α : Type} (p : PerChannel α) (c d : Ch) (a : α) :
    (p.set c a).get d = if d = c then a else p.get d := by
  cases c <;> cases d <;> rfl

@[simp] theorem PerChannel.get_map {α β : Type} (f : α → β) (p : PerChannel α) (c : Ch) :
    (p.map f).get c = f (p.get c) := by
  cases c <;> rfl

@[simp] theorem PerChannel.get_ofFn {α : Type} (f : Ch → α) (c : Ch) :
    (PerChannel.ofFn f).get c = f c := by
  cases c <;> rfl

@[simp] theorem Ch.mem_all (c : Ch) : c ∈ Ch.all := by cases c <;> decide

/-- Some active channel moves: one of the four is in EXTEND, HOLD or RETRACT (R107). -/
theorem anyMoving_iff (s : State) :
    anyMoving s = true ↔ ∃ ch ∈ Ch.all, (s.chan ch).state ∈ [.extend, .hold, .retract] := by
  simp [anyMoving, State.chan, Ch.all, PerChannel.toList, PerChannel.get, or_assoc]

/-- What a latch does to a channel that keeps the valve law (R98). -/
theorem cut_follows {r : SetupRecord} {now : Nat} {c : Channel} (h : ChannelValves r now c) :
    CutByLatch r now c (Channel.cut r now c) := by
  have hp := h.2.1
  have hd := h.2.2.1
  by_cases e : c.state = .extend
  · have d : c.dumpOpen = false := by
      cases k : c.dumpOpen
      · rfl
      · exact absurd (hd k).1 (by simp [e])
    simp [CutByLatch, Channel.cut, Channel.toHold, Channel.shut_eq, e, d]
  · have p : c.pressureOpen = false := by
      cases k : c.pressureOpen
      · rfl
      · exact absurd (hp k).1 e
    simp [CutByLatch, Channel.cut, e, p]

@[simp] theorem updateCh_chan (c d : Ch) (f : Channel → Channel) (s : State) :
    (updateCh c f s).chan d = if d = c then f (s.chan c) else s.chan d := by
  cases c <;> cases d <;> rfl

@[simp] theorem updateAll_chan (d : Ch) (f : Channel → Channel) (s : State) :
    (updateAll f s).chan d = f (s.chan d) := by
  cases d <;> rfl

end Sys2Proof.Machine
end

