-- ==== Sys2Proof/Laws/Layers.lean ====
section
/-! SUPPORT. The operations on a list of layers keep it in order: the removal of exited layers (R56), a push
(R53), a merge (R54) and the addition of a cure rate (R58). -/

namespace Sys2Proof.Machine

theorem stacked_tail {l : Layer} {ls : List Layer} (h : stacked (l :: ls) = true) :
    stacked ls = true := by
  cases ls with
  | nil => rfl
  | cons m rest => simp only [stacked, Bool.and_eq_true] at h; exact h.2

theorem maturing_tail {l : Layer} {ls : List Layer} (h : maturing (l :: ls) = true) :
    maturing ls = true := by
  cases ls with
  | nil => rfl
  | cons m rest => simp only [maturing, Bool.and_eq_true] at h; exact h.2

/-- A part of the stack from some layer upward is in order. -/
theorem LayersOrdered.suffix {ls ms : List Layer} (h : LayersOrdered ls) (hs : ms <:+ ls) :
    LayersOrdered ms := by
  induction ls with
  | nil => rw [List.suffix_nil] at hs; subst hs; exact h
  | cons l rest ih =>
    rcases List.suffix_cons_iff.mp hs with e | e
    · subst e; exact h
    · refine ih ?_ e
      obtain ⟨h1, h2, h3, h4⟩ := h
      refine ⟨?_, stacked_tail h2, maturing_tail h3, ?_⟩
      · simp only [List.length_cons] at h1; omega
      · simp only [List.all_cons, Bool.and_eq_true] at h4; exact h4.2

theorem removeBelow_suffix (h : Nat) (ls : List Layer) : removeBelow h ls <:+ ls :=
  List.dropWhile_suffix _

/-- The removal keeps the order. -/
theorem removeBelow_ordered {ls : List Layer} (h : Nat) (ho : LayersOrdered ls) :
    LayersOrdered (removeBelow h ls) :=
  ho.suffix (removeBelow_suffix h ls)

/-- In an ordered stack every layer above one stands higher. -/
theorem stacked_above {l : Layer} {ls : List Layer} (h : stacked (l :: ls) = true) :
    ∀ m ∈ ls, l.top < m.top := by
  induction ls generalizing l with
  | nil => intro m hm; cases hm
  | cons k rest ih =>
    intro m hm
    have hb : k.bottom = l.top ∧ stacked (k :: rest) = true := by
      simp only [stacked, Bool.and_eq_true, beq_iff_eq] at h; exact ⟨h.1.2, h.2⟩
    have hk : k.bottom < k.top := by
      have := hb.2
      cases rest with
      | nil => simpa [stacked] using this
      | cons j js => simp only [stacked, Bool.and_eq_true, decide_eq_true_eq] at this; exact this.1.1
    rcases List.mem_cons.mp hm with e | e
    · subst e; omega
    · have := ih hb.2 m e; omega

/-- After the removal against `h` every layer's top lies above `h`. -/
theorem removeBelow_above {ls : List Layer} (h : Nat) (ho : stacked ls = true) :
    ∀ l ∈ removeBelow h ls, h < l.top := by
  induction ls with
  | nil => intro l hl; cases hl
  | cons k rest ih =>
    intro l hl
    unfold removeBelow at hl
    rw [List.dropWhile_cons] at hl
    split at hl
    · exact ih (stacked_tail ho) l hl
    · rename_i hk
      have hk : h < k.top := by simpa using hk
      rcases List.mem_cons.mp hl with e | e
      · subst e; exact hk
      · have := stacked_above ho l e; omega

/-- The addition of a rate changes maturities only and keeps the order. -/
theorem addMaturity_ordered {ls : List Layer} (r : Nat) (ho : LayersOrdered ls) :
    LayersOrdered (addMaturity r ls) := by
  obtain ⟨h1, h2, h3, h4⟩ := ho
  refine ⟨by simpa [addMaturity] using h1, ?_, ?_, ?_⟩
  · clear h1 h3 h4
    induction ls with
    | nil => rfl
    | cons l rest ih =>
      cases rest with
      | nil => simpa [addMaturity, stacked] using h2
      | cons m ms =>
        simp only [stacked, Bool.and_eq_true] at h2
        have := ih h2.2
        simp only [addMaturity, List.map_cons, stacked, Bool.and_eq_true] at this ⊢
        exact ⟨h2.1, this⟩
  · clear h1 h2 h4
    induction ls with
    | nil => rfl
    | cons l rest ih =>
      cases rest with
      | nil => rfl
      | cons m ms =>
        simp only [maturing, Bool.and_eq_true, decide_eq_true_eq] at h3
        have := ih h3.2
        simp only [addMaturity, List.map_cons, maturing, Bool.and_eq_true, decide_eq_true_eq]
          at this ⊢
        exact ⟨by have := h3.1; omega, this⟩
  · simp only [addMaturity, List.all_map, List.all_eq_true, Function.comp_apply] at h4 ⊢
    intro l hl
    have := h4 l hl
    simp only [layerInRange, Bool.and_eq_true, decide_eq_true_eq] at this ⊢
    exact ⟨this.1, Nat.min_le_left _ _⟩

/-- A layer pushed on the highest one keeps the order. -/
theorem push_ordered {ls : List Layer} {l : Layer} (ho : LayersOrdered ls)
    (hn : ls.length < Config.maxLayers) (hr : layerInRange l = true) (ht : l.bottom < l.top)
    (hb : ∀ m ∈ ls.getLast?, l.bottom = m.top) (hm : ∀ m ∈ ls.getLast?, l.maturity ≤ m.maturity) :
    LayersOrdered (ls ++ [l]) := by
  obtain ⟨-, h2, h3, h4⟩ := ho
  refine ⟨by simp only [List.length_append, List.length_singleton]; omega, ?_, ?_, ?_⟩
  · clear h3 h4 hn hm
    induction ls with
    | nil => simpa [stacked] using ht
    | cons k rest ih =>
      cases rest with
      | nil =>
        simp only [stacked, decide_eq_true_eq] at h2
        have e := hb k (by simp)
        simp [stacked, h2, e]
        omega
      | cons m ms =>
        simp only [stacked, Bool.and_eq_true] at h2
        have := ih (fun x hx => hb x (by simpa using hx)) h2.2
        simp only [List.cons_append, stacked, Bool.and_eq_true] at this ⊢
        exact ⟨h2.1, this⟩
  · clear h2 h4 hn hb ht hr
    induction ls with
    | nil => rfl
    | cons k rest ih =>
      cases rest with
      | nil => simpa [maturing] using hm k (by simp)
      | cons m ms =>
        simp only [maturing, Bool.and_eq_true] at h3
        have := ih (fun x hx => hm x (by simpa using hx)) h3.2
        simp only [List.cons_append, maturing, Bool.and_eq_true] at this ⊢
        exact ⟨h3.1, this⟩
  · simp [List.all_append, h4, hr]

/-- The highest layer rewritten: the same layers below, and it with the new top, minute and maturity 0. -/
theorem mergeTop_append (top placed : Nat) (ls : List Layer) (l : Layer) :
    mergeTop top placed (ls ++ [l]) = ls ++ [{ l with top := top, maturity := 0, placed := placed }] := by
  induction ls with
  | nil => rfl
  | cons k rest ih =>
    cases rest with
    | nil => rfl
    | cons m ms =>
      simp only [List.cons_append] at ih ⊢
      rw [mergeTop, ih]

@[simp] theorem mergeTop_length (top placed : Nat) (ls : List Layer) :
    (mergeTop top placed ls).length = ls.length := by
  rcases List.eq_nil_or_concat ls with h | ⟨init, l, h⟩
  · subst h; rfl
  · subst h; simp [mergeTop_append]

end Sys2Proof.Machine
end

