-- ==== Sys2Proof/Laws/LineCode.lean ====
section
/-! SUPPORT. The readback of a frame, said once: a matching stretch of the line is passed over, a bit time that
does not match ends the attempt, and a frame reads its own line as sent whole (R144 to R146). -/

namespace Sys2Proof.Machine

@[simp] theorem readbackAt_start (sent read : BitTime) : readbackAt 0 sent read = none := rfl

theorem readbackAt_field {i : Nat} (h : 1 ≤ i) (k : i ≤ 8) (sent read : BitTime) :
    readbackAt i sent read = fieldReadback sent read := by
  simp [readbackAt, k, Nat.one_le_iff_ne_zero.mp h]

theorem readbackAt_body {i : Nat} (h : 9 ≤ i) (sent read : BitTime) :
    readbackAt i sent read = bodyReadback sent read := by
  have h0 : i ≠ 0 := by omega
  have h8 : ¬ i ≤ 8 := by omega
  simp [readbackAt, h0, h8]

/-- A bit of the field matches where the two read alike. -/
theorem fieldReadback_eq_none_iff (sent read : BitTime) :
    fieldReadback sent read = none ↔ readPlain sent = readPlain read := by
  unfold fieldReadback
  cases readPlain sent <;> cases readPlain read <;> simp

@[simp] theorem bodyReadback_eq_none_iff (sent read : BitTime) :
    bodyReadback sent read = none ↔ read = sent := by
  unfold bodyReadback; split <;> simp_all

@[simp] theorem readbackAt_self (i : Nat) (b : BitTime) : readbackAt i b b = none := by
  unfold readbackAt
  split
  · rfl
  · split
    · exact (fieldReadback_eq_none_iff b b).mpr rfl
    · exact (bodyReadback_eq_none_iff b b).mpr rfl

@[simp] theorem readbackFrom_nil (i : Nat) (line : List BitTime) :
    readbackFrom i [] line = some .sentWhole := by cases line <;> rfl

/-- Nothing ends an attempt before the line has shown its next bit time. -/
@[simp] theorem readbackFrom_unread (i : Nat) (b : BitTime) (rest : List BitTime) :
    readbackFrom i (b :: rest) [] = none := rfl

/-- The first bit time that does not match ends the attempt. -/
theorem readbackFrom_stop {i : Nat} {b l : BitTime} {o : Instr} (h : readbackAt i b l = some o)
    (rest line : List BitTime) : readbackFrom i (b :: rest) (l :: line) = some o := by
  simp [readbackFrom, h]

theorem readbackFrom_go {i : Nat} {b l : BitTime} (h : readbackAt i b l = none)
    (rest line : List BitTime) :
    readbackFrom i (b :: rest) (l :: line) = readbackFrom (i + 1) rest line := by
  simp [readbackFrom, h]

/-- A stretch of the line that matches what was sent is passed over. -/
theorem readbackFrom_append (sent shown rest line : List BitTime) (i : Nat)
    (hl : sent.length = shown.length)
    (h : ∀ k b l, sent[k]? = some b → shown[k]? = some l → readbackAt (i + k) b l = none) :
    readbackFrom i (sent ++ rest) (shown ++ line) = readbackFrom (i + sent.length) rest line := by
  induction sent generalizing shown i with
  | nil => cases shown <;> simp_all
  | cons b bs ih =>
    cases shown with
    | nil => simp at hl
    | cons l ls =>
      have go : readbackFrom i (b :: (bs ++ rest)) (l :: (ls ++ line))
          = readbackFrom (i + 1) (bs ++ rest) (ls ++ line) :=
        readbackFrom_go (h 0 b l rfl rfl) _ _
      rw [List.cons_append, List.cons_append, go,
        ih ls (i + 1) (by simpa using hl) fun k c m hc hm => by
          simpa [Nat.add_assoc, Nat.add_comm 1 k] using
            h (k + 1) c m (by simpa using hc) (by simpa using hm)]
      congr 1
      simp [Nat.add_assoc, Nat.add_comm 1 bs.length]

/-- A frame that the line shows as sent is sent whole (R146). -/
theorem readback_self (f : TxFrame) : readback f (frameLine f) = some .sentWhole := by
  have h := readbackFrom_append (frameLine f) (frameLine f) [] [] 0 rfl fun k b l hb hl => by
    have e : b = l := Option.some.inj (hb.symm.trans hl)
    rw [e, readbackAt_self]
  simpa [readback] using h

/-- Two parties that send the same show it without fault (R142). -/
@[simp] theorem BitTime.overlay_self (b : BitTime) : b.overlay b = b := by
  rcases b with ⟨a, c⟩; cases a <;> cases c <;> rfl

@[simp] theorem overlayLines_self (line : List BitTime) : overlayLines line line = line := by
  induction line with
  | nil => rfl
  | cons b bs ih => simp_all [overlayLines]

end Sys2Proof.Machine
end

