-- ==== Sys2Proof/Laws/State.lean ====
section
/-! SUPPORT. What each named update of the state leaves in every field: true by computation, so that no later
proof unfolds a record update. A field of a block that an update touches has a lemma of its own; a block that
it does not touch has one lemma. -/

namespace Sys2Proof.Machine

/-! ### expireAt -/

@[simp] theorem expireAt_now (t : Timer) (s : State) :
    (expireAt t s).now = max s.now (t.getD 0) := rfl
@[simp] theorem expireAt_strap (t : Timer) (s : State) : (expireAt t s).strap = s.strap := rfl
@[simp] theorem expireAt_inhibitInput (t : Timer) (s : State) :
    (expireAt t s).inhibitInput = s.inhibitInput := rfl
@[simp] theorem expireAt_ctl (t : Timer) (s : State) : (expireAt t s).ctl = s.ctl := rfl
@[simp] theorem expireAt_plan (t : Timer) (s : State) : (expireAt t s).plan = s.plan := rfl
@[simp] theorem expireAt_seq (t : Timer) (s : State) : (expireAt t s).seq = s.seq := rfl
@[simp] theorem expireAt_stack (t : Timer) (s : State) : (expireAt t s).stack = s.stack := rfl
@[simp] theorem expireAt_cure (t : Timer) (s : State) : (expireAt t s).cure = s.cure := rfl
@[simp] theorem expireAt_feed (t : Timer) (s : State) : (expireAt t s).feed = s.feed := rfl
@[simp] theorem expireAt_peers (t : Timer) (s : State) : (expireAt t s).peers = s.peers := rfl
@[simp] theorem expireAt_line (t : Timer) (s : State) : (expireAt t s).line = s.line := rfl
@[simp] theorem expireAt_join (t : Timer) (s : State) : (expireAt t s).join = s.join := rfl
@[simp] theorem expireAt_sup (t : Timer) (s : State) : (expireAt t s).sup = s.sup := rfl
@[simp] theorem expireAt_pending (t : Timer) (s : State) : (expireAt t s).pending = s.pending := rfl

/-! ### requestReport -/

@[simp] theorem requestReport_now (p : Prio) (s : State) : (requestReport p s).now = s.now := rfl
@[simp] theorem requestReport_strap (p : Prio) (s : State) : (requestReport p s).strap = s.strap := rfl
@[simp] theorem requestReport_inhibitInput (p : Prio) (s : State) :
    (requestReport p s).inhibitInput = s.inhibitInput := rfl
@[simp] theorem requestReport_ctl (p : Prio) (s : State) : (requestReport p s).ctl = s.ctl := rfl
@[simp] theorem requestReport_plan (p : Prio) (s : State) : (requestReport p s).plan = s.plan := rfl
@[simp] theorem requestReport_seq (p : Prio) (s : State) : (requestReport p s).seq = s.seq := rfl
@[simp] theorem requestReport_stack (p : Prio) (s : State) : (requestReport p s).stack = s.stack := rfl
@[simp] theorem requestReport_cure (p : Prio) (s : State) : (requestReport p s).cure = s.cure := rfl
@[simp] theorem requestReport_feed (p : Prio) (s : State) : (requestReport p s).feed = s.feed := rfl
@[simp] theorem requestReport_peers (p : Prio) (s : State) : (requestReport p s).peers = s.peers := rfl
@[simp] theorem requestReport_line_report (p : Prio) (s : State) :
    (requestReport p s).line.report = s.line.report.request p := rfl
@[simp] theorem requestReport_line_setupRequest (p : Prio) (s : State) :
    (requestReport p s).line.setupRequest = s.line.setupRequest := rfl
@[simp] theorem requestReport_line_idle (p : Prio) (s : State) :
    (requestReport p s).line.idle = s.line.idle := rfl
@[simp] theorem requestReport_line_errors (p : Prio) (s : State) :
    (requestReport p s).line.errors = s.line.errors := rfl
@[simp] theorem requestReport_line_muted (p : Prio) (s : State) :
    (requestReport p s).line.muted = s.line.muted := rfl
@[simp] theorem requestReport_line_muteTimer (p : Prio) (s : State) :
    (requestReport p s).line.muteTimer = s.line.muteTimer := rfl
@[simp] theorem requestReport_line_busyTimer (p : Prio) (s : State) :
    (requestReport p s).line.busyTimer = s.line.busyTimer := rfl
@[simp] theorem requestReport_line_reportTimer (p : Prio) (s : State) :
    (requestReport p s).line.reportTimer = s.line.reportTimer := rfl
@[simp] theorem requestReport_line_sender (p : Prio) (s : State) :
    (requestReport p s).line.sender = s.line.sender := rfl
@[simp] theorem requestReport_line_frame (p : Prio) (s : State) :
    (requestReport p s).line.frame = s.line.frame := rfl
@[simp] theorem requestReport_join (p : Prio) (s : State) : (requestReport p s).join = s.join := rfl
@[simp] theorem requestReport_sup (p : Prio) (s : State) : (requestReport p s).sup = s.sup := rfl
@[simp] theorem requestReport_pending (p : Prio) (s : State) :
    (requestReport p s).pending = s.pending := rfl

/-! ### requestSetup -/

@[simp] theorem requestSetup_now (s : State) : (requestSetup s).now = s.now := rfl
@[simp] theorem requestSetup_strap (s : State) : (requestSetup s).strap = s.strap := rfl
@[simp] theorem requestSetup_inhibitInput (s : State) :
    (requestSetup s).inhibitInput = s.inhibitInput := rfl
@[simp] theorem requestSetup_ctl (s : State) : (requestSetup s).ctl = s.ctl := rfl
@[simp] theorem requestSetup_plan (s : State) : (requestSetup s).plan = s.plan := rfl
@[simp] theorem requestSetup_seq (s : State) : (requestSetup s).seq = s.seq := rfl
@[simp] theorem requestSetup_stack (s : State) : (requestSetup s).stack = s.stack := rfl
@[simp] theorem requestSetup_cure (s : State) : (requestSetup s).cure = s.cure := rfl
@[simp] theorem requestSetup_feed (s : State) : (requestSetup s).feed = s.feed := rfl
@[simp] theorem requestSetup_peers (s : State) : (requestSetup s).peers = s.peers := rfl
@[simp] theorem requestSetup_line_report (s : State) :
    (requestSetup s).line.report = s.line.report := rfl
@[simp] theorem requestSetup_line_idle (s : State) : (requestSetup s).line.idle = s.line.idle := rfl
@[simp] theorem requestSetup_line_errors (s : State) :
    (requestSetup s).line.errors = s.line.errors := rfl
@[simp] theorem requestSetup_line_muted (s : State) : (requestSetup s).line.muted = s.line.muted := rfl
@[simp] theorem requestSetup_line_muteTimer (s : State) :
    (requestSetup s).line.muteTimer = s.line.muteTimer := rfl
@[simp] theorem requestSetup_line_busyTimer (s : State) :
    (requestSetup s).line.busyTimer = s.line.busyTimer := rfl
@[simp] theorem requestSetup_line_reportTimer (s : State) :
    (requestSetup s).line.reportTimer = s.line.reportTimer := rfl
@[simp] theorem requestSetup_line_sender (s : State) :
    (requestSetup s).line.sender = s.line.sender := rfl
@[simp] theorem requestSetup_line_frame (s : State) : (requestSetup s).line.frame = s.line.frame := rfl
@[simp] theorem requestSetup_join (s : State) : (requestSetup s).join = s.join := rfl
@[simp] theorem requestSetup_sup (s : State) : (requestSetup s).sup = s.sup := rfl
@[simp] theorem requestSetup_pending (s : State) : (requestSetup s).pending = s.pending := rfl

/-! ### removeExited -/

@[simp] theorem removeExited_now (s : State) : (removeExited s).now = s.now := rfl
@[simp] theorem removeExited_strap (s : State) : (removeExited s).strap = s.strap := rfl
@[simp] theorem removeExited_inhibitInput (s : State) :
    (removeExited s).inhibitInput = s.inhibitInput := rfl
@[simp] theorem removeExited_ctl (s : State) : (removeExited s).ctl = s.ctl := rfl
@[simp] theorem removeExited_plan (s : State) : (removeExited s).plan = s.plan := rfl
@[simp] theorem removeExited_seq (s : State) : (removeExited s).seq = s.seq := rfl
@[simp] theorem removeExited_stack_layers (s : State) :
    (removeExited s).stack.layers = removeBelow s.seq.height s.stack.layers := rfl
@[simp] theorem removeExited_stack_concreteTop (s : State) :
    (removeExited s).stack.concreteTop = s.stack.concreteTop := rfl
@[simp] theorem removeExited_stack_nextSeq (s : State) :
    (removeExited s).stack.nextSeq = s.stack.nextSeq := rfl
@[simp] theorem removeExited_stack_reckoning (s : State) :
    (removeExited s).stack.reckoning = s.stack.reckoning := rfl
@[simp] theorem removeExited_cure (s : State) : (removeExited s).cure = s.cure := rfl
@[simp] theorem removeExited_feed (s : State) : (removeExited s).feed = s.feed := rfl
@[simp] theorem removeExited_peers (s : State) : (removeExited s).peers = s.peers := rfl
@[simp] theorem removeExited_line (s : State) : (removeExited s).line = s.line := rfl
@[simp] theorem removeExited_join (s : State) : (removeExited s).join = s.join := rfl
@[simp] theorem removeExited_sup (s : State) : (removeExited s).sup = s.sup := rfl
@[simp] theorem removeExited_pending (s : State) : (removeExited s).pending = s.pending := rfl

/-! ### keepChange -/

@[simp] theorem keepChange_now (b : Bool) (s : State) : (keepChange b s).now = s.now := rfl
@[simp] theorem keepChange_strap (b : Bool) (s : State) : (keepChange b s).strap = s.strap := rfl
@[simp] theorem keepChange_inhibitInput (b : Bool) (s : State) :
    (keepChange b s).inhibitInput = s.inhibitInput := rfl
@[simp] theorem keepChange_ctl (b : Bool) (s : State) : (keepChange b s).ctl = s.ctl := rfl
@[simp] theorem keepChange_plan (b : Bool) (s : State) : (keepChange b s).plan = s.plan := rfl
@[simp] theorem keepChange_seq (b : Bool) (s : State) : (keepChange b s).seq = s.seq := rfl
@[simp] theorem keepChange_stack (b : Bool) (s : State) : (keepChange b s).stack = s.stack := rfl
@[simp] theorem keepChange_cure (b : Bool) (s : State) : (keepChange b s).cure = s.cure := rfl
@[simp] theorem keepChange_feed (b : Bool) (s : State) : (keepChange b s).feed = s.feed := rfl
@[simp] theorem keepChange_peers (b : Bool) (s : State) : (keepChange b s).peers = s.peers := rfl
@[simp] theorem keepChange_line (b : Bool) (s : State) : (keepChange b s).line = s.line := rfl
@[simp] theorem keepChange_join_ownNumber (b : Bool) (s : State) :
    (keepChange b s).join.ownNumber = s.join.ownNumber := rfl
@[simp] theorem keepChange_join_stage (b : Bool) (s : State) :
    (keepChange b s).join.stage = s.join.stage := rfl
@[simp] theorem keepChange_join_staged (b : Bool) (s : State) :
    (keepChange b s).join.staged = s.join.staged := rfl
@[simp] theorem keepChange_join_marks (b : Bool) (s : State) :
    (keepChange b s).join.marks = s.join.marks := rfl
@[simp] theorem keepChange_join_committed (b : Bool) (s : State) :
    (keepChange b s).join.committed = s.join.committed := rfl
@[simp] theorem keepChange_join_windowTimer (b : Bool) (s : State) :
    (keepChange b s).join.windowTimer = s.join.windowTimer := rfl
@[simp] theorem keepChange_join_requestTimer (b : Bool) (s : State) :
    (keepChange b s).join.requestTimer = s.join.requestTimer := rfl
@[simp] theorem keepChange_join_itemsReceived (b : Bool) (s : State) :
    (keepChange b s).join.itemsReceived = s.join.itemsReceived := rfl
@[simp] theorem keepChange_join_lastCommit (b : Bool) (s : State) :
    (keepChange b s).join.lastCommit = s.join.lastCommit := rfl
@[simp] theorem keepChange_join_kind (b : Bool) (s : State) :
    (keepChange b s).join.kind = s.join.kind := rfl
@[simp] theorem keepChange_join_listenTimer (b : Bool) (s : State) :
    (keepChange b s).join.listenTimer = s.join.listenTimer := rfl
@[simp] theorem keepChange_join_state (b : Bool) (s : State) :
    (keepChange b s).join.state = s.join.state := rfl
@[simp] theorem keepChange_join_restoredMode (b : Bool) (s : State) :
    (keepChange b s).join.restoredMode = s.join.restoredMode := rfl
@[simp] theorem keepChange_join_imageA (b : Bool) (s : State) :
    (keepChange b s).join.imageA = if b && recordable s then (rewritten s).1 else s.join.imageA := rfl
@[simp] theorem keepChange_join_imageB (b : Bool) (s : State) :
    (keepChange b s).join.imageB = if b && recordable s then (rewritten s).2 else s.join.imageB := rfl
@[simp] theorem keepChange_sup (b : Bool) (s : State) : (keepChange b s).sup = s.sup := rfl
@[simp] theorem keepChange_pending (b : Bool) (s : State) : (keepChange b s).pending = s.pending := rfl

/-! ### stackSample -/

@[simp] theorem stackSample_now (d : Nat) (s : State) : (stackSample d s).now = s.now := rfl
@[simp] theorem stackSample_strap (d : Nat) (s : State) : (stackSample d s).strap = s.strap := rfl
@[simp] theorem stackSample_inhibitInput (d : Nat) (s : State) :
    (stackSample d s).inhibitInput = s.inhibitInput := rfl
@[simp] theorem stackSample_ctl (d : Nat) (s : State) : (stackSample d s).ctl = s.ctl := rfl
@[simp] theorem stackSample_plan (d : Nat) (s : State) : (stackSample d s).plan = s.plan := rfl
@[simp] theorem stackSample_seq (d : Nat) (s : State) : (stackSample d s).seq = s.seq := rfl
@[simp] theorem stackSample_stack (d : Nat) (s : State) :
    (stackSample d s).stack = sampledStack d s := rfl
@[simp] theorem stackSample_cure (d : Nat) (s : State) : (stackSample d s).cure = s.cure := rfl
@[simp] theorem stackSample_feed (d : Nat) (s : State) : (stackSample d s).feed = s.feed := rfl
@[simp] theorem stackSample_peers (d : Nat) (s : State) : (stackSample d s).peers = s.peers := rfl
@[simp] theorem stackSample_line (d : Nat) (s : State) : (stackSample d s).line = s.line := rfl
@[simp] theorem stackSample_join_ownNumber (d : Nat) (s : State) :
    (stackSample d s).join.ownNumber = s.join.ownNumber := rfl
@[simp] theorem stackSample_join_stage (d : Nat) (s : State) :
    (stackSample d s).join.stage = s.join.stage := rfl
@[simp] theorem stackSample_join_staged (d : Nat) (s : State) :
    (stackSample d s).join.staged = s.join.staged := rfl
@[simp] theorem stackSample_join_marks (d : Nat) (s : State) :
    (stackSample d s).join.marks = s.join.marks := rfl
@[simp] theorem stackSample_join_committed (d : Nat) (s : State) :
    (stackSample d s).join.committed = s.join.committed := rfl
@[simp] theorem stackSample_join_windowTimer (d : Nat) (s : State) :
    (stackSample d s).join.windowTimer = s.join.windowTimer := rfl
@[simp] theorem stackSample_join_requestTimer (d : Nat) (s : State) :
    (stackSample d s).join.requestTimer = s.join.requestTimer := rfl
@[simp] theorem stackSample_join_itemsReceived (d : Nat) (s : State) :
    (stackSample d s).join.itemsReceived = s.join.itemsReceived := rfl
@[simp] theorem stackSample_join_lastCommit (d : Nat) (s : State) :
    (stackSample d s).join.lastCommit = s.join.lastCommit := rfl
@[simp] theorem stackSample_join_kind (d : Nat) (s : State) :
    (stackSample d s).join.kind = s.join.kind := rfl
@[simp] theorem stackSample_join_listenTimer (d : Nat) (s : State) :
    (stackSample d s).join.listenTimer = s.join.listenTimer := rfl
@[simp] theorem stackSample_join_state (d : Nat) (s : State) :
    (stackSample d s).join.state = s.join.state := rfl
@[simp] theorem stackSample_join_restoredMode (d : Nat) (s : State) :
    (stackSample d s).join.restoredMode = s.join.restoredMode := rfl
@[simp] theorem stackSample_sup (d : Nat) (s : State) : (stackSample d s).sup = s.sup := rfl
@[simp] theorem stackSample_pending (d : Nat) (s : State) : (stackSample d s).pending = s.pending := rfl

/-! ### closeGate -/

@[simp] theorem closeGate_now (n : FeedState) (s : State) : (closeGate n s).now = s.now := rfl
@[simp] theorem closeGate_strap (n : FeedState) (s : State) : (closeGate n s).strap = s.strap := rfl
@[simp] theorem closeGate_inhibitInput (n : FeedState) (s : State) :
    (closeGate n s).inhibitInput = s.inhibitInput := rfl
@[simp] theorem closeGate_ctl (n : FeedState) (s : State) : (closeGate n s).ctl = s.ctl := rfl
@[simp] theorem closeGate_plan (n : FeedState) (s : State) : (closeGate n s).plan = s.plan := rfl
@[simp] theorem closeGate_seq (n : FeedState) (s : State) : (closeGate n s).seq = s.seq := rfl
@[simp] theorem closeGate_stack_layers (n : FeedState) (s : State) :
    (closeGate n s).stack.layers = s.stack.layers := rfl
@[simp] theorem closeGate_stack_concreteTop (n : FeedState) (s : State) :
    (closeGate n s).stack.concreteTop = s.stack.concreteTop := rfl
@[simp] theorem closeGate_stack_nextSeq (n : FeedState) (s : State) :
    (closeGate n s).stack.nextSeq = s.stack.nextSeq := rfl
@[simp] theorem closeGate_stack_reckoning (n : FeedState) (s : State) :
    (closeGate n s).stack.reckoning = true := rfl
@[simp] theorem closeGate_cure (n : FeedState) (s : State) : (closeGate n s).cure = s.cure := rfl
@[simp] theorem closeGate_feed_state (n : FeedState) (s : State) :
    (closeGate n s).feed.state = n := rfl
@[simp] theorem closeGate_feed_settled (n : FeedState) (s : State) :
    (closeGate n s).feed.settled = false := rfl
@[simp] theorem closeGate_feed_settleTimer (n : FeedState) (s : State) :
    (closeGate n s).feed.settleTimer = if n = .asking then some (s.now + s.setup.settleTime) else none := rfl
@[simp] theorem closeGate_feed_feedTimer (n : FeedState) (s : State) :
    (closeGate n s).feed.feedTimer = none := rfl
@[simp] theorem closeGate_feed_gate (n : FeedState) (s : State) :
    (closeGate n s).feed.gate = false := rfl
@[simp] theorem closeGate_feed_depth (n : FeedState) (s : State) :
    (closeGate n s).feed.depth = s.feed.depth := rfl
@[simp] theorem closeGate_feed_blankTimer (n : FeedState) (s : State) :
    (closeGate n s).feed.blankTimer = blankStart s := rfl
@[simp] theorem closeGate_feed_probeValid (n : FeedState) (s : State) :
    (closeGate n s).feed.probeValid = s.feed.probeValid := rfl
@[simp] theorem closeGate_feed_probeTimer (n : FeedState) (s : State) :
    (closeGate n s).feed.probeTimer = s.feed.probeTimer := rfl
@[simp] theorem closeGate_peers (n : FeedState) (s : State) : (closeGate n s).peers = s.peers := rfl
@[simp] theorem closeGate_line_report (n : FeedState) (s : State) :
    (closeGate n s).line.report = s.line.report.request .urgent := rfl
@[simp] theorem closeGate_line_setupRequest (n : FeedState) (s : State) :
    (closeGate n s).line.setupRequest = s.line.setupRequest := rfl
@[simp] theorem closeGate_line_idle (n : FeedState) (s : State) :
    (closeGate n s).line.idle = s.line.idle := rfl
@[simp] theorem closeGate_line_errors (n : FeedState) (s : State) :
    (closeGate n s).line.errors = s.line.errors := rfl
@[simp] theorem closeGate_line_muted (n : FeedState) (s : State) :
    (closeGate n s).line.muted = s.line.muted := rfl
@[simp] theorem closeGate_line_muteTimer (n : FeedState) (s : State) :
    (closeGate n s).line.muteTimer = s.line.muteTimer := rfl
@[simp] theorem closeGate_line_busyTimer (n : FeedState) (s : State) :
    (closeGate n s).line.busyTimer = s.line.busyTimer := rfl
@[simp] theorem closeGate_line_reportTimer (n : FeedState) (s : State) :
    (closeGate n s).line.reportTimer = s.line.reportTimer := rfl
@[simp] theorem closeGate_line_sender (n : FeedState) (s : State) :
    (closeGate n s).line.sender = s.line.sender := rfl
@[simp] theorem closeGate_line_frame (n : FeedState) (s : State) :
    (closeGate n s).line.frame = s.line.frame := rfl
@[simp] theorem closeGate_join (n : FeedState) (s : State) : (closeGate n s).join = s.join := rfl
@[simp] theorem closeGate_sup (n : FeedState) (s : State) : (closeGate n s).sup = s.sup := rfl
@[simp] theorem closeGate_pending (n : FeedState) (s : State) :
    (closeGate n s).pending = s.pending := rfl

/-! ### enterAsking -/

@[simp] theorem enterAsking_now (s : State) : (enterAsking s).now = s.now := rfl
@[simp] theorem enterAsking_strap (s : State) : (enterAsking s).strap = s.strap := rfl
@[simp] theorem enterAsking_inhibitInput (s : State) :
    (enterAsking s).inhibitInput = s.inhibitInput := rfl
@[simp] theorem enterAsking_ctl (s : State) : (enterAsking s).ctl = s.ctl := rfl
@[simp] theorem enterAsking_plan (s : State) : (enterAsking s).plan = s.plan := rfl
@[simp] theorem enterAsking_seq (s : State) : (enterAsking s).seq = s.seq := rfl
@[simp] theorem enterAsking_stack (s : State) : (enterAsking s).stack = s.stack := rfl
@[simp] theorem enterAsking_cure (s : State) : (enterAsking s).cure = s.cure := rfl
@[simp] theorem enterAsking_feed_state (s : State) :
    (enterAsking s).feed.state = .asking := rfl
@[simp] theorem enterAsking_feed_settled (s : State) :
    (enterAsking s).feed.settled = false := rfl
@[simp] theorem enterAsking_feed_settleTimer (s : State) :
    (enterAsking s).feed.settleTimer = some (s.now + s.setup.settleTime) := rfl
@[simp] theorem enterAsking_feed_feedTimer (s : State) :
    (enterAsking s).feed.feedTimer = s.feed.feedTimer := rfl
@[simp] theorem enterAsking_feed_gate (s : State) : (enterAsking s).feed.gate = s.feed.gate := rfl
@[simp] theorem enterAsking_feed_depth (s : State) : (enterAsking s).feed.depth = s.feed.depth := rfl
@[simp] theorem enterAsking_feed_blankTimer (s : State) :
    (enterAsking s).feed.blankTimer = s.feed.blankTimer := rfl
@[simp] theorem enterAsking_feed_probeValid (s : State) :
    (enterAsking s).feed.probeValid = s.feed.probeValid := rfl
@[simp] theorem enterAsking_feed_probeTimer (s : State) :
    (enterAsking s).feed.probeTimer = s.feed.probeTimer := rfl
@[simp] theorem enterAsking_peers (s : State) : (enterAsking s).peers = s.peers := rfl
@[simp] theorem enterAsking_line_report (s : State) :
    (enterAsking s).line.report = s.line.report.request .urgent := rfl
@[simp] theorem enterAsking_line_setupRequest (s : State) :
    (enterAsking s).line.setupRequest = s.line.setupRequest := rfl
@[simp] theorem enterAsking_line_idle (s : State) : (enterAsking s).line.idle = s.line.idle := rfl
@[simp] theorem enterAsking_line_errors (s : State) : (enterAsking s).line.errors = s.line.errors := rfl
@[simp] theorem enterAsking_line_muted (s : State) : (enterAsking s).line.muted = s.line.muted := rfl
@[simp] theorem enterAsking_line_muteTimer (s : State) :
    (enterAsking s).line.muteTimer = s.line.muteTimer := rfl
@[simp] theorem enterAsking_line_busyTimer (s : State) :
    (enterAsking s).line.busyTimer = s.line.busyTimer := rfl
@[simp] theorem enterAsking_line_reportTimer (s : State) :
    (enterAsking s).line.reportTimer = s.line.reportTimer := rfl
@[simp] theorem enterAsking_line_sender (s : State) : (enterAsking s).line.sender = s.line.sender := rfl
@[simp] theorem enterAsking_line_frame (s : State) : (enterAsking s).line.frame = s.line.frame := rfl
@[simp] theorem enterAsking_join (s : State) : (enterAsking s).join = s.join := rfl
@[simp] theorem enterAsking_sup (s : State) : (enterAsking s).sup = s.sup := rfl
@[simp] theorem enterAsking_pending (s : State) : (enterAsking s).pending = s.pending := rfl

/-! ### leaveAsking -/

@[simp] theorem leaveAsking_now (s : State) : (leaveAsking s).now = s.now := rfl
@[simp] theorem leaveAsking_strap (s : State) : (leaveAsking s).strap = s.strap := rfl
@[simp] theorem leaveAsking_inhibitInput (s : State) :
    (leaveAsking s).inhibitInput = s.inhibitInput := rfl
@[simp] theorem leaveAsking_ctl (s : State) : (leaveAsking s).ctl = s.ctl := rfl
@[simp] theorem leaveAsking_plan (s : State) : (leaveAsking s).plan = s.plan := rfl
@[simp] theorem leaveAsking_seq (s : State) : (leaveAsking s).seq = s.seq := rfl
@[simp] theorem leaveAsking_stack (s : State) : (leaveAsking s).stack = s.stack := rfl
@[simp] theorem leaveAsking_cure (s : State) : (leaveAsking s).cure = s.cure := rfl
@[simp] theorem leaveAsking_feed_state (s : State) :
    (leaveAsking s).feed.state = .idle := rfl
@[simp] theorem leaveAsking_feed_settled (s : State) :
    (leaveAsking s).feed.settled = false := rfl
@[simp] theorem leaveAsking_feed_settleTimer (s : State) :
    (leaveAsking s).feed.settleTimer = none := rfl
@[simp] theorem leaveAsking_feed_feedTimer (s : State) :
    (leaveAsking s).feed.feedTimer = s.feed.feedTimer := rfl
@[simp] theorem leaveAsking_feed_gate (s : State) : (leaveAsking s).feed.gate = s.feed.gate := rfl
@[simp] theorem leaveAsking_feed_depth (s : State) : (leaveAsking s).feed.depth = s.feed.depth := rfl
@[simp] theorem leaveAsking_feed_blankTimer (s : State) :
    (leaveAsking s).feed.blankTimer = s.feed.blankTimer := rfl
@[simp] theorem leaveAsking_feed_probeValid (s : State) :
    (leaveAsking s).feed.probeValid = s.feed.probeValid := rfl
@[simp] theorem leaveAsking_feed_probeTimer (s : State) :
    (leaveAsking s).feed.probeTimer = s.feed.probeTimer := rfl
@[simp] theorem leaveAsking_peers (s : State) : (leaveAsking s).peers = s.peers := rfl
@[simp] theorem leaveAsking_line_report (s : State) :
    (leaveAsking s).line.report = s.line.report.request .urgent := rfl
@[simp] theorem leaveAsking_line_setupRequest (s : State) :
    (leaveAsking s).line.setupRequest = s.line.setupRequest := rfl
@[simp] theorem leaveAsking_line_idle (s : State) : (leaveAsking s).line.idle = s.line.idle := rfl
@[simp] theorem leaveAsking_line_errors (s : State) : (leaveAsking s).line.errors = s.line.errors := rfl
@[simp] theorem leaveAsking_line_muted (s : State) : (leaveAsking s).line.muted = s.line.muted := rfl
@[simp] theorem leaveAsking_line_muteTimer (s : State) :
    (leaveAsking s).line.muteTimer = s.line.muteTimer := rfl
@[simp] theorem leaveAsking_line_busyTimer (s : State) :
    (leaveAsking s).line.busyTimer = s.line.busyTimer := rfl
@[simp] theorem leaveAsking_line_reportTimer (s : State) :
    (leaveAsking s).line.reportTimer = s.line.reportTimer := rfl
@[simp] theorem leaveAsking_line_sender (s : State) : (leaveAsking s).line.sender = s.line.sender := rfl
@[simp] theorem leaveAsking_line_frame (s : State) : (leaveAsking s).line.frame = s.line.frame := rfl
@[simp] theorem leaveAsking_join (s : State) : (leaveAsking s).join = s.join := rfl
@[simp] theorem leaveAsking_sup (s : State) : (leaveAsking s).sup = s.sup := rfl
@[simp] theorem leaveAsking_pending (s : State) : (leaveAsking s).pending = s.pending := rfl

/-! ### openGate -/

@[simp] theorem openGate_now (s : State) : (openGate s).now = s.now := rfl
@[simp] theorem openGate_strap (s : State) : (openGate s).strap = s.strap := rfl
@[simp] theorem openGate_inhibitInput (s : State) : (openGate s).inhibitInput = s.inhibitInput := rfl
@[simp] theorem openGate_ctl (s : State) : (openGate s).ctl = s.ctl := rfl
@[simp] theorem openGate_plan (s : State) : (openGate s).plan = s.plan := rfl
@[simp] theorem openGate_seq (s : State) : (openGate s).seq = s.seq := rfl
@[simp] theorem openGate_stack (s : State) : (openGate s).stack = s.stack := rfl
@[simp] theorem openGate_cure (s : State) : (openGate s).cure = s.cure := rfl
@[simp] theorem openGate_feed_state (s : State) :
    (openGate s).feed.state = .opened := rfl
@[simp] theorem openGate_feed_settled (s : State) :
    (openGate s).feed.settled = false := rfl
@[simp] theorem openGate_feed_settleTimer (s : State) :
    (openGate s).feed.settleTimer = none := rfl
@[simp] theorem openGate_feed_feedTimer (s : State) :
    (openGate s).feed.feedTimer = some (s.now + s.setup.feedTime) := rfl
@[simp] theorem openGate_feed_gate (s : State) :
    (openGate s).feed.gate = true := rfl
@[simp] theorem openGate_feed_depth (s : State) : (openGate s).feed.depth = s.feed.depth := rfl
@[simp] theorem openGate_feed_blankTimer (s : State) :
    (openGate s).feed.blankTimer = s.feed.blankTimer := rfl
@[simp] theorem openGate_feed_probeValid (s : State) :
    (openGate s).feed.probeValid = s.feed.probeValid := rfl
@[simp] theorem openGate_feed_probeTimer (s : State) :
    (openGate s).feed.probeTimer = s.feed.probeTimer := rfl
@[simp] theorem openGate_peers (s : State) : (openGate s).peers = s.peers := rfl
@[simp] theorem openGate_line_report (s : State) :
    (openGate s).line.report = s.line.report.request .urgent := rfl
@[simp] theorem openGate_line_setupRequest (s : State) :
    (openGate s).line.setupRequest = s.line.setupRequest := rfl
@[simp] theorem openGate_line_idle (s : State) : (openGate s).line.idle = s.line.idle := rfl
@[simp] theorem openGate_line_errors (s : State) : (openGate s).line.errors = s.line.errors := rfl
@[simp] theorem openGate_line_muted (s : State) : (openGate s).line.muted = s.line.muted := rfl
@[simp] theorem openGate_line_muteTimer (s : State) :
    (openGate s).line.muteTimer = s.line.muteTimer := rfl
@[simp] theorem openGate_line_busyTimer (s : State) :
    (openGate s).line.busyTimer = s.line.busyTimer := rfl
@[simp] theorem openGate_line_reportTimer (s : State) :
    (openGate s).line.reportTimer = s.line.reportTimer := rfl
@[simp] theorem openGate_line_sender (s : State) : (openGate s).line.sender = s.line.sender := rfl
@[simp] theorem openGate_line_frame (s : State) : (openGate s).line.frame = s.line.frame := rfl
@[simp] theorem openGate_join (s : State) : (openGate s).join = s.join := rfl
@[simp] theorem openGate_sup (s : State) : (openGate s).sup = s.sup := rfl
@[simp] theorem openGate_pending (s : State) : (openGate s).pending = s.pending := rfl

/-! ### takeMode -/

@[simp] theorem takeMode_now (m : Mode) (p : PauseSet) (s : State) : (takeMode m p s).now = s.now := rfl
@[simp] theorem takeMode_strap (m : Mode) (p : PauseSet) (s : State) :
    (takeMode m p s).strap = s.strap := rfl
@[simp] theorem takeMode_inhibitInput (m : Mode) (p : PauseSet) (s : State) :
    (takeMode m p s).inhibitInput = s.inhibitInput := rfl
@[simp] theorem takeMode_ctl_mode (m : Mode) (p : PauseSet) (s : State) :
    (takeMode m p s).ctl.mode = m := rfl
@[simp] theorem takeMode_ctl_pause (m : Mode) (p : PauseSet) (s : State) :
    (takeMode m p s).ctl.pause = p := rfl
@[simp] theorem takeMode_ctl_released (m : Mode) (p : PauseSet) (s : State) :
    (takeMode m p s).ctl.released = s.ctl.released := rfl
@[simp] theorem takeMode_ctl_rateScale (m : Mode) (p : PauseSet) (s : State) :
    (takeMode m p s).ctl.rateScale = s.ctl.rateScale := rfl
@[simp] theorem takeMode_ctl_feedHold (m : Mode) (p : PauseSet) (s : State) :
    (takeMode m p s).ctl.feedHold = s.ctl.feedHold := rfl
@[simp] theorem takeMode_ctl_refusal (m : Mode) (p : PauseSet) (s : State) :
    (takeMode m p s).ctl.refusal = s.ctl.refusal := rfl
@[simp] theorem takeMode_ctl_returnMode (m : Mode) (p : PauseSet) (s : State) :
    (takeMode m p s).ctl.returnMode = none := rfl
@[simp] theorem takeMode_plan_ramp (m : Mode) (p : PauseSet) (s : State) :
    (takeMode m p s).plan.ramp = s.plan.ramp := rfl
@[simp] theorem takeMode_plan_last (m : Mode) (p : PauseSet) (s : State) :
    (takeMode m p s).plan.last = if m.climbs then s.plan.last else .blank := rfl
@[simp] theorem takeMode_seq_cycleTimer (m : Mode) (p : PauseSet) (s : State) :
    (takeMode m p s).seq.cycleTimer = if m.climbs then (if (m.climbs && !s.ctl.mode.climbs) = true then some s.now else s.seq.cycleTimer) else none := rfl
@[simp] theorem takeMode_seq_expiryHeld (m : Mode) (p : PauseSet) (s : State) :
    (takeMode m p s).seq.expiryHeld = (m.climbs && !(m.climbs && !s.ctl.mode.climbs) && s.seq.expiryHeld) := rfl
@[simp] theorem takeMode_seq_chans (m : Mode) (p : PauseSet) (s : State) :
    (takeMode m p s).seq.chans = s.seq.chans := rfl
@[simp] theorem takeMode_seq_height (m : Mode) (p : PauseSet) (s : State) :
    (takeMode m p s).seq.height = s.seq.height := rfl
@[simp] theorem takeMode_seq_strokeCount (m : Mode) (p : PauseSet) (s : State) :
    (takeMode m p s).seq.strokeCount = s.seq.strokeCount := rfl
@[simp] theorem takeMode_stack (m : Mode) (p : PauseSet) (s : State) :
    (takeMode m p s).stack = s.stack := rfl
@[simp] theorem takeMode_cure (m : Mode) (p : PauseSet) (s : State) :
    (takeMode m p s).cure = s.cure := rfl
@[simp] theorem takeMode_feed (m : Mode) (p : PauseSet) (s : State) :
    (takeMode m p s).feed = s.feed := rfl
@[simp] theorem takeMode_peers (m : Mode) (p : PauseSet) (s : State) :
    (takeMode m p s).peers = s.peers := rfl
@[simp] theorem takeMode_line_report (m : Mode) (p : PauseSet) (s : State) :
    (takeMode m p s).line.report = s.line.report.request .urgent := rfl
@[simp] theorem takeMode_line_setupRequest (m : Mode) (p : PauseSet) (s : State) :
    (takeMode m p s).line.setupRequest = if m = .setup then s.line.setupRequest else s.line.setupRequest.leaveSetup := rfl
@[simp] theorem takeMode_line_idle (m : Mode) (p : PauseSet) (s : State) :
    (takeMode m p s).line.idle = s.line.idle := rfl
@[simp] theorem takeMode_line_errors (m : Mode) (p : PauseSet) (s : State) :
    (takeMode m p s).line.errors = s.line.errors := rfl
@[simp] theorem takeMode_line_muted (m : Mode) (p : PauseSet) (s : State) :
    (takeMode m p s).line.muted = s.line.muted := rfl
@[simp] theorem takeMode_line_muteTimer (m : Mode) (p : PauseSet) (s : State) :
    (takeMode m p s).line.muteTimer = s.line.muteTimer := rfl
@[simp] theorem takeMode_line_busyTimer (m : Mode) (p : PauseSet) (s : State) :
    (takeMode m p s).line.busyTimer = s.line.busyTimer := rfl
@[simp] theorem takeMode_line_reportTimer (m : Mode) (p : PauseSet) (s : State) :
    (takeMode m p s).line.reportTimer = s.line.reportTimer := rfl
@[simp] theorem takeMode_line_sender (m : Mode) (p : PauseSet) (s : State) :
    (takeMode m p s).line.sender = s.line.sender := rfl
@[simp] theorem takeMode_line_frame (m : Mode) (p : PauseSet) (s : State) :
    (takeMode m p s).line.frame = s.line.frame := rfl
@[simp] theorem takeMode_join_ownNumber (m : Mode) (p : PauseSet) (s : State) :
    (takeMode m p s).join.ownNumber = s.join.ownNumber := rfl
@[simp] theorem takeMode_join_stage (m : Mode) (p : PauseSet) (s : State) :
    (takeMode m p s).join.stage = s.join.stage := rfl
@[simp] theorem takeMode_join_staged (m : Mode) (p : PauseSet) (s : State) :
    (takeMode m p s).join.staged = s.join.staged := rfl
@[simp] theorem takeMode_join_marks (m : Mode) (p : PauseSet) (s : State) :
    (takeMode m p s).join.marks = s.join.marks := rfl
@[simp] theorem takeMode_join_committed (m : Mode) (p : PauseSet) (s : State) :
    (takeMode m p s).join.committed = s.join.committed := rfl
@[simp] theorem takeMode_join_windowTimer (m : Mode) (p : PauseSet) (s : State) :
    (takeMode m p s).join.windowTimer = s.join.windowTimer := rfl
@[simp] theorem takeMode_join_requestTimer (m : Mode) (p : PauseSet) (s : State) :
    (takeMode m p s).join.requestTimer = s.join.requestTimer := rfl
@[simp] theorem takeMode_join_itemsReceived (m : Mode) (p : PauseSet) (s : State) :
    (takeMode m p s).join.itemsReceived = s.join.itemsReceived := rfl
@[simp] theorem takeMode_join_lastCommit (m : Mode) (p : PauseSet) (s : State) :
    (takeMode m p s).join.lastCommit = s.join.lastCommit := rfl
@[simp] theorem takeMode_join_kind (m : Mode) (p : PauseSet) (s : State) :
    (takeMode m p s).join.kind = s.join.kind := rfl
@[simp] theorem takeMode_join_listenTimer (m : Mode) (p : PauseSet) (s : State) :
    (takeMode m p s).join.listenTimer = s.join.listenTimer := rfl
@[simp] theorem takeMode_join_state (m : Mode) (p : PauseSet) (s : State) :
    (takeMode m p s).join.state = s.join.state := rfl
@[simp] theorem takeMode_join_restoredMode (m : Mode) (p : PauseSet) (s : State) :
    (takeMode m p s).join.restoredMode = s.join.restoredMode := rfl
@[simp] theorem takeMode_sup (m : Mode) (p : PauseSet) (s : State) : (takeMode m p s).sup = s.sup := rfl
@[simp] theorem takeMode_pending (m : Mode) (p : PauseSet) (s : State) :
    (takeMode m p s).pending = s.pending := rfl

/-! ### updateCh -/

@[simp] theorem updateCh_now (c : Ch) (f : Channel → Channel) (s : State) :
    (updateCh c f s).now = s.now := rfl
@[simp] theorem updateCh_strap (c : Ch) (f : Channel → Channel) (s : State) :
    (updateCh c f s).strap = s.strap := rfl
@[simp] theorem updateCh_inhibitInput (c : Ch) (f : Channel → Channel) (s : State) :
    (updateCh c f s).inhibitInput = s.inhibitInput := rfl
@[simp] theorem updateCh_ctl (c : Ch) (f : Channel → Channel) (s : State) :
    (updateCh c f s).ctl = s.ctl := rfl
@[simp] theorem updateCh_plan (c : Ch) (f : Channel → Channel) (s : State) :
    (updateCh c f s).plan = s.plan := rfl
@[simp] theorem updateCh_seq_cycleTimer (c : Ch) (f : Channel → Channel) (s : State) :
    (updateCh c f s).seq.cycleTimer = s.seq.cycleTimer := rfl
@[simp] theorem updateCh_seq_expiryHeld (c : Ch) (f : Channel → Channel) (s : State) :
    (updateCh c f s).seq.expiryHeld = s.seq.expiryHeld := rfl
@[simp] theorem updateCh_seq_chans (c : Ch) (f : Channel → Channel) (s : State) :
    (updateCh c f s).seq.chans = s.seq.chans.set c (f (s.chan c)) := rfl
@[simp] theorem updateCh_seq_height (c : Ch) (f : Channel → Channel) (s : State) :
    (updateCh c f s).seq.height = s.seq.height := rfl
@[simp] theorem updateCh_seq_strokeCount (c : Ch) (f : Channel → Channel) (s : State) :
    (updateCh c f s).seq.strokeCount = s.seq.strokeCount := rfl
@[simp] theorem updateCh_stack (c : Ch) (f : Channel → Channel) (s : State) :
    (updateCh c f s).stack = s.stack := rfl
@[simp] theorem updateCh_cure (c : Ch) (f : Channel → Channel) (s : State) :
    (updateCh c f s).cure = s.cure := rfl
@[simp] theorem updateCh_feed (c : Ch) (f : Channel → Channel) (s : State) :
    (updateCh c f s).feed = s.feed := rfl
@[simp] theorem updateCh_peers (c : Ch) (f : Channel → Channel) (s : State) :
    (updateCh c f s).peers = s.peers := rfl
@[simp] theorem updateCh_line (c : Ch) (f : Channel → Channel) (s : State) :
    (updateCh c f s).line = s.line := rfl
@[simp] theorem updateCh_join (c : Ch) (f : Channel → Channel) (s : State) :
    (updateCh c f s).join = s.join := rfl
@[simp] theorem updateCh_sup (c : Ch) (f : Channel → Channel) (s : State) :
    (updateCh c f s).sup = s.sup := rfl
@[simp] theorem updateCh_pending (c : Ch) (f : Channel → Channel) (s : State) :
    (updateCh c f s).pending = s.pending := rfl

/-! ### updateAll -/

@[simp] theorem updateAll_now (f : Channel → Channel) (s : State) : (updateAll f s).now = s.now := rfl
@[simp] theorem updateAll_strap (f : Channel → Channel) (s : State) :
    (updateAll f s).strap = s.strap := rfl
@[simp] theorem updateAll_inhibitInput (f : Channel → Channel) (s : State) :
    (updateAll f s).inhibitInput = s.inhibitInput := rfl
@[simp] theorem updateAll_ctl (f : Channel → Channel) (s : State) : (updateAll f s).ctl = s.ctl := rfl
@[simp] theorem updateAll_plan (f : Channel → Channel) (s : State) : (updateAll f s).plan = s.plan := rfl
@[simp] theorem updateAll_seq_cycleTimer (f : Channel → Channel) (s : State) :
    (updateAll f s).seq.cycleTimer = s.seq.cycleTimer := rfl
@[simp] theorem updateAll_seq_expiryHeld (f : Channel → Channel) (s : State) :
    (updateAll f s).seq.expiryHeld = s.seq.expiryHeld := rfl
@[simp] theorem updateAll_seq_chans (f : Channel → Channel) (s : State) :
    (updateAll f s).seq.chans = s.seq.chans.map f := rfl
@[simp] theorem updateAll_seq_height (f : Channel → Channel) (s : State) :
    (updateAll f s).seq.height = s.seq.height := rfl
@[simp] theorem updateAll_seq_strokeCount (f : Channel → Channel) (s : State) :
    (updateAll f s).seq.strokeCount = s.seq.strokeCount := rfl
@[simp] theorem updateAll_stack (f : Channel → Channel) (s : State) :
    (updateAll f s).stack = s.stack := rfl
@[simp] theorem updateAll_cure (f : Channel → Channel) (s : State) : (updateAll f s).cure = s.cure := rfl
@[simp] theorem updateAll_feed (f : Channel → Channel) (s : State) : (updateAll f s).feed = s.feed := rfl
@[simp] theorem updateAll_peers (f : Channel → Channel) (s : State) :
    (updateAll f s).peers = s.peers := rfl
@[simp] theorem updateAll_line (f : Channel → Channel) (s : State) : (updateAll f s).line = s.line := rfl
@[simp] theorem updateAll_join (f : Channel → Channel) (s : State) : (updateAll f s).join = s.join := rfl
@[simp] theorem updateAll_sup (f : Channel → Channel) (s : State) : (updateAll f s).sup = s.sup := rfl
@[simp] theorem updateAll_pending (f : Channel → Channel) (s : State) :
    (updateAll f s).pending = s.pending := rfl

/-! ### workHeight -/

@[simp] theorem workHeight_now (s : State) : (workHeight s).now = s.now := rfl
@[simp] theorem workHeight_strap (s : State) : (workHeight s).strap = s.strap := rfl
@[simp] theorem workHeight_inhibitInput (s : State) : (workHeight s).inhibitInput = s.inhibitInput := rfl
@[simp] theorem workHeight_ctl (s : State) : (workHeight s).ctl = s.ctl := rfl
@[simp] theorem workHeight_plan (s : State) : (workHeight s).plan = s.plan := rfl
@[simp] theorem workHeight_seq_cycleTimer (s : State) :
    (workHeight s).seq.cycleTimer = s.seq.cycleTimer := rfl
@[simp] theorem workHeight_seq_expiryHeld (s : State) :
    (workHeight s).seq.expiryHeld = s.seq.expiryHeld := rfl
@[simp] theorem workHeight_seq_chans (s : State) : (workHeight s).seq.chans = s.seq.chans := rfl
@[simp] theorem workHeight_seq_height (s : State) :
    (workHeight s).seq.height = meanOf (activeHeights s.seq.chans) := rfl
@[simp] theorem workHeight_seq_strokeCount (s : State) :
    (workHeight s).seq.strokeCount = s.seq.strokeCount := rfl
@[simp] theorem workHeight_stack (s : State) : (workHeight s).stack = s.stack := rfl
@[simp] theorem workHeight_cure (s : State) : (workHeight s).cure = s.cure := rfl
@[simp] theorem workHeight_feed (s : State) : (workHeight s).feed = s.feed := rfl
@[simp] theorem workHeight_peers (s : State) : (workHeight s).peers = s.peers := rfl
@[simp] theorem workHeight_line (s : State) : (workHeight s).line = s.line := rfl
@[simp] theorem workHeight_join (s : State) : (workHeight s).join = s.join := rfl
@[simp] theorem workHeight_sup (s : State) : (workHeight s).sup = s.sup := rfl
@[simp] theorem workHeight_pending (s : State) : (workHeight s).pending = s.pending := rfl

/-! ### cutExtensions -/

@[simp] theorem cutExtensions_now (s : State) : (cutExtensions s).now = s.now := rfl
@[simp] theorem cutExtensions_strap (s : State) : (cutExtensions s).strap = s.strap := rfl
@[simp] theorem cutExtensions_inhibitInput (s : State) :
    (cutExtensions s).inhibitInput = s.inhibitInput := rfl
@[simp] theorem cutExtensions_ctl (s : State) : (cutExtensions s).ctl = s.ctl := rfl
@[simp] theorem cutExtensions_plan (s : State) : (cutExtensions s).plan = s.plan := rfl
@[simp] theorem cutExtensions_seq_cycleTimer (s : State) :
    (cutExtensions s).seq.cycleTimer = s.seq.cycleTimer := rfl
@[simp] theorem cutExtensions_seq_expiryHeld (s : State) :
    (cutExtensions s).seq.expiryHeld = s.seq.expiryHeld := rfl
@[simp] theorem cutExtensions_seq_chans (s : State) :
    (cutExtensions s).seq.chans = s.seq.chans.map (Channel.cut s.setup s.now) := rfl
@[simp] theorem cutExtensions_seq_height (s : State) : (cutExtensions s).seq.height = s.seq.height := rfl
@[simp] theorem cutExtensions_seq_strokeCount (s : State) :
    (cutExtensions s).seq.strokeCount = s.seq.strokeCount := rfl
@[simp] theorem cutExtensions_stack (s : State) : (cutExtensions s).stack = s.stack := rfl
@[simp] theorem cutExtensions_cure (s : State) : (cutExtensions s).cure = s.cure := rfl
@[simp] theorem cutExtensions_feed (s : State) : (cutExtensions s).feed = s.feed := rfl
@[simp] theorem cutExtensions_peers (s : State) : (cutExtensions s).peers = s.peers := rfl
@[simp] theorem cutExtensions_line (s : State) : (cutExtensions s).line = s.line := rfl
@[simp] theorem cutExtensions_join (s : State) : (cutExtensions s).join = s.join := rfl
@[simp] theorem cutExtensions_sup (s : State) : (cutExtensions s).sup = s.sup := rfl
@[simp] theorem cutExtensions_pending (s : State) : (cutExtensions s).pending = s.pending := rfl

/-! ### joinLatched -/

@[simp] theorem joinLatched_now (c : Cond) (s : State) : (joinLatched c s).now = s.now := rfl
@[simp] theorem joinLatched_strap (c : Cond) (s : State) : (joinLatched c s).strap = s.strap := rfl
@[simp] theorem joinLatched_inhibitInput (c : Cond) (s : State) :
    (joinLatched c s).inhibitInput = s.inhibitInput := rfl
@[simp] theorem joinLatched_ctl (c : Cond) (s : State) : (joinLatched c s).ctl = s.ctl := rfl
@[simp] theorem joinLatched_plan (c : Cond) (s : State) : (joinLatched c s).plan = s.plan := rfl
@[simp] theorem joinLatched_seq (c : Cond) (s : State) : (joinLatched c s).seq = s.seq := rfl
@[simp] theorem joinLatched_stack (c : Cond) (s : State) : (joinLatched c s).stack = s.stack := rfl
@[simp] theorem joinLatched_cure (c : Cond) (s : State) : (joinLatched c s).cure = s.cure := rfl
@[simp] theorem joinLatched_feed (c : Cond) (s : State) : (joinLatched c s).feed = s.feed := rfl
@[simp] theorem joinLatched_peers (c : Cond) (s : State) : (joinLatched c s).peers = s.peers := rfl
@[simp] theorem joinLatched_line (c : Cond) (s : State) : (joinLatched c s).line = s.line := rfl
@[simp] theorem joinLatched_join (c : Cond) (s : State) : (joinLatched c s).join = s.join := rfl
@[simp] theorem joinLatched_sup_present (c : Cond) (s : State) :
    (joinLatched c s).sup.present = s.sup.present := rfl
@[simp] theorem joinLatched_sup_latched (c : Cond) (s : State) :
    (joinLatched c s).sup.latched = s.sup.latched ++ [c] := rfl
@[simp] theorem joinLatched_sup_armed (c : Cond) (s : State) :
    (joinLatched c s).sup.armed = s.sup.armed := rfl
@[simp] theorem joinLatched_sup_haltCause (c : Cond) (s : State) :
    (joinLatched c s).sup.haltCause = if c = .haltLoop then some (if s.sup.drive then .self else .other) else s.sup.haltCause := rfl
@[simp] theorem joinLatched_sup_clearPending (c : Cond) (s : State) :
    (joinLatched c s).sup.clearPending = s.sup.clearPending := rfl
@[simp] theorem joinLatched_sup_clearTimer (c : Cond) (s : State) :
    (joinLatched c s).sup.clearTimer = s.sup.clearTimer := rfl
@[simp] theorem joinLatched_sup_drive (c : Cond) (s : State) :
    (joinLatched c s).sup.drive = s.sup.drive := rfl
@[simp] theorem joinLatched_sup_loopSensed (c : Cond) (s : State) :
    (joinLatched c s).sup.loopSensed = s.sup.loopSensed := rfl
@[simp] theorem joinLatched_sup_supplyLow (c : Cond) (s : State) :
    (joinLatched c s).sup.supplyLow = s.sup.supplyLow := rfl
@[simp] theorem joinLatched_sup_onCrystal (c : Cond) (s : State) :
    (joinLatched c s).sup.onCrystal = s.sup.onCrystal := rfl
@[simp] theorem joinLatched_sup_crystalTimer (c : Cond) (s : State) :
    (joinLatched c s).sup.crystalTimer = s.sup.crystalTimer := rfl
@[simp] theorem joinLatched_pending (c : Cond) (s : State) : (joinLatched c s).pending = s.pending := rfl

/-! ### endExtendTimeouts -/

@[simp] theorem endExtendTimeouts_now (s : State) : (endExtendTimeouts s).now = s.now := rfl
@[simp] theorem endExtendTimeouts_strap (s : State) : (endExtendTimeouts s).strap = s.strap := rfl
@[simp] theorem endExtendTimeouts_inhibitInput (s : State) :
    (endExtendTimeouts s).inhibitInput = s.inhibitInput := rfl
@[simp] theorem endExtendTimeouts_ctl (s : State) : (endExtendTimeouts s).ctl = s.ctl := rfl
@[simp] theorem endExtendTimeouts_plan (s : State) : (endExtendTimeouts s).plan = s.plan := rfl
@[simp] theorem endExtendTimeouts_seq (s : State) : (endExtendTimeouts s).seq = s.seq := rfl
@[simp] theorem endExtendTimeouts_stack (s : State) : (endExtendTimeouts s).stack = s.stack := rfl
@[simp] theorem endExtendTimeouts_cure (s : State) : (endExtendTimeouts s).cure = s.cure := rfl
@[simp] theorem endExtendTimeouts_feed (s : State) : (endExtendTimeouts s).feed = s.feed := rfl
@[simp] theorem endExtendTimeouts_peers (s : State) : (endExtendTimeouts s).peers = s.peers := rfl
@[simp] theorem endExtendTimeouts_line (s : State) : (endExtendTimeouts s).line = s.line := rfl
@[simp] theorem endExtendTimeouts_join (s : State) : (endExtendTimeouts s).join = s.join := rfl
@[simp] theorem endExtendTimeouts_sup_present (s : State) :
    (endExtendTimeouts s).sup.present = s.sup.present.filter fun c => !extendTimeoutOver s c := rfl
@[simp] theorem endExtendTimeouts_sup_latched (s : State) :
    (endExtendTimeouts s).sup.latched = s.sup.latched := rfl
@[simp] theorem endExtendTimeouts_sup_armed (s : State) :
    (endExtendTimeouts s).sup.armed = s.sup.armed := rfl
@[simp] theorem endExtendTimeouts_sup_haltCause (s : State) :
    (endExtendTimeouts s).sup.haltCause = s.sup.haltCause := rfl
@[simp] theorem endExtendTimeouts_sup_clearPending (s : State) :
    (endExtendTimeouts s).sup.clearPending = s.sup.clearPending := rfl
@[simp] theorem endExtendTimeouts_sup_clearTimer (s : State) :
    (endExtendTimeouts s).sup.clearTimer = s.sup.clearTimer := rfl
@[simp] theorem endExtendTimeouts_sup_drive (s : State) :
    (endExtendTimeouts s).sup.drive = s.sup.drive := rfl
@[simp] theorem endExtendTimeouts_sup_loopSensed (s : State) :
    (endExtendTimeouts s).sup.loopSensed = s.sup.loopSensed := rfl
@[simp] theorem endExtendTimeouts_sup_supplyLow (s : State) :
    (endExtendTimeouts s).sup.supplyLow = s.sup.supplyLow := rfl
@[simp] theorem endExtendTimeouts_sup_onCrystal (s : State) :
    (endExtendTimeouts s).sup.onCrystal = s.sup.onCrystal := rfl
@[simp] theorem endExtendTimeouts_sup_crystalTimer (s : State) :
    (endExtendTimeouts s).sup.crystalTimer = s.sup.crystalTimer := rfl
@[simp] theorem endExtendTimeouts_pending (s : State) : (endExtendTimeouts s).pending = s.pending := rfl

/-! ### startBank -/

@[simp] theorem startBank_now (pick : Ch → Bool) (s : State) : (startBank pick s).now = s.now := rfl
@[simp] theorem startBank_strap (pick : Ch → Bool) (s : State) :
    (startBank pick s).strap = s.strap := rfl
@[simp] theorem startBank_inhibitInput (pick : Ch → Bool) (s : State) :
    (startBank pick s).inhibitInput = s.inhibitInput := rfl
@[simp] theorem startBank_ctl (pick : Ch → Bool) (s : State) : (startBank pick s).ctl = s.ctl := rfl
@[simp] theorem startBank_plan (pick : Ch → Bool) (s : State) : (startBank pick s).plan = s.plan := rfl
@[simp] theorem startBank_seq_cycleTimer (pick : Ch → Bool) (s : State) :
    (startBank pick s).seq.cycleTimer = s.seq.cycleTimer := rfl
@[simp] theorem startBank_seq_expiryHeld (pick : Ch → Bool) (s : State) :
    (startBank pick s).seq.expiryHeld = s.seq.expiryHeld := rfl
@[simp] theorem startBank_seq_height (pick : Ch → Bool) (s : State) :
    (startBank pick s).seq.height = s.seq.height := rfl
@[simp] theorem startBank_seq_strokeCount (pick : Ch → Bool) (s : State) :
    (startBank pick s).seq.strokeCount = s.seq.strokeCount := rfl
@[simp] theorem startBank_stack (pick : Ch → Bool) (s : State) :
    (startBank pick s).stack = s.stack := rfl
@[simp] theorem startBank_cure (pick : Ch → Bool) (s : State) : (startBank pick s).cure = s.cure := rfl
@[simp] theorem startBank_feed (pick : Ch → Bool) (s : State) : (startBank pick s).feed = s.feed := rfl
@[simp] theorem startBank_peers (pick : Ch → Bool) (s : State) :
    (startBank pick s).peers = s.peers := rfl
@[simp] theorem startBank_line (pick : Ch → Bool) (s : State) : (startBank pick s).line = s.line := rfl
@[simp] theorem startBank_join (pick : Ch → Bool) (s : State) : (startBank pick s).join = s.join := rfl
@[simp] theorem startBank_sup (pick : Ch → Bool) (s : State) : (startBank pick s).sup = s.sup := rfl
@[simp] theorem startBank_pending (pick : Ch → Bool) (s : State) :
    (startBank pick s).pending = s.pending := rfl

/-! ### unlatchAbsent -/

@[simp] theorem unlatchAbsent_now (s : State) : (unlatchAbsent s).now = s.now := rfl
@[simp] theorem unlatchAbsent_strap (s : State) : (unlatchAbsent s).strap = s.strap := rfl
@[simp] theorem unlatchAbsent_inhibitInput (s : State) :
    (unlatchAbsent s).inhibitInput = s.inhibitInput := rfl
@[simp] theorem unlatchAbsent_ctl (s : State) : (unlatchAbsent s).ctl = s.ctl := rfl
@[simp] theorem unlatchAbsent_plan (s : State) : (unlatchAbsent s).plan = s.plan := rfl
@[simp] theorem unlatchAbsent_seq (s : State) : (unlatchAbsent s).seq = s.seq := rfl
@[simp] theorem unlatchAbsent_stack (s : State) : (unlatchAbsent s).stack = s.stack := rfl
@[simp] theorem unlatchAbsent_cure (s : State) : (unlatchAbsent s).cure = s.cure := rfl
@[simp] theorem unlatchAbsent_feed (s : State) : (unlatchAbsent s).feed = s.feed := rfl
@[simp] theorem unlatchAbsent_peers (s : State) : (unlatchAbsent s).peers = s.peers := rfl
@[simp] theorem unlatchAbsent_line (s : State) : (unlatchAbsent s).line = s.line := rfl
@[simp] theorem unlatchAbsent_join (s : State) : (unlatchAbsent s).join = s.join := rfl
@[simp] theorem unlatchAbsent_sup_present (s : State) :
    (unlatchAbsent s).sup.present = s.sup.present := rfl
@[simp] theorem unlatchAbsent_sup_latched (s : State) :
    (unlatchAbsent s).sup.latched = s.sup.latched.filter fun c => !unlatchable s c := rfl
@[simp] theorem unlatchAbsent_sup_armed (s : State) : (unlatchAbsent s).sup.armed = s.sup.armed := rfl
@[simp] theorem unlatchAbsent_sup_haltCause (s : State) :
    (unlatchAbsent s).sup.haltCause = s.sup.haltCause := rfl
@[simp] theorem unlatchAbsent_sup_clearPending (s : State) :
    (unlatchAbsent s).sup.clearPending = s.sup.clearPending := rfl
@[simp] theorem unlatchAbsent_sup_clearTimer (s : State) :
    (unlatchAbsent s).sup.clearTimer = s.sup.clearTimer := rfl
@[simp] theorem unlatchAbsent_sup_drive (s : State) : (unlatchAbsent s).sup.drive = s.sup.drive := rfl
@[simp] theorem unlatchAbsent_sup_loopSensed (s : State) :
    (unlatchAbsent s).sup.loopSensed = s.sup.loopSensed := rfl
@[simp] theorem unlatchAbsent_sup_supplyLow (s : State) :
    (unlatchAbsent s).sup.supplyLow = s.sup.supplyLow := rfl
@[simp] theorem unlatchAbsent_sup_onCrystal (s : State) :
    (unlatchAbsent s).sup.onCrystal = s.sup.onCrystal := rfl
@[simp] theorem unlatchAbsent_sup_crystalTimer (s : State) :
    (unlatchAbsent s).sup.crystalTimer = s.sup.crystalTimer := rfl
@[simp] theorem unlatchAbsent_pending (s : State) : (unlatchAbsent s).pending = s.pending := rfl

/-! ### unlatchHalt -/

@[simp] theorem unlatchHalt_now (s : State) : (unlatchHalt s).now = s.now := rfl
@[simp] theorem unlatchHalt_strap (s : State) : (unlatchHalt s).strap = s.strap := rfl
@[simp] theorem unlatchHalt_inhibitInput (s : State) :
    (unlatchHalt s).inhibitInput = s.inhibitInput := rfl
@[simp] theorem unlatchHalt_ctl (s : State) : (unlatchHalt s).ctl = s.ctl := rfl
@[simp] theorem unlatchHalt_plan (s : State) : (unlatchHalt s).plan = s.plan := rfl
@[simp] theorem unlatchHalt_seq (s : State) : (unlatchHalt s).seq = s.seq := rfl
@[simp] theorem unlatchHalt_stack (s : State) : (unlatchHalt s).stack = s.stack := rfl
@[simp] theorem unlatchHalt_cure (s : State) : (unlatchHalt s).cure = s.cure := rfl
@[simp] theorem unlatchHalt_feed (s : State) : (unlatchHalt s).feed = s.feed := rfl
@[simp] theorem unlatchHalt_peers (s : State) : (unlatchHalt s).peers = s.peers := rfl
@[simp] theorem unlatchHalt_line (s : State) : (unlatchHalt s).line = s.line := rfl
@[simp] theorem unlatchHalt_join (s : State) : (unlatchHalt s).join = s.join := rfl
@[simp] theorem unlatchHalt_sup_present (s : State) : (unlatchHalt s).sup.present = s.sup.present := rfl
@[simp] theorem unlatchHalt_sup_latched (s : State) :
    (unlatchHalt s).sup.latched = s.sup.latched.filter (· != .haltLoop) := rfl
@[simp] theorem unlatchHalt_sup_armed (s : State) : (unlatchHalt s).sup.armed = s.sup.armed := rfl
@[simp] theorem unlatchHalt_sup_haltCause (s : State) :
    (unlatchHalt s).sup.haltCause = none := rfl
@[simp] theorem unlatchHalt_sup_clearPending (s : State) :
    (unlatchHalt s).sup.clearPending = false := rfl
@[simp] theorem unlatchHalt_sup_clearTimer (s : State) :
    (unlatchHalt s).sup.clearTimer = none := rfl
@[simp] theorem unlatchHalt_sup_drive (s : State) : (unlatchHalt s).sup.drive = s.sup.drive := rfl
@[simp] theorem unlatchHalt_sup_loopSensed (s : State) :
    (unlatchHalt s).sup.loopSensed = s.sup.loopSensed := rfl
@[simp] theorem unlatchHalt_sup_supplyLow (s : State) :
    (unlatchHalt s).sup.supplyLow = s.sup.supplyLow := rfl
@[simp] theorem unlatchHalt_sup_onCrystal (s : State) :
    (unlatchHalt s).sup.onCrystal = s.sup.onCrystal := rfl
@[simp] theorem unlatchHalt_sup_crystalTimer (s : State) :
    (unlatchHalt s).sup.crystalTimer = s.sup.crystalTimer := rfl
@[simp] theorem unlatchHalt_pending (s : State) : (unlatchHalt s).pending = s.pending := rfl

/-! ### freeChannels -/

@[simp] theorem freeChannels_now (b : State) (s : State) : (freeChannels b s).now = s.now := rfl
@[simp] theorem freeChannels_strap (b : State) (s : State) : (freeChannels b s).strap = s.strap := rfl
@[simp] theorem freeChannels_inhibitInput (b : State) (s : State) :
    (freeChannels b s).inhibitInput = s.inhibitInput := rfl
@[simp] theorem freeChannels_ctl (b : State) (s : State) : (freeChannels b s).ctl = s.ctl := rfl
@[simp] theorem freeChannels_plan (b : State) (s : State) : (freeChannels b s).plan = s.plan := rfl
@[simp] theorem freeChannels_seq_cycleTimer (b : State) (s : State) :
    (freeChannels b s).seq.cycleTimer = s.seq.cycleTimer := rfl
@[simp] theorem freeChannels_seq_expiryHeld (b : State) (s : State) :
    (freeChannels b s).seq.expiryHeld = s.seq.expiryHeld := rfl
@[simp] theorem freeChannels_seq_height (b : State) (s : State) :
    (freeChannels b s).seq.height = s.seq.height := rfl
@[simp] theorem freeChannels_seq_strokeCount (b : State) (s : State) :
    (freeChannels b s).seq.strokeCount = s.seq.strokeCount := rfl
@[simp] theorem freeChannels_stack (b : State) (s : State) : (freeChannels b s).stack = s.stack := rfl
@[simp] theorem freeChannels_cure (b : State) (s : State) : (freeChannels b s).cure = s.cure := rfl
@[simp] theorem freeChannels_feed (b : State) (s : State) : (freeChannels b s).feed = s.feed := rfl
@[simp] theorem freeChannels_peers (b : State) (s : State) : (freeChannels b s).peers = s.peers := rfl
@[simp] theorem freeChannels_line (b : State) (s : State) : (freeChannels b s).line = s.line := rfl
@[simp] theorem freeChannels_join (b : State) (s : State) : (freeChannels b s).join = s.join := rfl
@[simp] theorem freeChannels_sup (b : State) (s : State) : (freeChannels b s).sup = s.sup := rfl
@[simp] theorem freeChannels_pending (b : State) (s : State) :
    (freeChannels b s).pending = s.pending := rfl

/-! ### retryAttempt -/

@[simp] theorem retryAttempt_now (s : State) : (retryAttempt s).now = s.now := rfl
@[simp] theorem retryAttempt_strap (s : State) : (retryAttempt s).strap = s.strap := rfl
@[simp] theorem retryAttempt_inhibitInput (s : State) :
    (retryAttempt s).inhibitInput = s.inhibitInput := rfl
@[simp] theorem retryAttempt_ctl (s : State) : (retryAttempt s).ctl = s.ctl := rfl
@[simp] theorem retryAttempt_plan (s : State) : (retryAttempt s).plan = s.plan := rfl
@[simp] theorem retryAttempt_seq (s : State) : (retryAttempt s).seq = s.seq := rfl
@[simp] theorem retryAttempt_stack (s : State) : (retryAttempt s).stack = s.stack := rfl
@[simp] theorem retryAttempt_cure (s : State) : (retryAttempt s).cure = s.cure := rfl
@[simp] theorem retryAttempt_feed (s : State) : (retryAttempt s).feed = s.feed := rfl
@[simp] theorem retryAttempt_peers (s : State) : (retryAttempt s).peers = s.peers := rfl
@[simp] theorem retryAttempt_line_report (s : State) :
    (retryAttempt s).line.report = s.line.report.retry := rfl
@[simp] theorem retryAttempt_line_idle (s : State) : (retryAttempt s).line.idle = s.line.idle := rfl
@[simp] theorem retryAttempt_line_errors (s : State) :
    (retryAttempt s).line.errors = s.line.errors := rfl
@[simp] theorem retryAttempt_line_muted (s : State) : (retryAttempt s).line.muted = s.line.muted := rfl
@[simp] theorem retryAttempt_line_muteTimer (s : State) :
    (retryAttempt s).line.muteTimer = s.line.muteTimer := rfl
@[simp] theorem retryAttempt_line_busyTimer (s : State) :
    (retryAttempt s).line.busyTimer = s.line.busyTimer := rfl
@[simp] theorem retryAttempt_line_reportTimer (s : State) :
    (retryAttempt s).line.reportTimer = s.line.reportTimer := rfl
@[simp] theorem retryAttempt_line_sender (s : State) :
    (retryAttempt s).line.sender = s.line.sender := rfl
@[simp] theorem retryAttempt_line_frame (s : State) :
    (retryAttempt s).line.frame = none := rfl
@[simp] theorem retryAttempt_join (s : State) : (retryAttempt s).join = s.join := rfl
@[simp] theorem retryAttempt_sup (s : State) : (retryAttempt s).sup = s.sup := rfl
@[simp] theorem retryAttempt_pending (s : State) : (retryAttempt s).pending = s.pending := rfl

/-! ### attemptSent -/

@[simp] theorem attemptSent_now (s : State) : (attemptSent s).now = s.now := rfl
@[simp] theorem attemptSent_strap (s : State) : (attemptSent s).strap = s.strap := rfl
@[simp] theorem attemptSent_inhibitInput (s : State) :
    (attemptSent s).inhibitInput = s.inhibitInput := rfl
@[simp] theorem attemptSent_ctl (s : State) : (attemptSent s).ctl = s.ctl := rfl
@[simp] theorem attemptSent_plan (s : State) : (attemptSent s).plan = s.plan := rfl
@[simp] theorem attemptSent_seq (s : State) : (attemptSent s).seq = s.seq := rfl
@[simp] theorem attemptSent_stack (s : State) : (attemptSent s).stack = s.stack := rfl
@[simp] theorem attemptSent_cure (s : State) : (attemptSent s).cure = s.cure := rfl
@[simp] theorem attemptSent_feed (s : State) : (attemptSent s).feed = s.feed := rfl
@[simp] theorem attemptSent_peers (s : State) : (attemptSent s).peers = s.peers := rfl
@[simp] theorem attemptSent_line_report (s : State) :
    (attemptSent s).line.report = s.line.report.sent := rfl
@[simp] theorem attemptSent_line_idle (s : State) : (attemptSent s).line.idle = s.line.idle := rfl
@[simp] theorem attemptSent_line_errors (s : State) :
    (attemptSent s).line.errors = 0 := rfl
@[simp] theorem attemptSent_line_muted (s : State) : (attemptSent s).line.muted = s.line.muted := rfl
@[simp] theorem attemptSent_line_muteTimer (s : State) :
    (attemptSent s).line.muteTimer = s.line.muteTimer := rfl
@[simp] theorem attemptSent_line_busyTimer (s : State) :
    (attemptSent s).line.busyTimer = s.line.busyTimer := rfl
@[simp] theorem attemptSent_line_reportTimer (s : State) :
    (attemptSent s).line.reportTimer = s.line.reportTimer := rfl
@[simp] theorem attemptSent_line_sender (s : State) : (attemptSent s).line.sender = s.line.sender := rfl
@[simp] theorem attemptSent_line_frame (s : State) :
    (attemptSent s).line.frame = none := rfl
@[simp] theorem attemptSent_join (s : State) : (attemptSent s).join = s.join := rfl
@[simp] theorem attemptSent_sup (s : State) : (attemptSent s).sup = s.sup := rfl
@[simp] theorem attemptSent_pending (s : State) : (attemptSent s).pending = s.pending := rfl

/-! ### tickCure -/

@[simp] theorem tickCure_now (s : State) :
    (tickCure s).now = max s.now (s.cure.sampleTimer.getD 0) := rfl
@[simp] theorem tickCure_strap (s : State) : (tickCure s).strap = s.strap := rfl
@[simp] theorem tickCure_inhibitInput (s : State) : (tickCure s).inhibitInput = s.inhibitInput := rfl
@[simp] theorem tickCure_ctl (s : State) : (tickCure s).ctl = s.ctl := rfl
@[simp] theorem tickCure_plan (s : State) : (tickCure s).plan = s.plan := rfl
@[simp] theorem tickCure_seq (s : State) : (tickCure s).seq = s.seq := rfl
@[simp] theorem tickCure_stack (s : State) : (tickCure s).stack = s.stack := rfl
@[simp] theorem tickCure_cure_clock (s : State) :
    (tickCure s).cure.clock = (s.cure.clock + 1) % 65536 := rfl
@[simp] theorem tickCure_cure_lastTemp (s : State) : (tickCure s).cure.lastTemp = s.cure.lastTemp := rfl
@[simp] theorem tickCure_cure_missed (s : State) : (tickCure s).cure.missed = s.cure.missed := rfl
@[simp] theorem tickCure_cure_rate (s : State) : (tickCure s).cure.rate = s.cure.rate := rfl
@[simp] theorem tickCure_cure_inUse (s : State) : (tickCure s).cure.inUse = s.cure.inUse := rfl
@[simp] theorem tickCure_feed (s : State) : (tickCure s).feed = s.feed := rfl
@[simp] theorem tickCure_peers (s : State) : (tickCure s).peers = s.peers := rfl
@[simp] theorem tickCure_line (s : State) : (tickCure s).line = s.line := rfl
@[simp] theorem tickCure_join (s : State) : (tickCure s).join = s.join := rfl
@[simp] theorem tickCure_sup (s : State) : (tickCure s).sup = s.sup := rfl
@[simp] theorem tickCure_pending (s : State) : (tickCure s).pending = s.pending := rfl

/-! ### temperatureRead -/

@[simp] theorem temperatureRead_now (raw : Int) (s : State) : (temperatureRead raw s).now = s.now := rfl
@[simp] theorem temperatureRead_strap (raw : Int) (s : State) :
    (temperatureRead raw s).strap = s.strap := rfl
@[simp] theorem temperatureRead_inhibitInput (raw : Int) (s : State) :
    (temperatureRead raw s).inhibitInput = s.inhibitInput := rfl
@[simp] theorem temperatureRead_ctl (raw : Int) (s : State) : (temperatureRead raw s).ctl = s.ctl := rfl
@[simp] theorem temperatureRead_plan (raw : Int) (s : State) :
    (temperatureRead raw s).plan = s.plan := rfl
@[simp] theorem temperatureRead_seq (raw : Int) (s : State) : (temperatureRead raw s).seq = s.seq := rfl
@[simp] theorem temperatureRead_stack (raw : Int) (s : State) :
    (temperatureRead raw s).stack = s.stack := rfl
@[simp] theorem temperatureRead_cure_clock (raw : Int) (s : State) :
    (temperatureRead raw s).cure.clock = s.cure.clock := rfl
@[simp] theorem temperatureRead_cure_sampleTimer (raw : Int) (s : State) :
    (temperatureRead raw s).cure.sampleTimer = s.cure.sampleTimer := rfl
@[simp] theorem temperatureRead_cure_lastTemp (raw : Int) (s : State) :
    (temperatureRead raw s).cure.lastTemp = some (raw + s.setup.tempTrim) := rfl
@[simp] theorem temperatureRead_cure_missed (raw : Int) (s : State) :
    (temperatureRead raw s).cure.missed = 0 := rfl
@[simp] theorem temperatureRead_cure_rate (raw : Int) (s : State) :
    (temperatureRead raw s).cure.rate = s.cure.rate := rfl
@[simp] theorem temperatureRead_cure_inUse (raw : Int) (s : State) :
    (temperatureRead raw s).cure.inUse = some (raw + s.setup.tempTrim) := rfl
@[simp] theorem temperatureRead_feed (raw : Int) (s : State) :
    (temperatureRead raw s).feed = s.feed := rfl
@[simp] theorem temperatureRead_peers (raw : Int) (s : State) :
    (temperatureRead raw s).peers = s.peers := rfl
@[simp] theorem temperatureRead_line (raw : Int) (s : State) :
    (temperatureRead raw s).line = s.line := rfl
@[simp] theorem temperatureRead_join (raw : Int) (s : State) :
    (temperatureRead raw s).join = s.join := rfl
@[simp] theorem temperatureRead_sup (raw : Int) (s : State) : (temperatureRead raw s).sup = s.sup := rfl
@[simp] theorem temperatureRead_pending (raw : Int) (s : State) :
    (temperatureRead raw s).pending = s.pending := rfl

/-! ### temperatureMissed -/

@[simp] theorem temperatureMissed_now (s : State) : (temperatureMissed s).now = s.now := rfl
@[simp] theorem temperatureMissed_strap (s : State) : (temperatureMissed s).strap = s.strap := rfl
@[simp] theorem temperatureMissed_inhibitInput (s : State) :
    (temperatureMissed s).inhibitInput = s.inhibitInput := rfl
@[simp] theorem temperatureMissed_ctl (s : State) : (temperatureMissed s).ctl = s.ctl := rfl
@[simp] theorem temperatureMissed_plan (s : State) : (temperatureMissed s).plan = s.plan := rfl
@[simp] theorem temperatureMissed_seq (s : State) : (temperatureMissed s).seq = s.seq := rfl
@[simp] theorem temperatureMissed_stack (s : State) : (temperatureMissed s).stack = s.stack := rfl
@[simp] theorem temperatureMissed_cure_clock (s : State) :
    (temperatureMissed s).cure.clock = s.cure.clock := rfl
@[simp] theorem temperatureMissed_cure_sampleTimer (s : State) :
    (temperatureMissed s).cure.sampleTimer = s.cure.sampleTimer := rfl
@[simp] theorem temperatureMissed_cure_lastTemp (s : State) :
    (temperatureMissed s).cure.lastTemp = s.cure.lastTemp := rfl
@[simp] theorem temperatureMissed_cure_missed (s : State) :
    (temperatureMissed s).cure.missed = min 255 (s.cure.missed + 1) := rfl
@[simp] theorem temperatureMissed_cure_inUse (s : State) :
    (temperatureMissed s).cure.inUse
      = if s.isPresent .temperature = false ∧ min 255 (s.cure.missed + 1) ≤ s.setup.tempHold then
          s.cure.lastTemp
        else none := rfl
@[simp] theorem temperatureMissed_cure_rate (s : State) :
    (temperatureMissed s).cure.rate = s.cure.rate := rfl
@[simp] theorem temperatureMissed_feed (s : State) : (temperatureMissed s).feed = s.feed := rfl
@[simp] theorem temperatureMissed_peers (s : State) : (temperatureMissed s).peers = s.peers := rfl
@[simp] theorem temperatureMissed_line (s : State) : (temperatureMissed s).line = s.line := rfl
@[simp] theorem temperatureMissed_join (s : State) : (temperatureMissed s).join = s.join := rfl
@[simp] theorem temperatureMissed_sup (s : State) : (temperatureMissed s).sup = s.sup := rfl
@[simp] theorem temperatureMissed_pending (s : State) : (temperatureMissed s).pending = s.pending := rfl

/-! ### applyCure -/

@[simp] theorem applyCure_now (s : State) : (applyCure s).now = s.now := rfl
@[simp] theorem applyCure_strap (s : State) : (applyCure s).strap = s.strap := rfl
@[simp] theorem applyCure_inhibitInput (s : State) : (applyCure s).inhibitInput = s.inhibitInput := rfl
@[simp] theorem applyCure_ctl (s : State) : (applyCure s).ctl = s.ctl := rfl
@[simp] theorem applyCure_plan (s : State) : (applyCure s).plan = s.plan := rfl
@[simp] theorem applyCure_seq (s : State) : (applyCure s).seq = s.seq := rfl
@[simp] theorem applyCure_stack_layers (s : State) :
    (applyCure s).stack.layers = addMaturity (sampleRate s) s.stack.layers := rfl
@[simp] theorem applyCure_stack_concreteTop (s : State) :
    (applyCure s).stack.concreteTop = s.stack.concreteTop := rfl
@[simp] theorem applyCure_stack_nextSeq (s : State) :
    (applyCure s).stack.nextSeq = s.stack.nextSeq := rfl
@[simp] theorem applyCure_stack_reckoning (s : State) :
    (applyCure s).stack.reckoning = s.stack.reckoning := rfl
@[simp] theorem applyCure_cure_clock (s : State) : (applyCure s).cure.clock = s.cure.clock := rfl
@[simp] theorem applyCure_cure_sampleTimer (s : State) :
    (applyCure s).cure.sampleTimer = s.cure.sampleTimer := rfl
@[simp] theorem applyCure_cure_lastTemp (s : State) :
    (applyCure s).cure.lastTemp = s.cure.lastTemp := rfl
@[simp] theorem applyCure_cure_missed (s : State) : (applyCure s).cure.missed = s.cure.missed := rfl
@[simp] theorem applyCure_cure_rate (s : State) :
    (applyCure s).cure.rate = sampleRate s := rfl
@[simp] theorem applyCure_cure_inUse (s : State) : (applyCure s).cure.inUse = s.cure.inUse := rfl
@[simp] theorem applyCure_feed (s : State) : (applyCure s).feed = s.feed := rfl
@[simp] theorem applyCure_peers (s : State) : (applyCure s).peers = s.peers := rfl
@[simp] theorem applyCure_line (s : State) : (applyCure s).line = s.line := rfl
@[simp] theorem applyCure_join_ownNumber (s : State) :
    (applyCure s).join.ownNumber = s.join.ownNumber := rfl
@[simp] theorem applyCure_join_stage (s : State) : (applyCure s).join.stage = s.join.stage := rfl
@[simp] theorem applyCure_join_staged (s : State) : (applyCure s).join.staged = s.join.staged := rfl
@[simp] theorem applyCure_join_marks (s : State) : (applyCure s).join.marks = s.join.marks := rfl
@[simp] theorem applyCure_join_committed (s : State) :
    (applyCure s).join.committed = s.join.committed := rfl
@[simp] theorem applyCure_join_windowTimer (s : State) :
    (applyCure s).join.windowTimer = s.join.windowTimer := rfl
@[simp] theorem applyCure_join_requestTimer (s : State) :
    (applyCure s).join.requestTimer = s.join.requestTimer := rfl
@[simp] theorem applyCure_join_itemsReceived (s : State) :
    (applyCure s).join.itemsReceived = s.join.itemsReceived := rfl
@[simp] theorem applyCure_join_lastCommit (s : State) :
    (applyCure s).join.lastCommit = s.join.lastCommit := rfl
@[simp] theorem applyCure_join_kind (s : State) : (applyCure s).join.kind = s.join.kind := rfl
@[simp] theorem applyCure_join_listenTimer (s : State) :
    (applyCure s).join.listenTimer = s.join.listenTimer := rfl
@[simp] theorem applyCure_join_state (s : State) : (applyCure s).join.state = s.join.state := rfl
@[simp] theorem applyCure_join_restoredMode (s : State) :
    (applyCure s).join.restoredMode = s.join.restoredMode := rfl
@[simp] theorem applyCure_sup (s : State) : (applyCure s).sup = s.sup := rfl
@[simp] theorem applyCure_pending (s : State) : (applyCure s).pending = s.pending := rfl

/-! ### releaseHeld -/

@[simp] theorem releaseHeld_now (k : Nat) (s : State) : (releaseHeld k s).now = s.now := rfl
@[simp] theorem releaseHeld_strap (k : Nat) (s : State) : (releaseHeld k s).strap = s.strap := rfl
@[simp] theorem releaseHeld_inhibitInput (k : Nat) (s : State) :
    (releaseHeld k s).inhibitInput = s.inhibitInput := rfl
@[simp] theorem releaseHeld_ctl_mode (k : Nat) (s : State) :
    (releaseHeld k s).ctl.mode = s.ctl.mode := rfl
@[simp] theorem releaseHeld_ctl_pause (k : Nat) (s : State) :
    (releaseHeld k s).ctl.pause = s.ctl.pause := rfl
@[simp] theorem releaseHeld_ctl_released (k : Nat) (s : State) :
    (releaseHeld k s).ctl.released = releaseSegment k s.ctl.released := rfl
@[simp] theorem releaseHeld_ctl_rateScale (k : Nat) (s : State) :
    (releaseHeld k s).ctl.rateScale = s.ctl.rateScale := rfl
@[simp] theorem releaseHeld_ctl_feedHold (k : Nat) (s : State) :
    (releaseHeld k s).ctl.feedHold = s.ctl.feedHold := rfl
@[simp] theorem releaseHeld_ctl_refusal (k : Nat) (s : State) :
    (releaseHeld k s).ctl.refusal = s.ctl.refusal := rfl
@[simp] theorem releaseHeld_ctl_returnMode (k : Nat) (s : State) :
    (releaseHeld k s).ctl.returnMode = s.ctl.returnMode := rfl
@[simp] theorem releaseHeld_plan (k : Nat) (s : State) : (releaseHeld k s).plan = s.plan := rfl
@[simp] theorem releaseHeld_seq (k : Nat) (s : State) : (releaseHeld k s).seq = s.seq := rfl
@[simp] theorem releaseHeld_stack (k : Nat) (s : State) : (releaseHeld k s).stack = s.stack := rfl
@[simp] theorem releaseHeld_cure (k : Nat) (s : State) : (releaseHeld k s).cure = s.cure := rfl
@[simp] theorem releaseHeld_feed (k : Nat) (s : State) : (releaseHeld k s).feed = s.feed := rfl
@[simp] theorem releaseHeld_peers (k : Nat) (s : State) : (releaseHeld k s).peers = s.peers := rfl
@[simp] theorem releaseHeld_line (k : Nat) (s : State) : (releaseHeld k s).line = s.line := rfl
@[simp] theorem releaseHeld_join_ownNumber (k : Nat) (s : State) :
    (releaseHeld k s).join.ownNumber = s.join.ownNumber := rfl
@[simp] theorem releaseHeld_join_stage (k : Nat) (s : State) :
    (releaseHeld k s).join.stage = s.join.stage := rfl
@[simp] theorem releaseHeld_join_staged (k : Nat) (s : State) :
    (releaseHeld k s).join.staged = s.join.staged := rfl
@[simp] theorem releaseHeld_join_marks (k : Nat) (s : State) :
    (releaseHeld k s).join.marks = s.join.marks := rfl
@[simp] theorem releaseHeld_join_committed (k : Nat) (s : State) :
    (releaseHeld k s).join.committed = s.join.committed := rfl
@[simp] theorem releaseHeld_join_windowTimer (k : Nat) (s : State) :
    (releaseHeld k s).join.windowTimer = s.join.windowTimer := rfl
@[simp] theorem releaseHeld_join_requestTimer (k : Nat) (s : State) :
    (releaseHeld k s).join.requestTimer = s.join.requestTimer := rfl
@[simp] theorem releaseHeld_join_itemsReceived (k : Nat) (s : State) :
    (releaseHeld k s).join.itemsReceived = s.join.itemsReceived := rfl
@[simp] theorem releaseHeld_join_lastCommit (k : Nat) (s : State) :
    (releaseHeld k s).join.lastCommit = s.join.lastCommit := rfl
@[simp] theorem releaseHeld_join_kind (k : Nat) (s : State) :
    (releaseHeld k s).join.kind = s.join.kind := rfl
@[simp] theorem releaseHeld_join_listenTimer (k : Nat) (s : State) :
    (releaseHeld k s).join.listenTimer = s.join.listenTimer := rfl
@[simp] theorem releaseHeld_join_state (k : Nat) (s : State) :
    (releaseHeld k s).join.state = s.join.state := rfl
@[simp] theorem releaseHeld_join_restoredMode (k : Nat) (s : State) :
    (releaseHeld k s).join.restoredMode = s.join.restoredMode := rfl
@[simp] theorem releaseHeld_sup (k : Nat) (s : State) : (releaseHeld k s).sup = s.sup := rfl
@[simp] theorem releaseHeld_pending (k : Nat) (s : State) : (releaseHeld k s).pending = s.pending := rfl

/-! ### tickProbe -/

@[simp] theorem tickProbe_now (s : State) :
    (tickProbe s).now = max s.now (s.feed.probeTimer.getD 0) := rfl
@[simp] theorem tickProbe_strap (s : State) : (tickProbe s).strap = s.strap := rfl
@[simp] theorem tickProbe_inhibitInput (s : State) : (tickProbe s).inhibitInput = s.inhibitInput := rfl
@[simp] theorem tickProbe_ctl (s : State) : (tickProbe s).ctl = s.ctl := rfl
@[simp] theorem tickProbe_plan (s : State) : (tickProbe s).plan = s.plan := rfl
@[simp] theorem tickProbe_seq (s : State) : (tickProbe s).seq = s.seq := rfl
@[simp] theorem tickProbe_stack (s : State) : (tickProbe s).stack = s.stack := rfl
@[simp] theorem tickProbe_cure (s : State) : (tickProbe s).cure = s.cure := rfl
@[simp] theorem tickProbe_feed_state (s : State) : (tickProbe s).feed.state = s.feed.state := rfl
@[simp] theorem tickProbe_feed_settled (s : State) : (tickProbe s).feed.settled = s.feed.settled := rfl
@[simp] theorem tickProbe_feed_settleTimer (s : State) :
    (tickProbe s).feed.settleTimer = s.feed.settleTimer := rfl
@[simp] theorem tickProbe_feed_feedTimer (s : State) :
    (tickProbe s).feed.feedTimer = s.feed.feedTimer := rfl
@[simp] theorem tickProbe_feed_gate (s : State) : (tickProbe s).feed.gate = s.feed.gate := rfl
@[simp] theorem tickProbe_feed_depth (s : State) : (tickProbe s).feed.depth = s.feed.depth := rfl
@[simp] theorem tickProbe_feed_blankTimer (s : State) :
    (tickProbe s).feed.blankTimer = s.feed.blankTimer := rfl
@[simp] theorem tickProbe_feed_probeValid (s : State) :
    (tickProbe s).feed.probeValid = s.feed.probeValid := rfl
@[simp] theorem tickProbe_peers (s : State) : (tickProbe s).peers = s.peers := rfl
@[simp] theorem tickProbe_line (s : State) : (tickProbe s).line = s.line := rfl
@[simp] theorem tickProbe_join (s : State) : (tickProbe s).join = s.join := rfl
@[simp] theorem tickProbe_sup (s : State) : (tickProbe s).sup = s.sup := rfl
@[simp] theorem tickProbe_pending (s : State) : (tickProbe s).pending = s.pending := rfl

/-! ### stageItem -/

@[simp] theorem stageItem_now (id : Nat) (v : Int) (s : State) : (stageItem id v s).now = s.now := rfl
@[simp] theorem stageItem_strap (id : Nat) (v : Int) (s : State) :
    (stageItem id v s).strap = s.strap := rfl
@[simp] theorem stageItem_inhibitInput (id : Nat) (v : Int) (s : State) :
    (stageItem id v s).inhibitInput = s.inhibitInput := rfl
@[simp] theorem stageItem_ctl (id : Nat) (v : Int) (s : State) : (stageItem id v s).ctl = s.ctl := rfl
@[simp] theorem stageItem_plan (id : Nat) (v : Int) (s : State) : (stageItem id v s).plan = s.plan := rfl
@[simp] theorem stageItem_seq (id : Nat) (v : Int) (s : State) : (stageItem id v s).seq = s.seq := rfl
@[simp] theorem stageItem_stack (id : Nat) (v : Int) (s : State) :
    (stageItem id v s).stack = s.stack := rfl
@[simp] theorem stageItem_cure (id : Nat) (v : Int) (s : State) : (stageItem id v s).cure = s.cure := rfl
@[simp] theorem stageItem_feed (id : Nat) (v : Int) (s : State) : (stageItem id v s).feed = s.feed := rfl
@[simp] theorem stageItem_peers (id : Nat) (v : Int) (s : State) :
    (stageItem id v s).peers = s.peers := rfl
@[simp] theorem stageItem_line (id : Nat) (v : Int) (s : State) : (stageItem id v s).line = s.line := rfl
@[simp] theorem stageItem_join_ownNumber (id : Nat) (v : Int) (s : State) :
    (stageItem id v s).join.ownNumber = s.join.ownNumber := rfl
@[simp] theorem stageItem_join_stage (id : Nat) (v : Int) (s : State) :
    (stageItem id v s).join.stage = .window := rfl
@[simp] theorem stageItem_join_staged (id : Nat) (v : Int) (s : State) :
    (stageItem id v s).join.staged = s.join.staged.put id v := rfl
@[simp] theorem stageItem_join_marks (id : Nat) (v : Int) (s : State) :
    (stageItem id v s).join.marks = s.join.marks.setIfInBounds (id - 1) (!itemInRange id v) := rfl
@[simp] theorem stageItem_join_committed (id : Nat) (v : Int) (s : State) :
    (stageItem id v s).join.committed = s.join.committed := rfl
@[simp] theorem stageItem_join_requestTimer (id : Nat) (v : Int) (s : State) :
    (stageItem id v s).join.requestTimer = s.join.requestTimer := rfl
@[simp] theorem stageItem_join_itemsReceived (id : Nat) (v : Int) (s : State) :
    (stageItem id v s).join.itemsReceived = min 255 (s.join.itemsReceived + 1) := rfl
@[simp] theorem stageItem_join_lastCommit (id : Nat) (v : Int) (s : State) :
    (stageItem id v s).join.lastCommit = s.join.lastCommit := rfl
@[simp] theorem stageItem_join_kind (id : Nat) (v : Int) (s : State) :
    (stageItem id v s).join.kind = s.join.kind := rfl
@[simp] theorem stageItem_join_listenTimer (id : Nat) (v : Int) (s : State) :
    (stageItem id v s).join.listenTimer = s.join.listenTimer := rfl
@[simp] theorem stageItem_join_state (id : Nat) (v : Int) (s : State) :
    (stageItem id v s).join.state = s.join.state := rfl
@[simp] theorem stageItem_join_restoredMode (id : Nat) (v : Int) (s : State) :
    (stageItem id v s).join.restoredMode = s.join.restoredMode := rfl
@[simp] theorem stageItem_join_imageA (id : Nat) (v : Int) (s : State) :
    (stageItem id v s).join.imageA = s.join.imageA := rfl
@[simp] theorem stageItem_join_imageB (id : Nat) (v : Int) (s : State) :
    (stageItem id v s).join.imageB = s.join.imageB := rfl
@[simp] theorem stageItem_sup (id : Nat) (v : Int) (s : State) : (stageItem id v s).sup = s.sup := rfl
@[simp] theorem stageItem_pending (id : Nat) (v : Int) (s : State) :
    (stageItem id v s).pending = s.pending := rfl

/-! ### takeCommit -/

@[simp] theorem takeCommit_now (s : State) : (takeCommit s).now = s.now := rfl
@[simp] theorem takeCommit_strap (s : State) : (takeCommit s).strap = s.strap := rfl
@[simp] theorem takeCommit_inhibitInput (s : State) : (takeCommit s).inhibitInput = s.inhibitInput := rfl
@[simp] theorem takeCommit_ctl (s : State) : (takeCommit s).ctl = s.ctl := rfl
@[simp] theorem takeCommit_plan (s : State) : (takeCommit s).plan = s.plan := rfl
@[simp] theorem takeCommit_seq (s : State) : (takeCommit s).seq = s.seq := rfl
@[simp] theorem takeCommit_stack (s : State) : (takeCommit s).stack = s.stack := rfl
@[simp] theorem takeCommit_cure (s : State) : (takeCommit s).cure = s.cure := rfl
@[simp] theorem takeCommit_feed (s : State) : (takeCommit s).feed = s.feed := rfl
@[simp] theorem takeCommit_peers (s : State) : (takeCommit s).peers = s.peers := rfl
@[simp] theorem takeCommit_line (s : State) : (takeCommit s).line = s.line := rfl
@[simp] theorem takeCommit_join_ownNumber (s : State) :
    (takeCommit s).join.ownNumber = s.join.ownNumber := rfl
@[simp] theorem takeCommit_join_stage (s : State) :
    (takeCommit s).join.stage = .committed := rfl
@[simp] theorem takeCommit_join_staged (s : State) : (takeCommit s).join.staged = s.join.staged := rfl
@[simp] theorem takeCommit_join_marks (s : State) : (takeCommit s).join.marks = s.join.marks := rfl
@[simp] theorem takeCommit_join_committed (s : State) :
    (takeCommit s).join.committed = some s.join.staged := rfl
@[simp] theorem takeCommit_join_windowTimer (s : State) :
    (takeCommit s).join.windowTimer = none := rfl
@[simp] theorem takeCommit_join_requestTimer (s : State) :
    (takeCommit s).join.requestTimer = none := rfl
@[simp] theorem takeCommit_join_itemsReceived (s : State) :
    (takeCommit s).join.itemsReceived = s.join.itemsReceived := rfl
@[simp] theorem takeCommit_join_lastCommit (s : State) :
    (takeCommit s).join.lastCommit = s.join.lastCommit := rfl
@[simp] theorem takeCommit_join_kind (s : State) :
    (takeCommit s).join.kind = .afterCommit := rfl
@[simp] theorem takeCommit_join_listenTimer (s : State) :
    (takeCommit s).join.listenTimer = some (s.now + s.join.staged.listenLength) := rfl
@[simp] theorem takeCommit_join_state (s : State) :
    (takeCommit s).join.state = .listening := rfl
@[simp] theorem takeCommit_join_restoredMode (s : State) :
    (takeCommit s).join.restoredMode = s.join.restoredMode := rfl
@[simp] theorem takeCommit_join_imageA (s : State) : (takeCommit s).join.imageA = s.join.imageA := rfl
@[simp] theorem takeCommit_join_imageB (s : State) : (takeCommit s).join.imageB = s.join.imageB := rfl
@[simp] theorem takeCommit_sup (s : State) : (takeCommit s).sup = s.sup := rfl
@[simp] theorem takeCommit_pending (s : State) : (takeCommit s).pending = s.pending := rfl

/-! ### bringIntoForce -/

@[simp] theorem bringIntoForce_now (s : State) : (bringIntoForce s).now = s.now := rfl
@[simp] theorem bringIntoForce_strap (s : State) : (bringIntoForce s).strap = s.strap := rfl
@[simp] theorem bringIntoForce_inhibitInput (s : State) :
    (bringIntoForce s).inhibitInput = s.inhibitInput := rfl
@[simp] theorem bringIntoForce_ctl (s : State) : (bringIntoForce s).ctl = s.ctl := rfl
@[simp] theorem bringIntoForce_plan (s : State) : (bringIntoForce s).plan = s.plan := rfl
@[simp] theorem bringIntoForce_seq_cycleTimer (s : State) :
    (bringIntoForce s).seq.cycleTimer = s.seq.cycleTimer := rfl
@[simp] theorem bringIntoForce_seq_expiryHeld (s : State) :
    (bringIntoForce s).seq.expiryHeld = s.seq.expiryHeld := rfl
@[simp] theorem bringIntoForce_seq_height (s : State) :
    (bringIntoForce s).seq.height = s.seq.height := rfl
@[simp] theorem bringIntoForce_seq_strokeCount (s : State) :
    (bringIntoForce s).seq.strokeCount = s.seq.strokeCount := rfl
@[simp] theorem bringIntoForce_stack (s : State) : (bringIntoForce s).stack = s.stack := rfl
@[simp] theorem bringIntoForce_cure (s : State) : (bringIntoForce s).cure = s.cure := rfl
@[simp] theorem bringIntoForce_feed_state (s : State) :
    (bringIntoForce s).feed.state = s.feed.state := rfl
@[simp] theorem bringIntoForce_feed_settled (s : State) :
    (bringIntoForce s).feed.settled = s.feed.settled := rfl
@[simp] theorem bringIntoForce_feed_settleTimer (s : State) :
    (bringIntoForce s).feed.settleTimer = s.feed.settleTimer := rfl
@[simp] theorem bringIntoForce_feed_feedTimer (s : State) :
    (bringIntoForce s).feed.feedTimer = s.feed.feedTimer := rfl
@[simp] theorem bringIntoForce_feed_gate (s : State) : (bringIntoForce s).feed.gate = s.feed.gate := rfl
@[simp] theorem bringIntoForce_feed_blankTimer (s : State) :
    (bringIntoForce s).feed.blankTimer = s.feed.blankTimer := rfl
@[simp] theorem bringIntoForce_feed_probeTimer (s : State) :
    (bringIntoForce s).feed.probeTimer = s.feed.probeTimer := rfl
@[simp] theorem bringIntoForce_peers_records (s : State) :
    (bringIntoForce s).peers.records = s.peers.records.filter fun p => decide (p.number ≤ s.setup.roster) := rfl
@[simp] theorem bringIntoForce_peers_dupMiss (s : State) :
    (bringIntoForce s).peers.dupMiss = s.peers.dupMiss := rfl
@[simp] theorem bringIntoForce_peers_dupHeard (s : State) :
    (bringIntoForce s).peers.dupHeard = s.peers.dupHeard := rfl
@[simp] theorem bringIntoForce_peers_links (s : State) :
    (bringIntoForce s).peers.links = linkList s.join.ownNumber s.setup := rfl
@[simp] theorem bringIntoForce_line (s : State) : (bringIntoForce s).line = s.line := rfl
@[simp] theorem bringIntoForce_join (s : State) : (bringIntoForce s).join = s.join := rfl
@[simp] theorem bringIntoForce_sup (s : State) : (bringIntoForce s).sup = s.sup := rfl
@[simp] theorem bringIntoForce_pending (s : State) : (bringIntoForce s).pending = s.pending := rfl

/-! ### setHeights -/

@[simp] theorem setHeights_now (h : Nat) (s : State) : (setHeights h s).now = s.now := rfl
@[simp] theorem setHeights_strap (h : Nat) (s : State) : (setHeights h s).strap = s.strap := rfl
@[simp] theorem setHeights_inhibitInput (h : Nat) (s : State) :
    (setHeights h s).inhibitInput = s.inhibitInput := rfl
@[simp] theorem setHeights_ctl (h : Nat) (s : State) : (setHeights h s).ctl = s.ctl := rfl
@[simp] theorem setHeights_plan (h : Nat) (s : State) : (setHeights h s).plan = s.plan := rfl
@[simp] theorem setHeights_seq_cycleTimer (h : Nat) (s : State) :
    (setHeights h s).seq.cycleTimer = s.seq.cycleTimer := rfl
@[simp] theorem setHeights_seq_expiryHeld (h : Nat) (s : State) :
    (setHeights h s).seq.expiryHeld = s.seq.expiryHeld := rfl
@[simp] theorem setHeights_seq_height (h : Nat) (s : State) :
    (setHeights h s).seq.height = h := rfl
@[simp] theorem setHeights_seq_strokeCount (h : Nat) (s : State) :
    (setHeights h s).seq.strokeCount = s.seq.strokeCount := rfl
@[simp] theorem setHeights_stack (h : Nat) (s : State) : (setHeights h s).stack = s.stack := rfl
@[simp] theorem setHeights_cure (h : Nat) (s : State) : (setHeights h s).cure = s.cure := rfl
@[simp] theorem setHeights_feed (h : Nat) (s : State) : (setHeights h s).feed = s.feed := rfl
@[simp] theorem setHeights_peers (h : Nat) (s : State) : (setHeights h s).peers = s.peers := rfl
@[simp] theorem setHeights_line (h : Nat) (s : State) : (setHeights h s).line = s.line := rfl
@[simp] theorem setHeights_join (h : Nat) (s : State) : (setHeights h s).join = s.join := rfl
@[simp] theorem setHeights_sup (h : Nat) (s : State) : (setHeights h s).sup = s.sup := rfl
@[simp] theorem setHeights_pending (h : Nat) (s : State) : (setHeights h s).pending = s.pending := rfl

end Sys2Proof.Machine
end

