-- ==== Sys2Proof/Laws/Ops.lean ====
section
/-! SUPPORT. What each shared operation can do, said once: for every operation that branches, the states it
can answer with the condition of each, and the items it never touches (`Aside`). -/

namespace Sys2Proof.Machine

/-! ### The items that modes, pauses, latches and the feed permission never touch -/

/-- The time, the pins, the cure integrator, the peer table, the join unit but for the two retained images,
and the queue stand as they were. -/
structure Aside (s t : State) : Prop where
  now : t.now = s.now
  strap : t.strap = s.strap
  inhibitInput : t.inhibitInput = s.inhibitInput
  cure : t.cure = s.cure
  peers : t.peers = s.peers
  join : ∃ a b, t.join = { s.join with imageA := a, imageB := b }
  pending : t.pending = s.pending

theorem Aside.refl (s : State) : Aside s s := ⟨rfl, rfl, rfl, rfl, rfl, ⟨_, _, rfl⟩, rfl⟩

theorem Aside.trans {s t u : State} (h : Aside s t) (k : Aside t u) : Aside s u := by
  obtain ⟨a, b, hj⟩ := h.join
  obtain ⟨c, d, kj⟩ := k.join
  exact ⟨k.now.trans h.now, k.strap.trans h.strap, k.inhibitInput.trans h.inhibitInput,
    k.cure.trans h.cure, k.peers.trans h.peers, ⟨c, d, by rw [kj, hj]⟩, k.pending.trans h.pending⟩

/-- The setup record in force is read from the join unit. -/
theorem Aside.setup {s t : State} (h : Aside s t) : t.setup = s.setup := by
  obtain ⟨a, b, hj⟩ := h.join
  simp [State.setup, hj]

/-- The join state, its kind and the own number are read from the join unit. -/
theorem Aside.join_state {s t : State} (h : Aside s t) : t.join.state = s.join.state := by
  obtain ⟨a, b, hj⟩ := h.join
  rw [hj]

theorem Aside.join_kind {s t : State} (h : Aside s t) : t.join.kind = s.join.kind := by
  obtain ⟨a, b, hj⟩ := h.join
  rw [hj]

theorem Aside.ownNumber {s t : State} (h : Aside s t) : t.join.ownNumber = s.join.ownNumber := by
  obtain ⟨a, b, hj⟩ := h.join
  rw [hj]

theorem Aside.allAvailable {s t : State} (h : Aside s t) : allAvailable t = allAvailable s := by
  have e : available t = available s := by
    funext n; simp only [available, peerOf, h.peers]
  simp only [Machine.allAvailable, h.peers, e]

theorem Aside.classOf {s t : State} (h : Aside s t) (c : Cond) : t.classOf c = s.classOf c := by
  simp [State.classOf, h.setup]

theorem aside_requestReport (p : Prio) (s : State) : Aside s (requestReport p s) :=
  ⟨rfl, rfl, rfl, rfl, rfl, ⟨_, _, rfl⟩, rfl⟩

theorem aside_closeGate (n : FeedState) (s : State) : Aside s (closeGate n s) :=
  ⟨rfl, rfl, rfl, rfl, rfl, ⟨_, _, rfl⟩, rfl⟩

theorem aside_enterAsking (s : State) : Aside s (enterAsking s) :=
  ⟨rfl, rfl, rfl, rfl, rfl, ⟨_, _, rfl⟩, rfl⟩

theorem aside_leaveAsking (s : State) : Aside s (leaveAsking s) :=
  ⟨rfl, rfl, rfl, rfl, rfl, ⟨_, _, rfl⟩, rfl⟩

theorem aside_openGate (s : State) : Aside s (openGate s) := ⟨rfl, rfl, rfl, rfl, rfl, ⟨_, _, rfl⟩, rfl⟩

theorem aside_takeMode (m : Mode) (p : PauseSet) (s : State) : Aside s (takeMode m p s) :=
  ⟨rfl, rfl, rfl, rfl, rfl, ⟨_, _, rfl⟩, rfl⟩

theorem aside_keepChange (b : Bool) (s : State) : Aside s (keepChange b s) :=
  ⟨rfl, rfl, rfl, rfl, rfl, ⟨_, _, rfl⟩, rfl⟩

theorem aside_removeExited (s : State) : Aside s (removeExited s) :=
  ⟨rfl, rfl, rfl, rfl, rfl, ⟨_, _, rfl⟩, rfl⟩

theorem aside_workHeight (s : State) : Aside s (workHeight s) := ⟨rfl, rfl, rfl, rfl, rfl, ⟨_, _, rfl⟩, rfl⟩

theorem aside_updateCh (c : Ch) (f : Channel → Channel) (s : State) : Aside s (updateCh c f s) :=
  ⟨rfl, rfl, rfl, rfl, rfl, ⟨_, _, rfl⟩, rfl⟩

theorem aside_updateAll (f : Channel → Channel) (s : State) : Aside s (updateAll f s) :=
  ⟨rfl, rfl, rfl, rfl, rfl, ⟨_, _, rfl⟩, rfl⟩

theorem aside_joinLatched (c : Cond) (s : State) : Aside s (joinLatched c s) :=
  ⟨rfl, rfl, rfl, rfl, rfl, ⟨_, _, rfl⟩, rfl⟩

theorem aside_cutExtensions (s : State) : Aside s (cutExtensions s) :=
  ⟨rfl, rfl, rfl, rfl, rfl, ⟨_, _, rfl⟩, rfl⟩

/-! ### The feed permission -/

/-- A station in IDLE either asks, under R112, or stays as it is. -/
theorem askIfShort_cases (s : State) :
    (s.feed.state = .idle ∧ feedAllowed s = true ∧ depthCalls s = true
        ∧ askIfShort s = enterAsking s)
      ∨ (¬(s.feed.state = .idle ∧ feedAllowed s = true ∧ depthCalls s = true)
        ∧ askIfShort s = s) := by
  by_cases h : s.feed.state = .idle ∧ feedAllowed s = true ∧ depthCalls s = true
  · exact .inl ⟨h.1, h.2.1, h.2.2, by simp [askIfShort, h]⟩
  · exact .inr ⟨h, by simp [askIfShort, h]⟩

/-- What a change of the permission does: nothing where it stays or the station is in IDLE without it, an
ask where it comes, a return to IDLE or a close where it goes. -/
theorem rejudgeFeed_cases (was : Bool) (s : State) :
    (feedAllowed s = true ∧ was = true ∧ rejudgeFeed was s = s)
      ∨ (feedAllowed s = true ∧ was = false ∧ rejudgeFeed was s = askIfShort s)
      ∨ (feedAllowed s = false ∧ s.feed.state = .idle ∧ rejudgeFeed was s = s)
      ∨ (feedAllowed s = false ∧ s.feed.state = .asking ∧ rejudgeFeed was s = leaveAsking s)
      ∨ (feedAllowed s = false ∧ s.feed.state = .opened
        ∧ rejudgeFeed was s = closeGate .idle s) := by
  cases ha : feedAllowed s <;> cases hw : was <;> cases hf : s.feed.state <;>
    simp [rejudgeFeed, ha, hf]

theorem aside_askIfShort (s : State) : Aside s (askIfShort s) := by
  rcases askIfShort_cases s with ⟨-, -, -, h⟩ | ⟨-, h⟩ <;> rw [h]
  · exact aside_enterAsking s
  · exact Aside.refl s

theorem aside_rejudgeFeed (was : Bool) (s : State) : Aside s (rejudgeFeed was s) := by
  rcases rejudgeFeed_cases was s with ⟨-, -, h⟩ | ⟨-, -, h⟩ | ⟨-, -, h⟩ | ⟨-, -, h⟩ | ⟨-, -, h⟩ <;>
    rw [h]
  · exact Aside.refl s
  · exact aside_askIfShort s
  · exact Aside.refl s
  · exact aside_leaveAsking s
  · exact aside_closeGate .idle s

/-- The permission touches the feed, the reckoning mark and the REPORT slot only. -/
@[simp] theorem rejudgeFeed_ctl (was : Bool) (s : State) : (rejudgeFeed was s).ctl = s.ctl := by
  rcases rejudgeFeed_cases was s with ⟨-, -, h⟩ | ⟨-, -, h⟩ | ⟨-, -, h⟩ | ⟨-, -, h⟩ | ⟨-, -, h⟩ <;>
    rw [h]
  any_goals rfl
  rcases askIfShort_cases s with ⟨-, -, -, k⟩ | ⟨-, k⟩ <;> rw [k]
  rfl

@[simp] theorem rejudgeFeed_plan (was : Bool) (s : State) : (rejudgeFeed was s).plan = s.plan := by
  rcases rejudgeFeed_cases was s with ⟨-, -, h⟩ | ⟨-, -, h⟩ | ⟨-, -, h⟩ | ⟨-, -, h⟩ | ⟨-, -, h⟩ <;>
    rw [h]
  any_goals rfl
  rcases askIfShort_cases s with ⟨-, -, -, k⟩ | ⟨-, k⟩ <;> rw [k]
  rfl

@[simp] theorem rejudgeFeed_seq (was : Bool) (s : State) : (rejudgeFeed was s).seq = s.seq := by
  rcases rejudgeFeed_cases was s with ⟨-, -, h⟩ | ⟨-, -, h⟩ | ⟨-, -, h⟩ | ⟨-, -, h⟩ | ⟨-, -, h⟩ <;>
    rw [h]
  any_goals rfl
  rcases askIfShort_cases s with ⟨-, -, -, k⟩ | ⟨-, k⟩ <;> rw [k]
  rfl

@[simp] theorem rejudgeFeed_sup (was : Bool) (s : State) : (rejudgeFeed was s).sup = s.sup := by
  rcases rejudgeFeed_cases was s with ⟨-, -, h⟩ | ⟨-, -, h⟩ | ⟨-, -, h⟩ | ⟨-, -, h⟩ | ⟨-, -, h⟩ <;>
    rw [h]
  any_goals rfl
  rcases askIfShort_cases s with ⟨-, -, -, k⟩ | ⟨-, k⟩ <;> rw [k]
  rfl

@[simp] theorem rejudgeFeed_layers (was : Bool) (s : State) :
    (rejudgeFeed was s).stack.layers = s.stack.layers := by
  rcases rejudgeFeed_cases was s with ⟨-, -, h⟩ | ⟨-, -, h⟩ | ⟨-, -, h⟩ | ⟨-, -, h⟩ | ⟨-, -, h⟩ <;>
    rw [h]
  any_goals rfl
  rcases askIfShort_cases s with ⟨-, -, -, k⟩ | ⟨-, k⟩ <;> rw [k]
  rfl

/-! ### Entering a mode -/

/-- Where the entry checks take a station that enters a mode: to TOPPED, to PAUSED at a waiting segment,
or to the mode itself (R11). -/
theorem settle_cases (m : Mode) (p : PauseSet) (s : State) :
    (m.works = true ∧ atTop s = true ∧ settle m p s = (.topped, .empty))
      ∨ (m.climbs = true ∧ atTop s = false ∧ (addWaiting s p).isEmpty = true
        ∧ settle m p s = (m, addWaiting s p))
      ∨ (m.climbs = true ∧ atTop s = false ∧ (addWaiting s p).isEmpty = false
        ∧ settle m p s = (.paused, addWaiting s p))
      ∨ (m.climbs = false ∧ (m.works = false ∨ atTop s = false) ∧ settle m p s = (m, p)) := by
  cases m <;> cases ht : atTop s <;> cases he : (addWaiting s p).isEmpty <;>
    simp [settle, Mode.works, Mode.climbs, ht, he]

/-- An entry is the mode taken where the entry checks settle, and the feed permission judged again. -/
theorem enterMode_eq (m : Mode) (s : State) :
    enterMode m s
      = rejudgeFeed (feedAllowed s)
          (takeMode (settle m (entryPause m s) s).1 (settle m (entryPause m s) s).2
            (if m = .climbing then { s with plan.ramp := 0 } else s)) := rfl

theorem aside_enterMode (m : Mode) (s : State) : Aside s (enterMode m s) := by
  rw [enterMode_eq]
  refine Aside.trans ?_ (aside_rejudgeFeed _ _)
  split <;> exact ⟨rfl, rfl, rfl, rfl, rfl, ⟨_, _, rfl⟩, rfl⟩

@[simp] theorem enterMode_mode (m : Mode) (s : State) :
    (enterMode m s).ctl.mode = (settle m (entryPause m s) s).1 := by
  rw [enterMode_eq, rejudgeFeed_ctl, takeMode_ctl_mode]

@[simp] theorem enterMode_pause (m : Mode) (s : State) :
    (enterMode m s).ctl.pause = (settle m (entryPause m s) s).2 := by
  rw [enterMode_eq, rejudgeFeed_ctl, takeMode_ctl_pause]

@[simp] theorem enterMode_released (m : Mode) (s : State) :
    (enterMode m s).ctl.released = s.ctl.released := by
  rw [enterMode_eq, rejudgeFeed_ctl, takeMode_ctl_released]; split <;> rfl

@[simp] theorem enterMode_rateScale (m : Mode) (s : State) :
    (enterMode m s).ctl.rateScale = s.ctl.rateScale := by
  rw [enterMode_eq, rejudgeFeed_ctl, takeMode_ctl_rateScale]; split <;> rfl

@[simp] theorem enterMode_feedHold (m : Mode) (s : State) :
    (enterMode m s).ctl.feedHold = s.ctl.feedHold := by
  rw [enterMode_eq, rejudgeFeed_ctl, takeMode_ctl_feedHold]; split <;> rfl

@[simp] theorem enterMode_refusal (m : Mode) (s : State) :
    (enterMode m s).ctl.refusal = s.ctl.refusal := by
  rw [enterMode_eq, rejudgeFeed_ctl, takeMode_ctl_refusal]; split <;> rfl

@[simp] theorem enterMode_returnMode (m : Mode) (s : State) :
    (enterMode m s).ctl.returnMode = none := by
  rw [enterMode_eq, rejudgeFeed_ctl, takeMode_ctl_returnMode]

@[simp] theorem enterMode_sup (m : Mode) (s : State) : (enterMode m s).sup = s.sup := by
  rw [enterMode_eq, rejudgeFeed_sup, takeMode_sup]; split <;> rfl

@[simp] theorem enterMode_chans (m : Mode) (s : State) :
    (enterMode m s).seq.chans = s.seq.chans := by
  rw [enterMode_eq, rejudgeFeed_seq, takeMode_seq_chans]; split <;> rfl

@[simp] theorem enterMode_height (m : Mode) (s : State) :
    (enterMode m s).seq.height = s.seq.height := by
  rw [enterMode_eq, rejudgeFeed_seq, takeMode_seq_height]; split <;> rfl

@[simp] theorem enterMode_strokeCount (m : Mode) (s : State) :
    (enterMode m s).seq.strokeCount = s.seq.strokeCount := by
  rw [enterMode_eq, rejudgeFeed_seq, takeMode_seq_strokeCount]; split <;> rfl

@[simp] theorem enterMode_layers (m : Mode) (s : State) :
    (enterMode m s).stack.layers = s.stack.layers := by
  rw [enterMode_eq, rejudgeFeed_layers, takeMode_stack]; split <;> rfl

/-! ### The pause-cause set -/

/-- A member joins in CLIMBING with the entry to PAUSED, in PAUSED and in a REDUCED that returns to one of
the two without it, and nowhere else. -/
theorem addPause_cases (f : PauseSet → PauseSet) (s : State) :
    (s.ctl.mode = .climbing
        ∧ addPause f s = enterMode .paused { s with ctl.pause := f s.ctl.pause })
      ∨ ((s.ctl.mode = .paused
          ∨ (s.ctl.mode = .reduced ∧ (s.ctl.returnMode.getD .reduced).climbs = true))
        ∧ addPause f s = { s with ctl.pause := f s.ctl.pause })
      ∨ (s.ctl.mode.climbs = false
        ∧ (s.ctl.mode ≠ .reduced ∨ (s.ctl.returnMode.getD .reduced).climbs = false)
        ∧ addPause f s = s) := by
  have hc : ∀ m : Mode, m.climbs = true ↔ m = .climbing ∨ m = .paused := by
    intro m; cases m <;> decide
  cases hr : (s.ctl.returnMode.getD .reduced).climbs <;> cases hm : s.ctl.mode <;>
    simp [addPause, hm, hr, ← Bool.not_eq_true, hc]

/-- A member leaves: nothing where it was no member, the entry to CLIMBING where it was the last in
PAUSED, the smaller set otherwise. -/
theorem dropPause_cases (f : PauseSet → PauseSet) (s : State) :
    (f s.ctl.pause = s.ctl.pause ∧ dropPause f s = s)
      ∨ (f s.ctl.pause ≠ s.ctl.pause ∧ s.ctl.mode = .paused
        ∧ (f s.ctl.pause).isEmpty = true
        ∧ dropPause f s = enterMode .climbing { s with ctl.pause := f s.ctl.pause })
      ∨ (f s.ctl.pause ≠ s.ctl.pause
        ∧ ¬(s.ctl.mode = .paused ∧ (f s.ctl.pause).isEmpty = true)
        ∧ dropPause f s = { s with ctl.pause := f s.ctl.pause }) := by
  by_cases h : f s.ctl.pause = s.ctl.pause
  · exact .inl ⟨h, by simp [dropPause, h]⟩
  · by_cases k : s.ctl.mode = .paused ∧ (f s.ctl.pause).isEmpty = true
    · exact .inr (.inl ⟨h, k.1, k.2, by simp [dropPause, h, k]⟩)
    · exact .inr (.inr ⟨h, k, by simp only [dropPause, h, k, if_false]⟩)

theorem aside_setPause (p : PauseSet) (s : State) : Aside s { s with ctl.pause := p } :=
  ⟨rfl, rfl, rfl, rfl, rfl, ⟨_, _, rfl⟩, rfl⟩

theorem aside_setPresent (cs : List Cond) (s : State) : Aside s { s with sup.present := cs } :=
  ⟨rfl, rfl, rfl, rfl, rfl, ⟨_, _, rfl⟩, rfl⟩

theorem aside_addPause (f : PauseSet → PauseSet) (s : State) : Aside s (addPause f s) := by
  rcases addPause_cases f s with ⟨-, h⟩ | ⟨-, h⟩ | ⟨-, -, h⟩ <;> rw [h]
  · exact (aside_setPause _ s).trans (aside_enterMode _ _)
  · exact aside_setPause _ s
  · exact Aside.refl s

theorem aside_dropPause (f : PauseSet → PauseSet) (s : State) : Aside s (dropPause f s) := by
  rcases dropPause_cases f s with ⟨-, h⟩ | ⟨-, -, -, h⟩ | ⟨-, -, h⟩ <;> rw [h]
  · exact Aside.refl s
  · exact (aside_setPause _ s).trans (aside_enterMode _ _)
  · exact aside_setPause _ s

@[simp] theorem addPause_sup (f : PauseSet → PauseSet) (s : State) :
    (addPause f s).sup = s.sup := by
  rcases addPause_cases f s with ⟨-, h⟩ | ⟨-, h⟩ | ⟨-, -, h⟩ <;> simp [h]

@[simp] theorem addPause_chans (f : PauseSet → PauseSet) (s : State) :
    (addPause f s).seq.chans = s.seq.chans := by
  rcases addPause_cases f s with ⟨-, h⟩ | ⟨-, h⟩ | ⟨-, -, h⟩ <;> simp [h]

@[simp] theorem addPause_height (f : PauseSet → PauseSet) (s : State) :
    (addPause f s).seq.height = s.seq.height := by
  rcases addPause_cases f s with ⟨-, h⟩ | ⟨-, h⟩ | ⟨-, -, h⟩ <;> simp [h]

@[simp] theorem addPause_layers (f : PauseSet → PauseSet) (s : State) :
    (addPause f s).stack.layers = s.stack.layers := by
  rcases addPause_cases f s with ⟨-, h⟩ | ⟨-, h⟩ | ⟨-, -, h⟩ <;> simp [h]

@[simp] theorem dropPause_sup (f : PauseSet → PauseSet) (s : State) :
    (dropPause f s).sup = s.sup := by
  rcases dropPause_cases f s with ⟨-, h⟩ | ⟨-, -, -, h⟩ | ⟨-, -, h⟩ <;> simp [h]

@[simp] theorem dropPause_chans (f : PauseSet → PauseSet) (s : State) :
    (dropPause f s).seq.chans = s.seq.chans := by
  rcases dropPause_cases f s with ⟨-, h⟩ | ⟨-, -, -, h⟩ | ⟨-, -, h⟩ <;> simp [h]

@[simp] theorem dropPause_height (f : PauseSet → PauseSet) (s : State) :
    (dropPause f s).seq.height = s.seq.height := by
  rcases dropPause_cases f s with ⟨-, h⟩ | ⟨-, -, -, h⟩ | ⟨-, -, h⟩ <;> simp [h]

@[simp] theorem dropPause_layers (f : PauseSet → PauseSet) (s : State) :
    (dropPause f s).stack.layers = s.stack.layers := by
  rcases dropPause_cases f s with ⟨-, h⟩ | ⟨-, -, -, h⟩ | ⟨-, -, h⟩ <;> simp [h]

/-- FAULT HOLD joins at the first onset, leaves at the last end, and otherwise stays. -/
theorem followHold_cases (before : Bool) (s : State) :
    (before = s.holdPresent ∧ followHold before s = s)
      ∨ (before = true ∧ s.holdPresent = false
        ∧ followHold before s = dropPause (fun p => { p with faultHold := false }) s)
      ∨ (before = false ∧ s.holdPresent = true
        ∧ followHold before s = addPause (fun p => { p with faultHold := true }) s) := by
  cases hb : before <;> cases hh : s.holdPresent <;> simp [followHold, hh]

theorem aside_followHold (before : Bool) (s : State) : Aside s (followHold before s) := by
  rcases followHold_cases before s with ⟨-, h⟩ | ⟨-, -, h⟩ | ⟨-, -, h⟩ <;> rw [h]
  · exact Aside.refl s
  · exact aside_dropPause _ _
  · exact aside_addPause _ _

@[simp] theorem followHold_sup (before : Bool) (s : State) : (followHold before s).sup = s.sup := by
  rcases followHold_cases before s with ⟨-, h⟩ | ⟨-, -, h⟩ | ⟨-, -, h⟩ <;> simp [h]

@[simp] theorem followHold_chans (before : Bool) (s : State) :
    (followHold before s).seq.chans = s.seq.chans := by
  rcases followHold_cases before s with ⟨-, h⟩ | ⟨-, -, h⟩ | ⟨-, -, h⟩ <;> simp [h]

@[simp] theorem followHold_height (before : Bool) (s : State) :
    (followHold before s).seq.height = s.seq.height := by
  rcases followHold_cases before s with ⟨-, h⟩ | ⟨-, -, h⟩ | ⟨-, -, h⟩ <;> simp [h]

@[simp] theorem followHold_layers (before : Bool) (s : State) :
    (followHold before s).stack.layers = s.stack.layers := by
  rcases followHold_cases before s with ⟨-, h⟩ | ⟨-, -, h⟩ | ⟨-, -, h⟩ <;> simp [h]

theorem checkRejoin_cases (s : State) :
    (s.ctl.pause.rejoin = true ∧ allAvailable s = true
        ∧ checkRejoin s = dropPause (fun p => { p with rejoin := false }) s)
      ∨ ((s.ctl.pause.rejoin = false ∨ allAvailable s = false) ∧ checkRejoin s = s) := by
  cases hr : s.ctl.pause.rejoin <;> cases ha : allAvailable s <;> simp [checkRejoin, hr, ha]

theorem aside_checkRejoin (s : State) : Aside s (checkRejoin s) := by
  rcases checkRejoin_cases s with ⟨-, -, h⟩ | ⟨-, h⟩ <;> rw [h]
  · exact aside_dropPause _ _
  · exact Aside.refl s

theorem segmentCheck_cases (s : State) :
    (s.ctl.mode.climbs = true ∧ s.ctl.pause.segment = none
        ∧ (waitingSegment s).isSome = true ∧ segmentCheck s = addPause (addWaiting s) s)
      ∨ ((s.ctl.mode.climbs = false ∨ s.ctl.pause.segment ≠ none ∨ waitingSegment s = none)
        ∧ segmentCheck s = s) := by
  cases hc : s.ctl.mode.climbs <;> cases hp : s.ctl.pause.segment <;>
    cases hw : waitingSegment s <;> simp [segmentCheck, hc, hp, hw]

theorem aside_segmentCheck (s : State) : Aside s (segmentCheck s) := by
  rcases segmentCheck_cases s with ⟨-, -, -, h⟩ | ⟨-, h⟩ <;> rw [h]
  · exact aside_addPause _ _
  · exact Aside.refl s

theorem creditChecks_cases (s : State) :
    (s.ctl.mode.works = true ∧ atTop s = true ∧ creditChecks s = enterMode .topped s)
      ∨ ((s.ctl.mode.works = false ∨ atTop s = false) ∧ creditChecks s = segmentCheck s) := by
  cases hw : s.ctl.mode.works <;> cases ht : atTop s <;> simp [creditChecks, hw, ht]

theorem aside_creditChecks (s : State) : Aside s (creditChecks s) := by
  rcases creditChecks_cases s with ⟨-, -, h⟩ | ⟨-, h⟩ <;> rw [h]
  · exact aside_enterMode _ _
  · exact aside_segmentCheck s

/-! ### Conditions and latches -/

/-- A latch stops a working station, or makes STOPPED its return mode, and otherwise leaves the mode. -/
theorem latchMode_cases (s : State) :
    (s.ctl.mode.works = true ∧ latchMode s = enterMode .stopped s)
      ∨ (s.ctl.mode = .reduced ∧ (s.ctl.returnMode.getD .reduced).works = true
        ∧ latchMode s
          = keepChange true { s with ctl.returnMode := some .stopped, ctl.pause := .empty })
      ∨ (s.ctl.mode.works = false
        ∧ (s.ctl.mode ≠ .reduced ∨ (s.ctl.returnMode.getD .reduced).works = false)
        ∧ latchMode s = s) := by
  have hw : ∀ m : Mode, m.works = true ↔ m = .standing ∨ m = .climbing ∨ m = .paused := by
    intro m; cases m <;> decide
  cases hr : (s.ctl.returnMode.getD .reduced).works <;> cases hm : s.ctl.mode <;>
    simp [latchMode, hm, hr, ← Bool.not_eq_true, hw]

theorem aside_latchMode (s : State) : Aside s (latchMode s) := by
  rcases latchMode_cases s with ⟨-, h⟩ | ⟨-, -, h⟩ | ⟨-, -, h⟩ <;> rw [h]
  · exact aside_enterMode _ _
  · exact ⟨rfl, rfl, rfl, rfl, rfl, ⟨_, _, rfl⟩, rfl⟩
  · exact Aside.refl s

@[simp] theorem latchMode_sup (s : State) : (latchMode s).sup = s.sup := by
  rcases latchMode_cases s with ⟨-, h⟩ | ⟨-, -, h⟩ | ⟨-, -, h⟩ <;> simp [h]

@[simp] theorem latchMode_chans (s : State) : (latchMode s).seq.chans = s.seq.chans := by
  rcases latchMode_cases s with ⟨-, h⟩ | ⟨-, -, h⟩ | ⟨-, -, h⟩ <;> simp [h]

@[simp] theorem latchMode_height (s : State) : (latchMode s).seq.height = s.seq.height := by
  rcases latchMode_cases s with ⟨-, h⟩ | ⟨-, -, h⟩ | ⟨-, -, h⟩ <;> simp [h]

@[simp] theorem latchMode_layers (s : State) : (latchMode s).stack.layers = s.stack.layers := by
  rcases latchMode_cases s with ⟨-, h⟩ | ⟨-, -, h⟩ | ⟨-, -, h⟩ <;> simp [h]

/-- A latched TRIP-class entry sets the halt drive; any other leaves the state. -/
theorem pullForTrip_cases (c : Cond) (s : State) :
    (s.classOf c = .trip ∧ pullForTrip c s = { s with sup.drive := true })
      ∨ (s.classOf c ≠ .trip ∧ pullForTrip c s = s) := by
  by_cases h : s.classOf c = .trip <;> simp [pullForTrip, h]

theorem aside_pullForTrip (c : Cond) (s : State) : Aside s (pullForTrip c s) := by
  rcases pullForTrip_cases c s with ⟨-, h⟩ | ⟨-, h⟩ <;> rw [h]
  · exact ⟨rfl, rfl, rfl, rfl, rfl, ⟨_, _, rfl⟩, rfl⟩
  · exact Aside.refl s

/-- An entry latches once: it joins, the mode controller acts, the extensions are cut, a TRIP pulls and the
record is rewritten. -/
theorem latch_cases (c : Cond) (s : State) :
    (s.isLatched c = true ∧ latch c s = s)
      ∨ (s.isLatched c = false
        ∧ latch c s
          = keepChange true (pullForTrip c (cutExtensions (latchMode (joinLatched c s))))) := by
  cases h : s.isLatched c <;> simp [latch, h]

theorem aside_latch (c : Cond) (s : State) : Aside s (latch c s) := by
  rcases latch_cases c s with ⟨-, h⟩ | ⟨-, h⟩ <;> rw [h]
  · exact Aside.refl s
  · exact (aside_joinLatched c s).trans ((aside_latchMode _).trans
      ((aside_cutExtensions _).trans ((aside_pullForTrip c _).trans (aside_keepChange true _))))

/-- A latch adds its entry at the end of the latched set, or finds it there. -/
theorem latch_latched (c : Cond) (s : State) :
    (latch c s).sup.latched
      = if s.isLatched c = true then s.sup.latched else s.sup.latched ++ [c] := by
  rcases latch_cases c s with ⟨hc, h⟩ | ⟨hc, h⟩ <;> rw [h]
  · simp [hc]
  · rcases pullForTrip_cases c (cutExtensions (latchMode (joinLatched c s))) with ⟨-, k⟩ | ⟨-, k⟩ <;>
      rw [k] <;> simp [hc]

@[simp] theorem latch_present (c : Cond) (s : State) :
    (latch c s).sup.present = s.sup.present := by
  rcases latch_cases c s with ⟨-, h⟩ | ⟨-, h⟩ <;> rw [h]
  rcases pullForTrip_cases c (cutExtensions (latchMode (joinLatched c s))) with ⟨-, k⟩ | ⟨-, k⟩ <;>
    rw [k] <;> simp

@[simp] theorem latch_height (c : Cond) (s : State) : (latch c s).seq.height = s.seq.height := by
  rcases latch_cases c s with ⟨-, h⟩ | ⟨-, h⟩ <;> rw [h]
  rcases pullForTrip_cases c (cutExtensions (latchMode (joinLatched c s))) with ⟨-, k⟩ | ⟨-, k⟩ <;>
    rw [k] <;> simp

@[simp] theorem latch_layers (c : Cond) (s : State) :
    (latch c s).stack.layers = s.stack.layers := by
  rcases latch_cases c s with ⟨-, h⟩ | ⟨-, h⟩ <;> rw [h]
  rcases pullForTrip_cases c (cutExtensions (latchMode (joinLatched c s))) with ⟨-, k⟩ | ⟨-, k⟩ <;>
    rw [k] <;> simp

/-- The channels after a latch: as they were where the entry was latched already, and otherwise with the
extensions cut and the pending starts cancelled. -/
theorem latch_chans (c : Cond) (s : State) :
    (latch c s).seq.chans
      = if s.isLatched c = true then s.seq.chans
        else s.seq.chans.map (Channel.cut s.setup s.now) := by
  rcases latch_cases c s with ⟨hc, h⟩ | ⟨hc, h⟩ <;> rw [h]
  · simp [hc]
  · have a : Aside s (latchMode (joinLatched c s)) :=
      (aside_joinLatched c s).trans (aside_latchMode _)
    rcases pullForTrip_cases c (cutExtensions (latchMode (joinLatched c s))) with ⟨-, k⟩ | ⟨-, k⟩ <;>
      rw [k] <;> simp [hc, a.setup, a.now]

/-- The onset of a condition: nothing where it is present, otherwise its presence, its latch where its
class effect latches, and FAULT HOLD. -/
theorem raiseCond_cases (c : Cond) (s : State) :
    (s.isPresent c = true ∧ raiseCond c s = s)
      ∨ (s.isPresent c = false ∧ s.latching c = true
        ∧ raiseCond c s
          = followHold s.holdPresent
              (latch c { s with sup.present := s.sup.present ++ [c] }))
      ∨ (s.isPresent c = false ∧ s.latching c = false
        ∧ raiseCond c s
          = followHold s.holdPresent { s with sup.present := s.sup.present ++ [c] }) := by
  have e : ∀ p, ({ s with sup.present := p } : State).latching c = s.latching c := fun _ => rfl
  cases h : s.isPresent c <;> cases k : s.latching c <;> simp [raiseCond, h, e, k]

/-- The end of a condition: nothing where it is absent, otherwise its absence and FAULT HOLD. -/
theorem lapseCond_cases (c : Cond) (s : State) :
    (s.isPresent c = false ∧ lapseCond c s = s)
      ∨ (s.isPresent c = true
        ∧ lapseCond c s
          = followHold s.holdPresent
              { s with sup.present := s.sup.present.filter (· != c) }) := by
  cases h : s.isPresent c <;> simp [lapseCond, h]

theorem aside_raiseCond (c : Cond) (s : State) : Aside s (raiseCond c s) := by
  rcases raiseCond_cases c s with ⟨-, h⟩ | ⟨-, -, h⟩ | ⟨-, -, h⟩ <;> rw [h]
  · exact Aside.refl s
  · exact ((aside_setPresent _ s).trans (aside_latch c _)).trans (aside_followHold _ _)
  · exact (aside_setPresent _ s).trans (aside_followHold _ _)

theorem aside_lapseCond (c : Cond) (s : State) : Aside s (lapseCond c s) := by
  rcases lapseCond_cases c s with ⟨-, h⟩ | ⟨-, h⟩ <;> rw [h]
  · exact Aside.refl s
  · exact (aside_setPresent _ s).trans (aside_followHold _ _)

/-- An onset makes its condition present and no other. -/
theorem raiseCond_present (c : Cond) (s : State) :
    (raiseCond c s).sup.present
      = if s.isPresent c = true then s.sup.present else s.sup.present ++ [c] := by
  rcases raiseCond_cases c s with ⟨hc, h⟩ | ⟨hc, -, h⟩ | ⟨hc, -, h⟩ <;> rw [h] <;> simp [hc]

/-- An end makes its condition absent and no other. -/
theorem lapseCond_present (c : Cond) (s : State) :
    (lapseCond c s).sup.present
      = if s.isPresent c = true then s.sup.present.filter (· != c) else s.sup.present := by
  rcases lapseCond_cases c s with ⟨hc, h⟩ | ⟨hc, h⟩ <;> rw [h] <;> simp [hc]

/-- An end latches and unlatches nothing. -/
@[simp] theorem lapseCond_latched (c : Cond) (s : State) :
    (lapseCond c s).sup.latched = s.sup.latched := by
  rcases lapseCond_cases c s with ⟨-, h⟩ | ⟨-, h⟩ <;> simp [h]

@[simp] theorem lapseCond_drive (c : Cond) (s : State) :
    (lapseCond c s).sup.drive = s.sup.drive := by
  rcases lapseCond_cases c s with ⟨-, h⟩ | ⟨-, h⟩ <;> simp [h]

@[simp] theorem lapseCond_chans (c : Cond) (s : State) :
    (lapseCond c s).seq.chans = s.seq.chans := by
  rcases lapseCond_cases c s with ⟨-, h⟩ | ⟨-, h⟩ <;> simp [h]

@[simp] theorem lapseCond_height (c : Cond) (s : State) :
    (lapseCond c s).seq.height = s.seq.height := by
  rcases lapseCond_cases c s with ⟨-, h⟩ | ⟨-, h⟩ <;> simp [h]

@[simp] theorem lapseCond_layers (c : Cond) (s : State) :
    (lapseCond c s).stack.layers = s.stack.layers := by
  rcases lapseCond_cases c s with ⟨-, h⟩ | ⟨-, h⟩ <;> simp [h]

/-- An onset latches its own entry at most. -/
theorem raiseCond_latched (c : Cond) (s : State) :
    (raiseCond c s).sup.latched
      = if s.isPresent c = false ∧ s.latching c = true ∧ s.isLatched c = false then
          s.sup.latched ++ [c]
        else s.sup.latched := by
  rcases raiseCond_cases c s with ⟨hc, h⟩ | ⟨hc, hl, h⟩ | ⟨hc, hl, h⟩ <;> rw [h]
  · simp [hc]
  · rw [followHold_sup, latch_latched]
    have e : ({ s with sup.present := s.sup.present ++ [c] } : State).isLatched c
        = s.isLatched c := rfl
    rw [e]; cases k : s.isLatched c <;> simp [hc, hl]
  · simp [hl]

@[simp] theorem raiseCond_height (c : Cond) (s : State) :
    (raiseCond c s).seq.height = s.seq.height := by
  rcases raiseCond_cases c s with ⟨-, h⟩ | ⟨-, -, h⟩ | ⟨-, -, h⟩ <;> simp [h]

@[simp] theorem raiseCond_layers (c : Cond) (s : State) :
    (raiseCond c s).stack.layers = s.stack.layers := by
  rcases raiseCond_cases c s with ⟨-, h⟩ | ⟨-, -, h⟩ | ⟨-, -, h⟩ <;> simp [h]

/-- A judgement leaves the condition exactly as judged. -/
theorem judgeCond_isPresent (c : Cond) (b : Bool) (s : State) :
    (judgeCond c b s).isPresent c = b := by
  cases b
  · simp only [judgeCond, State.isPresent, Bool.false_eq_true, if_false]
    rw [lapseCond_present]; split
    · simp
    · rename_i h; simpa [State.isPresent] using h
  · simp only [judgeCond, State.isPresent, if_true]
    rw [raiseCond_present]; split
    · rename_i h; simpa [State.isPresent] using h
    · simp

theorem aside_judgeCond (c : Cond) (b : Bool) (s : State) : Aside s (judgeCond c b s) := by
  cases b
  · exact aside_lapseCond c s
  · exact aside_raiseCond c s

theorem aside_judgeTilt (s : State) : Aside s (judgeTilt s) := aside_judgeCond _ _ _

theorem aside_judgeSpread (s : State) : Aside s (judgeSpread s) := aside_judgeCond _ _ _

theorem aside_judgePeers (s : State) : Aside s (judgePeers s) :=
  (aside_judgeCond _ _ _).trans (aside_judgeCond _ _ _)

theorem aside_creditHeight (c : Ch) (s : State) : Aside s (creditHeight c s) :=
  ⟨rfl, rfl, rfl, rfl, rfl, ⟨_, _, rfl⟩, rfl⟩

/-- A credit is its height and its removal, kept, with the checks that follow it. -/
theorem credit_eq (c : Ch) (s : State) :
    credit c s = judgeSpread (judgeTilt (creditChecks (keepChange true (creditHeight c s)))) := rfl

/-- A credit reaches every block but those of `Aside`. -/
theorem aside_credit (c : Ch) (s : State) : Aside s (credit c s) := by
  rw [credit_eq]
  exact (((aside_creditHeight c s).trans (aside_keepChange true _)).trans
    (aside_creditChecks _)).trans ((aside_judgeTilt _).trans (aside_judgeSpread _))

/-! ### The reckoning -/

/-- A reckoning clears its mark and then changes no layer, pushes one, or rewrites the highest (R52). -/
theorem reckon_cases (r : SetupRecord) (h placed top : Nat) (st : Stack) :
    (top ≤ reckonBase h st.layers ∧ reckon r h placed top st = { st with reckoning := false })
      ∨ (reckonBase h st.layers < top
        ∧ (st.layers = []
          ∨ (r.layerMin ≤ top - reckonBase h st.layers ∧ st.layers.length < Config.maxLayers))
        ∧ reckon r h placed top st
          = pushLayer h top placed false 0 { st with reckoning := false })
      ∨ (reckonBase h st.layers < top ∧ st.layers ≠ []
        ∧ (top - reckonBase h st.layers < r.layerMin ∨ Config.maxLayers ≤ st.layers.length)
        ∧ reckon r h placed top st
          = { st with reckoning := false, layers := mergeTop top placed st.layers }) := by
  unfold reckon
  dsimp only
  split
  · exact .inl ⟨‹_›, rfl⟩
  · have hb := Nat.lt_of_not_le ‹_›
    split
    · exact .inr (.inl ⟨hb, .inl ‹_›, rfl⟩)
    · split
      · exact .inr (.inr ⟨hb, ‹_›, ‹_›, rfl⟩)
      · rename_i h3
        rw [not_or, Nat.not_lt, Nat.not_le] at h3
        exact .inr (.inl ⟨hb, .inr h3, rfl⟩)

/-- A usable probe sample forms the concrete top and makes a pending reckoning from it (R50, R51). -/
theorem sampledStack_cases (depth : Nat) (s : State) :
    let top := s.seq.height + s.setup.formHeight - depth
    (s.stack.reckoning = false
        ∧ sampledStack depth s = { s.stack with concreteTop := some top })
      ∨ (s.stack.reckoning = true
        ∧ sampledStack depth s = reckon s.setup s.seq.height s.cure.clock top
          { s.stack with concreteTop := some top }) := by
  unfold sampledStack
  dsimp only
  cases h : s.stack.reckoning
  · exact .inl ⟨rfl, by simp⟩
  · exact .inr ⟨rfl, by simp⟩

/-! ### The close of a command -/

/-- `finish` always answers a next state. -/
@[simp] theorem finish_eq (s t : State) : finish s t = .next (settled s t) := rfl

/-- The busy-line timer alone follows its condition. -/
theorem followBusyLine_cases (s : State) :
    ∃ t, followBusyLine s = { s with line.busyTimer := t } ∧ t.isSome = busyLine s := by
  unfold followBusyLine
  split
  · rename_i h
    split
    · rename_i k; exact ⟨s.line.busyTimer, rfl, by simp [h, k]⟩
    · exact ⟨_, rfl, by simp [h]⟩
  · rename_i h; exact ⟨none, rfl, by simpa using h⟩

theorem reportFaults_cases (s t : State) :
    (faultView t = faultView s ∧ reportFaults s t = t)
      ∨ (faultView t ≠ faultView s ∧ reportFaults s t = requestReport .urgent t) := by
  by_cases h : faultView t = faultView s <;> simp [reportFaults, h]

theorem blankAfterMotion_cases (s t : State) :
    (anyMoving s = true ∧ anyMoving t = false
        ∧ blankAfterMotion s t = { t with feed.blankTimer := blankStart t })
      ∨ ((anyMoving s = false ∨ anyMoving t = true) ∧ blankAfterMotion s t = t) := by
  cases a : anyMoving s <;> cases b : anyMoving t <;> simp [blankAfterMotion, a, b]

@[simp] theorem faultView_blankAfterMotion (s t : State) :
    faultView (blankAfterMotion s t) = faultView t := by
  rcases blankAfterMotion_cases s t with ⟨-, -, e⟩ | ⟨-, e⟩ <;> rw [e]; rfl

/-- Everything the close of a command changes of the state the blocks have made: an EXTEND TIMEOUT that its
channel's state ends, the blank timer at the end of the last motion, the REPORT slot at a change of the fault
set, and the busy-line timer. -/
theorem settled_spec (s t : State) :
    ∃ busy,
      settled s t
        = { t with
            sup.present := t.sup.present.filter fun c => !extendTimeoutOver t c
            feed.blankTimer :=
              if anyMoving s && !anyMoving t then blankStart t else t.feed.blankTimer
            line.report :=
              if faultView (endExtendTimeouts t) = faultView s then t.line.report
              else t.line.report.request .urgent
            line.busyTimer := busy } := by
  obtain ⟨busy, hf, -⟩ :=
    followBusyLine_cases (reportFaults s (blankAfterMotion s (endExtendTimeouts t)))
  refine ⟨busy, ?_⟩
  unfold settled
  dsimp only
  rw [hf]
  rcases reportFaults_cases s (blankAfterMotion s (endExtendTimeouts t)) with ⟨v, e⟩ | ⟨v, e⟩ <;>
    rw [e] <;> rw [faultView_blankAfterMotion] at v <;>
    rcases blankAfterMotion_cases s (endExtendTimeouts t) with ⟨h, k, e⟩ | ⟨h, e⟩ <;> rw [e]
  · have k : anyMoving t = false := k
    simp [h, k, v]; exact ⟨rfl, rfl⟩
  · have h : anyMoving s = false ∨ anyMoving t = true := h
    rcases h with h | h <;> simp [h, v] <;> rfl
  · have k : anyMoving t = false := k
    simp [h, k, v]; exact ⟨rfl, rfl⟩
  · have h : anyMoving s = false ∨ anyMoving t = true := h
    rcases h with h | h <;> simp [h, v] <;> rfl

end Sys2Proof.Machine
end

