-- ==== Sys2Proof/Laws/Retained.lean ====
section
/-! SUPPORT. What the retained record's operations do (R171, R172): a check that was made agrees, one that was
cut off does not, a rewrite becomes the image in use, and a cut leaves the image in use as it was. -/

namespace Sys2Proof.Machine

/-! ### Checks -/

theorem checkRegister_lt {w pattern : Nat} (hp : pattern < 2 ^ w) (bits : List Bool) :
    ∀ reg, reg < 2 ^ w → checkRegister w pattern reg bits < 2 ^ w := by
  induction bits with
  | nil => intro reg h; exact h
  | cons b bs ih =>
    intro reg _
    have hm : (reg <<< 1) % 2 ^ w < 2 ^ w := Nat.mod_lt _ (Nat.two_pow_pos w)
    unfold checkRegister
    split
    · exact ih _ (Nat.xor_lt_two_pow hm hp)
    · exact ih _ hm

theorem wordsCheck_lt (words : List Int) : wordsCheck words < 256 :=
  checkRegister_lt (w := 8) (by decide) _ 0 (by decide)

/-- A cut-off image never passes the test of R172. -/
@[simp] theorem imageValid_cutOff (i : Image) : imageValid (some i.cutOff) = false := by
  have h := wordsCheck_lt (imageWords i.kept i.generation)
  have hn : (i.cutOff.check == wordsCheck (imageWords i.cutOff.kept i.cutOff.generation)) = false := by
    rw [beq_eq_false_iff_ne]
    show (wordsCheck (imageWords i.kept i.generation) + 1) % 256 ≠ _
    show _ ≠ wordsCheck (imageWords i.kept i.generation)
    omega
  simp only [imageValid, hn, Bool.false_and]

/-- An image that was made passes the test where its mode and its record lie within their ranges. -/
theorem imageValid_make {k : Kept} (g : Nat) (hm : k.mode.retainable = true)
    (hr : recordInRange k.setup = true) : imageValid (some (Image.make k g)) = true := by
  simp [imageValid, Image.make, hm, hr]

/-! ### The image in use -/

@[simp] theorem imageValid_none : imageValid none = false := rfl

theorem usedImage_left {a b : Option Image} (ha : imageValid a = true) (hb : imageValid b = false) :
    usedImage a b = a := by simp [usedImage, ha, hb]

theorem usedImage_right {a b : Option Image} (ha : imageValid a = false) (hb : imageValid b = true) :
    usedImage a b = b := by simp [usedImage, ha, hb]

theorem usedImage_neither {a b : Option Image} (ha : imageValid a = false)
    (hb : imageValid b = false) : usedImage a b = none := by simp [usedImage, ha, hb]

theorem usedImage_both {i j : Image} (ha : imageValid (some i) = true)
    (hb : imageValid (some j) = true) :
    usedImage (some i) (some j)
      = if laterGeneration i.generation j.generation = true then some j else some i := by
  simp [usedImage, ha, hb]

/-- Which image a rewrite goes to, by the same cases (R171). -/
theorem rewriteIntoB_cases (a b : Option Image) :
    (imageValid a = false ∧ rewriteIntoB a b = false)
      ∨ (imageValid a = true ∧ imageValid b = false ∧ rewriteIntoB a b = true)
      ∨ ∃ i j, a = some i ∧ b = some j ∧ imageValid a = true ∧ imageValid b = true
        ∧ rewriteIntoB a b = !laterGeneration i.generation j.generation := by
  cases ha : imageValid a <;> cases hb : imageValid b
  · exact .inl ⟨rfl, by simp [rewriteIntoB, ha, hb]⟩
  · exact .inl ⟨rfl, by simp [rewriteIntoB, ha, hb]⟩
  · exact .inr (.inl ⟨rfl, rfl, by simp [rewriteIntoB, ha, hb]⟩)
  · cases a with
    | none => simp at ha
    | some i =>
      cases b with
      | none => simp at hb
      | some j => exact .inr (.inr ⟨i, j, rfl, rfl, rfl, rfl, by simp [rewriteIntoB, ha, hb]⟩)

/-- The generation one after is the later one, and the one before is not. -/
theorem laterGeneration_next {g : Nat} (h : g < 256) :
    laterGeneration g ((g + 1) % 256) = true ∧ laterGeneration ((g + 1) % 256) g = false := by
  unfold laterGeneration
  constructor
  · rw [decide_eq_true_eq]; omega
  · rw [decide_eq_false_iff_not]; omega

/-- A rewrite becomes the image in use, with a generation one after that of the image in use before it, or
0 where there was none (R171, R172). -/
theorem usedImage_rewritten {s : State} (hm : s.effectiveMode.retainable = true)
    (hr : recordInRange s.setup = true)
    (hg : ∀ i ∈ usedImage s.join.imageA s.join.imageB, i.generation < 256) :
    usedImage (rewritten s).1 (rewritten s).2 = some (newImage s)
      ∧ (newImage s).kept = keptOf s
      ∧ (newImage s).generation
        = match usedImage s.join.imageA s.join.imageB with
          | some i => (i.generation + 1) % 256
          | none => 0 := by
  have hv : imageValid (some (newImage s)) = true := imageValid_make _ hm hr
  have gen : (newImage s).generation = nextGeneration s.join.imageA s.join.imageB := rfl
  refine ⟨?_, rfl, gen.trans rfl⟩
  have next : ∀ i : Image, usedImage s.join.imageA s.join.imageB = some i →
      i.generation < 256 ∧ (newImage s).generation = (i.generation + 1) % 256 := by
    intro i hu
    exact ⟨hg i (by rw [hu]; rfl), by rw [gen]; simp [nextGeneration, hu]⟩
  unfold rewritten
  generalize newImage s = n at *
  generalize s.join.imageA = a at *
  generalize s.join.imageB = b at *
  rcases rewriteIntoB_cases a b with ⟨ha, h⟩ | ⟨ha, hb, h⟩ | ⟨i, j, rfl, rfl, ha, hb, h⟩
  · simp only [h, Bool.false_eq_true, if_false]
    cases hb : imageValid b
    · exact usedImage_left hv hb
    · cases b with
      | none => simp at hb
      | some j =>
        obtain ⟨hj, e⟩ := next j (usedImage_right ha hb)
        rw [usedImage_both hv hb, e, (laterGeneration_next hj).2]; rfl
  · simp only [h, if_true]
    cases a with
    | none => simp at ha
    | some i =>
      obtain ⟨hi, e⟩ := next i (usedImage_left ha hb)
      rw [usedImage_both ha hv, e, (laterGeneration_next hi).1]; rfl
  · cases hl : laterGeneration i.generation j.generation
    · obtain ⟨hi, e⟩ := next i (by rw [usedImage_both ha hb, hl]; rfl)
      simp only [h, hl, Bool.not_false, if_true]
      rw [usedImage_both ha hv, e, (laterGeneration_next hi).1]; rfl
    · obtain ⟨hj, e⟩ := next j (by rw [usedImage_both ha hb, hl]; rfl)
      simp only [h, hl, Bool.not_true, Bool.false_eq_true, if_false]
      rw [usedImage_both hv hb, e, (laterGeneration_next hj).2]; rfl

/-- A cut rewrite leaves the image in use as it was (R171). -/
theorem usedImage_imagesFound (cut : Bool) (s : State) :
    usedImage (imagesFound cut s).1 (imagesFound cut s).2
      = usedImage s.join.imageA s.join.imageB := by
  have hc : ∀ o : Option Image, imageValid (o.map Image.cutOff) = false := by
    intro o; cases o <;> simp
  unfold imagesFound
  dsimp only
  generalize s.join.imageA = a
  generalize s.join.imageB = b
  split
  · rcases rewriteIntoB_cases a b with ⟨ha, h⟩ | ⟨ha, hb, h⟩ | ⟨i, j, rfl, rfl, ha, hb, h⟩
    · simp only [h, Bool.false_eq_true, if_false]
      cases hb : imageValid b
      · rw [usedImage_neither (hc a) hb, usedImage_neither ha hb]
      · rw [usedImage_right (hc a) hb, usedImage_right ha hb]
    · simp only [h, if_true]
      rw [usedImage_left ha (hc b), usedImage_left ha hb]
    · rw [usedImage_both ha hb]
      cases hl : laterGeneration i.generation j.generation
      · simp only [h, hl, Bool.not_false, if_true]
        exact usedImage_left ha (hc (some j))
      · simp only [h, hl, Bool.not_true, Bool.false_eq_true, if_false]
        exact usedImage_right (hc (some i)) hb
  · rfl

/-! ### A change kept -/

@[simp] theorem keepChange_setup (b : Bool) (s : State) : (keepChange b s).setup = s.setup := rfl
@[simp] theorem keepChange_chan (b : Bool) (s : State) (c : Ch) :
    (keepChange b s).chan c = s.chan c := rfl
@[simp] theorem keepChange_body (b : Bool) (s : State) : (keepChange b s).body = s.body := rfl
@[simp] theorem keepChange_kept (b : Bool) (s : State) : keptOf (keepChange b s) = keptOf s := rfl
@[simp] theorem keepChange_recordable (b : Bool) (s : State) :
    recordable (keepChange b s) = recordable s := rfl

/-- After a change that is kept, the image in use holds the station as it stands. -/
theorem keepChange_used {s : State} (hk : recordable s = true) (hr : recordInRange s.setup = true)
    (hg : ∀ i ∈ usedImage s.join.imageA s.join.imageB, i.generation < 256) :
    usedImage (keepChange true s).join.imageA (keepChange true s).join.imageB
      = some (newImage s) := by
  have hm : s.effectiveMode.retainable = true := by
    simp only [recordable, Bool.and_eq_true] at hk; exact hk.2
  simp only [keepChange_join_imageA, keepChange_join_imageB, hk, Bool.and_self, if_true]
  exact (usedImage_rewritten hm hr hg).1

/-- Without a change, or without a record to keep, both images stay. -/
theorem keepChange_idle {b : Bool} {s : State} (h : b = false ∨ recordable s = false) :
    keepChange b s = s := by
  have e : (b && recordable s) = false := by rcases h with h | h <;> simp [h]
  unfold keepChange
  simp [e]

end Sys2Proof.Machine
end

