-- ==== Sys2Proof/WellFormed.lean ====
section
/-! DEFINITION. Which commands are well formed: the operands describe an event that the row names. Every
operand is already bounded by its type; what is left is checked here. -/

namespace Sys2Proof

open Machine

/-- A FRAME_DISCARDED carries a frame that brings about no command: it fails a test for arriving whole,
or is a COMMAND whose code is not listed (R13, R150). -/
def discardedFrame (f : RxFrame) : Bool := commandOfFrame f == .frameDiscarded f

/-- A SETUP REQUEST is sent by a station, numbered 1 to 59 (R2, R151, R164). -/
def stationSender (sender : BitVec 6) : Bool :=
  decide (1 ≤ sender.toNat) && decide (sender.toNat ≤ 59)

/-- The well-formed commands. -/
def wellFormed : Instr → Bool
  | .start _ _ _ => true
  | .stop _ _ _ => true
  | .pause _ _ _ => true
  | .resume _ _ _ => true
  | .clear _ _ _ => true
  | .rateScale _ _ _ => true
  | .feedHold _ _ _ => true
  | .localClear _ => true
  | .report _ _ => true
  | .setupData _ _ _ _ => true
  | .setupCommit _ _ _ => true
  | .peerSetupRequest sender _ => stationSender sender
  | .frameDiscarded frame => discardedFrame frame
  | .powerOnReset _ _ => true
  | .brownOutReset _ _ _ => true
  | .setupRequestTimerExpiry => true
  | .windowExpiry => true
  | .joinListenExpiry => true
  | .cycleTimerExpiry => true
  | .cycleCompletion => true
  | .bankBStart => true
  | .deferredValveOpening _ => true
  | .transducerReading _ _ => true
  | .tExtExpiry _ => true
  | .holdEnd _ => true
  | .tRetExpiry _ => true
  | .blindRetractionEnd _ => true
  | .cureSampleEvent _ => true
  | .probeSample _ => true
  | .blankTimerExpiry => true
  | .settleTimerExpiry => true
  | .feedTimerExpiry => true
  | .reportTimerExpiry => true
  | .lineIdle => true
  | .attemptStart => true
  | .arbitrationLost => true
  | .transmitError => true
  | .sentWhole => true
  | .muteTimerExpiry => true
  | .busyLineTimerExpiry => true
  | .haltLoopSensedAsserted => true
  | .haltLoopSensedReleased => true
  | .clearPendingTimerExpiry => true
  | .supplyLow => true
  | .supplyRecovery => true
  | .inhibitAsserted => true
  | .inhibitReleased => true
  | .crystalStopped => true
  | .crystalCycleSeen => true
  | .crystalRunTimerExpiry => true
  | .lineNotIdle => true

end Sys2Proof
end

