-- ==== Sys2Proof/Tests/Slice0.lean ====
section
/-! SUPPORT. The model's own tests: the smoke test of the checks of WellFormed, the spec's worked figures,
small steps, and for every statement with hypotheses the states and operands that meet them. -/

namespace Sys2Proof.Tests

open Sys2Proof.Machine

-- One theorem at a time: side by side their stacks exceed the memory of a check.
set_option Elab.async false

/-! ### Sound states by computation -/

/-- Every law but those of the setup and retained records, judged by computation. -/
def quick (s : State) : Bool :=
  (decide (ModeLaw s) && decide (PauseLaw s) && decide (EntryLaw s) && decide (PlanLaw s)
    && decide (ValveLaw s) && decide (ChannelLaw s) && decide (HeightLaw s))
  && (decide (StackLaw s) && decide (CureLaw s) && decide (GateLaw s) && decide (DepthLaw s)
    && decide (PeerLaw s) && decide (AvailabilityLaw s) && decide (LineLaw s))
  && (decide (JoinLaw s) && decide (LatchLaw s) && decide (DriveLaw s) && decide (HaltLaw s)
    && decide (PresenceLaw s))

theorem sound_of_quick {s : State} (h : quick s = true) (hs : SetupLaw s) (hr : RecordLaw s) :
    Sound s := by
  simp only [quick, Bool.and_eq_true, decide_eq_true_eq] at h
  obtain ⟨⟨⟨⟨⟨⟨⟨⟨h1, h2⟩, h3⟩, h4⟩, h5⟩, h6⟩, h7⟩, ⟨⟨⟨⟨⟨⟨h8, h9⟩, h10⟩, h11⟩, h12⟩, h13⟩, h14⟩⟩,
    ⟨⟨⟨⟨h15, h17⟩, h18⟩, h19⟩, h20⟩⟩ := h
  exact ⟨h1, h2, h3, h4, h5, h6, h7, h8, h9, h10, h11, h12, h13, h14, h15, hs, h17, h18, h19,
    h20, hr⟩

/-- No item of a record is marked out of range. -/
def unmarked (r : SetupRecord) : Prop :=
  (Vector.replicate 87 false).toList
    = (List.range 87).map (fun i => !itemInRange (i + 1) (r.item (i + 1)))

/-- The record is in force at station 17 as a commit leaves it. -/
structure InForce (r : SetupRecord) (t : State) : Prop where
  staged : t.join.staged = r
  committed : t.join.committed = some r
  marks : t.join.marks = Vector.replicate 87 false
  own : t.join.ownNumber = 17
  imageB : t.join.imageB = none

theorem setupLaw_of_inForce {t : State} {r : SetupRecord} (hr : GoodRecord 17 r ∧ unmarked r)
    (h : InForce r t) : SetupLaw t := by
  refine ⟨?_, ?_⟩
  · rw [h.marks, hr.2, h.staged]
  · rw [h.committed, h.own]; intro q hq; cases hq; exact hr.1

/-- The retained record written. -/
def kept (s : State) : State := { s with join.imageA := some (Image.make (keptOf s) 0) }

/-- What an image takes from a state lies in its ranges. -/
def keepable (r : SetupRecord) (t : State) : Bool :=
  decide (t.effectiveMode.retainable = true)
    && decide (∀ h ∈ (t.seq.chans.map Channel.climbed).toList, h ≤ Config.heightMax)
    && decide (t.seq.strokeCount < 65536) && decide (LayersOrdered t.stack.layers)
    && decide (ReleaseSet t.ctl.released) && decide (LatchedSet r t.sup.latched)

theorem usedImage_kept {t : State} {r : SetupRecord} (hr : GoodRecord 17 r ∧ unmarked r)
    (h : InForce r t) (hk : keepable r t = true) :
    KeptInOrder (Image.make (keptOf t) 0)
      ∧ usedImage (kept t).join.imageA (kept t).join.imageB = some (Image.make (keptOf t) 0) := by
  simp only [keepable, Bool.and_eq_true, decide_eq_true_eq] at hk
  obtain ⟨⟨⟨⟨⟨a, b⟩, c⟩, d⟩, e⟩, f⟩ := hk
  have hset : t.setup = r := by simp [State.setup, h.committed]
  refine ⟨⟨by simp [Image.make, keptOf, h.own], by simp [Image.make, keptOf, h.own],
    by simpa [Image.make, keptOf, h.own, hset] using hr.1, a, b, c, d, e,
    by simpa [Image.make, keptOf, hset] using f, by simp [Image.make]⟩, ?_⟩
  have hv : imageValid (some (Image.make (keptOf t) 0)) = true := by
    simp only [imageValid, Image.make, beq_self_eq_true, Bool.true_and, Bool.and_eq_true]
    exact ⟨a, by show recordInRange t.setup = true; rw [hset]; exact hr.1.1⟩
  have hn : imageValid none = false := rfl
  show usedImage (some (Image.make (keptOf t) 0)) t.join.imageB = _
  rw [h.imageB]; unfold usedImage; rw [hv, hn]

theorem sound_kept {t : State} {r : SetupRecord} (hr : GoodRecord 17 r ∧ unmarked r)
    (h : InForce r t) (hq : quick (kept t) = true) (hk : keepable r t = true) :
    Sound (kept t) := by
  obtain ⟨hi, hu⟩ := usedImage_kept hr h hk
  refine sound_of_quick hq (setupLaw_of_inForce hr (t := kept t) ⟨h.1, h.2, h.3, h.4, h.5⟩)
    ⟨?_, ?_, ?_⟩
  · intro i hm; cases hm; exact hi
  · intro i hm; rw [show (kept t).join.imageB = none from h.imageB] at hm; cases hm
  · intro _; rw [hu]; rfl

/-- A state that keeps no record. -/
theorem sound_unkept {t : State} (hq : quick t = true) (hs : SetupLaw t)
    (ha : t.join.imageA = none) (hb : t.join.imageB = none) (hn : recordable t = false) :
    Sound t :=
  sound_of_quick hq hs ⟨by simp [ha], by simp [hb], by simp [hn]⟩

/-! ### Setup records -/

/-- The defaults on a roster of 18, without links: a station 17 that takes no notice of others. -/
def alone : SetupRecord := (defaultRecord.put 67 18).put 70 0

/-- The defaults on a roster of 18 in a ring: station 17 is linked to 16 and 18. -/
def ringed : SetupRecord := defaultRecord.put 67 18

/-- The defaults alone, with the channels in two banks. -/
def banks : SetupRecord := alone.put 55 1

/-- The defaults alone, with a second segment held at 10 m. -/
def twoSegments : SetupRecord := (alone.put 2 2).put 27 1

/-- The defaults alone, with channel 1 inactive and EXTEND TIMEOUT of class WARN. -/
def three : SetupRecord := (alone.put 54 14).put 75 0

/-- The defaults alone, with CLOCK FALLBACK of class HOLD. -/
def clockHolds : SetupRecord := alone.put 84 1

/-- A ring of 18 with JACK SPREAD of class LATCH. -/
def spreadLatches : SetupRecord := ringed.put 78 2

theorem alone_good : GoodRecord 17 alone ∧ unmarked alone := by unfold unmarked; decide +kernel

theorem ringed_good : GoodRecord 17 ringed ∧ unmarked ringed := by unfold unmarked; decide +kernel

theorem banks_good : GoodRecord 17 banks ∧ unmarked banks := by unfold unmarked; decide +kernel

theorem twoSegments_good : GoodRecord 17 twoSegments ∧ unmarked twoSegments := by
  unfold unmarked; decide +kernel

theorem clockHolds_good : GoodRecord 17 clockHolds ∧ unmarked clockHolds := by
  unfold unmarked; decide +kernel

theorem spreadLatches_good : GoodRecord 17 spreadLatches ∧ unmarked spreadLatches := by
  unfold unmarked; decide +kernel

theorem three_good : GoodRecord 17 three ∧ unmarked three := by unfold unmarked; decide +kernel

/-! ### Concrete stations -/

/-- A channel that rests at 0.5 mm. -/
def restCh : Channel :=
  { State.resetChannel with state := .rest, x := some 5, readingValid := true }

/-- A channel in EXTEND with 20.0 mm to reach. -/
def extending : Channel :=
  { restCh with state := .extend, target := 200, xPeak := 5, pressureOpen := true,
                strokeTimer := some 20000 }

/-- A channel in HOLD at 20.0 mm. -/
def holding : Channel :=
  { restCh with state := .hold, target := 200, x := some 200, xPeak := 200, pressureClosed := 4900,
                strokeTimer := some 5100 }

/-- A channel in RETRACT. -/
def retracting : Channel :=
  { restCh with state := .retract, x := some 200, dumpOpen := true, strokeTimer := some 20000 }

/-- A channel in EXTEND whose pressure valve waits for the dead time. -/
def extendingSoon : Channel :=
  { restCh with state := .extend, target := 200, dumpClosed := 4900, deferred := some 5100 }

/-- A channel in RETRACT whose dump valve waits for the dead time. -/
def retractingSoon : Channel :=
  { restCh with state := .retract, x := some 200, pressureClosed := 4900, deferred := some 5100 }

/-- Station 17 in a mode that is neither CLIMBING nor PAUSED, its record in force and its join done. -/
def station (r : SetupRecord) (m : Mode) : State :=
  { State.reset with
    now := 5000
    ctl.mode := m
    seq.chans := ⟨restCh, restCh, restCh, restCh⟩
    stack := { layers := [⟨0, 0, 2000, 0, 72000, false⟩], concreteTop := some 9000, nextSeq := 1,
               reckoning := false }
    feed.depth := some 3000
    feed.probeValid := true
    peers.records := (rosterNumbers 18 17).map State.resetPeer
    peers.links := linkList 17 r
    line.setupRequest := .empty
    join := { State.reset.join with
      stage := .committed, staged := r, committed := some r, requestTimer := none,
      kind := .afterCommit, state := .done }
    sup.armed := true }

/-- The same in CLIMBING, a plan being due in a second. -/
def climber (r : SetupRecord) : State :=
  { station r .climbing with seq.cycleTimer := some 6000, plan.ramp := 3 }

/-- A peer heard with a height, a stroke count and a feed state. -/
def heard (n h count : Nat) (f : FeedState) : Peer :=
  { State.resetPeer n with
    liveness := .live, heard := true, height := some h, strokeCount := some count, feed := some f,
    deficit := some 2000, topMaturity := some 5 }

/-- The peer table with stations 16 and 18 heard at one height. -/
def twoHeard (h count : Nat) (f : FeedState) : List Peer :=
  (rosterNumbers 18 17).map fun n => if 16 ≤ n then heard n h count f else State.resetPeer n

/-- At rest in STANDING with one mature layer, D at 300.0 cm of the form's depth. -/
def standing : State := kept (station alone .standing)

theorem sound_standing : Sound standing :=
  sound_kept alone_good ⟨rfl, rfl, rfl, rfl, rfl⟩ (by decide +kernel) (by decide +kernel)

/-- In STANDING with both linked neighbours unheard. -/
def lonely : State := kept
  { station ringed .standing with sup.present := [.clockFallback, .neighbourLost] }

theorem sound_lonely : Sound lonely :=
  sound_kept ringed_good ⟨rfl, rfl, rfl, rfl, rfl⟩ (by decide +kernel) (by decide +kernel)

/-- In STANDING with both linked neighbours available. -/
def neighboured : State := kept
  { station ringed .standing with peers.records := twoHeard 0 0 .idle }

theorem sound_neighboured : Sound neighboured :=
  sound_kept ringed_good ⟨rfl, rfl, rfl, rfl, rfl⟩ (by decide +kernel) (by decide +kernel)

/-- In STANDING, muted, with LINE present. -/
def onHold : State := kept
  { station alone .standing with
    sup.present := [.clockFallback, .line], line.errors := 16, line.muted := true,
    line.muteTimer := some 9000 }

theorem sound_onHold : Sound onHold :=
  sound_kept alone_good ⟨rfl, rfl, rfl, rfl, rfl⟩ (by decide +kernel) (by decide +kernel)

/-- In STANDING with an empty stack and a reckoning pending. -/
def bare : State := kept
  { station alone .standing with
    stack := { State.reset.stack with reckoning := true } }

theorem sound_bare : Sound bare :=
  sound_kept alone_good ⟨rfl, rfl, rfl, rfl, rfl⟩ (by decide +kernel) (by decide +kernel)

/-- In STANDING with two layers, the higher up to 40.0 cm, and a reckoning pending. -/
def short : State := kept
  { station alone .standing with
    stack := { (station alone .standing).stack with
      layers := [⟨0, 0, 2000, 0, 72000, false⟩, ⟨1, 2000, 4000, 0, 0, false⟩], nextSeq := 2,
      reckoning := true } }

theorem sound_short : Sound short :=
  sound_kept alone_good ⟨rfl, rfl, rfl, rfl, rfl⟩ (by decide +kernel) (by decide +kernel)

/-- In STANDING with 16 layers up to 80.0 cm and a reckoning pending. -/
def full : State := kept
  { station alone .standing with
    stack := { (station alone .standing).stack with
      layers := (List.range 16).map fun i => ⟨i, 500 * i, 500 * i + 500, 0, 0, false⟩,
      nextSeq := 16, reckoning := true } }

theorem sound_full : Sound full :=
  sound_kept alone_good ⟨rfl, rfl, rfl, rfl, rfl⟩ (by decide +kernel) (by decide +kernel)

/-- In STANDING at the start of the held second segment. -/
def atSegment : State := kept
  { station twoSegments .standing with
    seq.height := 100000
    seq.chans := (station alone .standing).seq.chans.map fun c => { c with climbed := 100000 }
    stack.layers := [⟨0, 99000, 103000, 0, 72000, false⟩] }

theorem sound_atSegment : Sound atSegment :=
  sound_kept twoSegments_good ⟨rfl, rfl, rfl, rfl, rfl⟩ (by decide +kernel) (by decide +kernel)

/-- In STANDING with a stroke under way on every channel: EXTEND, HOLD, RETRACT and a blind RETRACT. -/
def busy : State := kept
  { station alone .standing with
    seq.chans := ⟨extending, holding, retracting,
      { retracting with blind := true, readingValid := false }⟩ }

theorem sound_busy : Sound busy :=
  sound_kept alone_good ⟨rfl, rfl, rfl, rfl, rfl⟩ (by decide +kernel) (by decide +kernel)

/-- In STANDING with two openings deferred and two channels that wait for their first reading. -/
def delayed : State := kept
  { station alone .standing with
    seq.chans := ⟨extendingSoon, retractingSoon, { State.resetChannel with
      state := .rest, homing := .atCommit }, { State.resetChannel with
      state := .rest, homing := .atRestore }⟩ }

theorem sound_delayed : Sound delayed :=
  sound_kept alone_good ⟨rfl, rfl, rfl, rfl, rfl⟩ (by decide +kernel) (by decide +kernel)

/-- In STANDING with a stroke to be credited that reaches the program top. -/
def nearTop : State := kept
  { station alone .standing with
    seq.height := 99975
    seq.chans := (⟨{ holding with climbed := 99900 }, restCh, restCh, restCh⟩ :
      PerChannel Channel).map fun c =>
        if c.state = .rest then { c with climbed := 100000 } else c
    stack.layers := [⟨0, 99000, 103000, 0, 72000, false⟩] }

theorem sound_nearTop : Sound nearTop :=
  sound_kept alone_good ⟨rfl, rfl, rfl, rfl, rfl⟩ (by decide +kernel) (by decide +kernel)

/-- In STANDING with channel 1 inactive and EXTEND TIMEOUT of class WARN. -/
def threeChannels : State := kept
  { station three .standing with
    seq.chans := ⟨State.resetChannel, extending, restCh, restCh⟩ }

theorem sound_threeChannels : Sound threeChannels :=
  sound_kept three_good ⟨rfl, rfl, rfl, rfl, rfl⟩ (by decide +kernel) (by decide +kernel)

/-- In STANDING under the inhibit input: channel 2 at X_home, 3 above it, 4 with an invalid reading. -/
def held : State := kept
  { station alone .standing with
    inhibitInput := true
    sup.present := [.clockFallback, .inhibit]
    seq.chans := (⟨restCh, { restCh with x := some 20 }, { restCh with x := some 21 },
      { restCh with readingValid := false }⟩ :
      PerChannel Channel).map fun c => { c with state := .inhibited } }

theorem sound_held : Sound held :=
  sound_kept alone_good ⟨rfl, rfl, rfl, rfl, rfl⟩ (by decide +kernel) (by decide +kernel)

/-- In STANDING and ASKING before the settle time has run. -/
def asking : State := kept
  { station alone .standing with
    feed := { (station alone .standing).feed with
      state := .asking, depth := some 3001, settleTimer := some 7000 } }

theorem sound_asking : Sound asking :=
  sound_kept alone_good ⟨rfl, rfl, rfl, rfl, rfl⟩ (by decide +kernel) (by decide +kernel)

/-- In STANDING and ASKING with two gates known to be open. -/
def crowded : State := kept
  { station ringed .standing with
    peers.records := twoHeard 0 0 .opened
    feed := { (station alone .standing).feed with
      state := .asking, depth := some 3001, settleTimer := some 7000 } }

theorem sound_crowded : Sound crowded :=
  sound_kept ringed_good ⟨rfl, rfl, rfl, rfl, rfl⟩ (by decide +kernel) (by decide +kernel)

/-- In STANDING and ASKING, settled, with two gates known to be open. -/
def settled : State := kept
  { station ringed .standing with
    peers.records := twoHeard 0 0 .opened
    feed := { (station alone .standing).feed with
      state := .asking, depth := some 3001, settled := true } }

theorem sound_settled : Sound settled :=
  sound_kept ringed_good ⟨rfl, rfl, rfl, rfl, rfl⟩ (by decide +kernel) (by decide +kernel)

/-- In STANDING with the gate open. -/
def opened : State := kept
  { station ringed .standing with
    peers.records := twoHeard 0 0 .opened
    feed := { (station alone .standing).feed with
      state := .opened, depth := some 3001, gate := true, feedTimer := some 9000,
      probeValid := true } }

theorem sound_opened : Sound opened :=
  sound_kept ringed_good ⟨rfl, rfl, rfl, rfl, rfl⟩ (by decide +kernel) (by decide +kernel)

/-- In STANDING with FEED HOLD on and the probe blanked. -/
def blank : State := kept
  { station alone .standing with feed.blankTimer := some 6000, ctl.feedHold := true }

theorem sound_blank : Sound blank :=
  sound_kept alone_good ⟨rfl, rfl, rfl, rfl, rfl⟩ (by decide +kernel) (by decide +kernel)

/-- In STANDING with a SILENT peer and a neighbour one sweep short of it. -/
def lost : State := kept
  { station ringed .standing with
    peers.records := (rosterNumbers 18 17).map fun n =>
      if n = 18 then { heard 18 0 0 .idle with heard := false, miss := 3 }
      else if n = 16 then heard 16 0 0 .idle
      else if n = 1 then { heard 1 0 0 .idle with
        heard := false, miss := 4, liveness := .silent }
      else State.resetPeer n
    sup.present := [.clockFallback, .peerSilent] }

theorem sound_lost : Sound lost :=
  sound_kept ringed_good ⟨rfl, rfl, rfl, rfl, rfl⟩ (by decide +kernel) (by decide +kernel)

/-- In STOPPED with a report heard under the own number since the last sweep. -/
def doubled : State := kept
  { station alone .stopped with
    sup.present := [.clockFallback, .duplicateNumber], sup.latched := [.duplicateNumber]
    sup.drive := true, peers.dupHeard := true }

theorem sound_doubled : Sound doubled :=
  sound_kept alone_good ⟨rfl, rfl, rfl, rfl, rfl⟩ (by decide +kernel) (by decide +kernel)

/-- The same three sweeps later. -/
def doubledOnce : State := kept
  { station alone .stopped with
    sup.present := [.clockFallback, .duplicateNumber], sup.latched := [.duplicateNumber]
    sup.drive := true, peers.dupMiss := 3 }

theorem sound_doubledOnce : Sound doubledOnce :=
  sound_kept alone_good ⟨rfl, rfl, rfl, rfl, rfl⟩ (by decide +kernel) (by decide +kernel)

/-- In STOPPED with every channel in FAULT, the conditions of channels 1 and 2 over. -/
def faulted : State := kept
  { station alone .stopped with
    seq.chans := (⟨{ restCh with x := some 20 }, { restCh with x := some 21 },
      { restCh with readingValid := false }, restCh⟩ :
      PerChannel Channel).map fun c => { c with state := .fault }
    sup.present := [.clockFallback, .transducer .c3]
    sup.latched := [.transducer .c1, .retractTimeout .c2, .transducer .c3]
    sup.drive := true }

theorem sound_faulted : Sound faulted :=
  sound_kept alone_good ⟨rfl, rfl, rfl, rfl, rfl⟩ (by decide +kernel) (by decide +kernel)

/-- In STOPPED by a halt loop that is still asserted, a clear pending. -/
def halted : State := kept
  { station alone .stopped with
    sup.present := [.clockFallback, .haltLoop], sup.latched := [.haltLoop]
    sup.loopSensed := true, sup.haltCause := some .other
    sup.clearPending := true, sup.clearTimer := some 6500 }

theorem sound_halted : Sound halted :=
  sound_kept alone_good ⟨rfl, rfl, rfl, rfl, rfl⟩ (by decide +kernel) (by decide +kernel)

/-- In STOPPED by a halt loop released since. -/
def cleared : State := kept
  { station alone .stopped with
    sup.latched := [.haltLoop], sup.haltCause := some .other }

theorem sound_cleared : Sound cleared :=
  sound_kept alone_good ⟨rfl, rfl, rfl, rfl, rfl⟩ (by decide +kernel) (by decide +kernel)

/-- In STOPPED by a halt loop that is still asserted, no clear pending. -/
def pulling : State := kept
  { station alone .stopped with
    sup.present := [.clockFallback, .haltLoop], sup.latched := [.haltLoop]
    sup.loopSensed := true, sup.haltCause := some .other }

theorem sound_pulling : Sound pulling :=
  sound_kept alone_good ⟨rfl, rfl, rfl, rfl, rfl⟩ (by decide +kernel) (by decide +kernel)

/-- In STOPPED with every channel in a blind retraction, channel 1 held by its latched entry. -/
def blindEnds : State := kept
  { station alone .stopped with
    seq.chans := (⟨{ restCh with x := some 200 }, { restCh with x := some 21 },
      { restCh with x := some 20 }, { restCh with x := some 200, readingValid := false }⟩ :
      PerChannel Channel).map fun c =>
        { c with state := .retract, blind := true, dumpOpen := true, strokeTimer := some 7000 }
    sup.latched := [.transducer .c1], sup.present := [.clockFallback, .transducer .c4] }

theorem sound_blindEnds : Sound blindEnds :=
  sound_kept alone_good ⟨rfl, rfl, rfl, rfl, rfl⟩ (by decide +kernel) (by decide +kernel)

/-- In TOPPED at the program top. -/
def topped : State := kept
  { station alone .topped with
    seq.height := 100000
    seq.chans := (station alone .standing).seq.chans.map fun c => { c with climbed := 100000 }
    stack.layers := [] }

theorem sound_topped : Sound topped :=
  sound_kept alone_good ⟨rfl, rfl, rfl, rfl, rfl⟩ (by decide +kernel) (by decide +kernel)

/-- In STANDING with channel 1 the last one moving, in RETRACT. -/
def lastMoving : State := kept
  { station alone .standing with seq.chans := ⟨retracting, restCh, restCh, restCh⟩ }

theorem sound_lastMoving : Sound lastMoving :=
  sound_kept alone_good ⟨rfl, rfl, rfl, rfl, rfl⟩ (by decide +kernel) (by decide +kernel)

/-- With JACK SPREAD present, channel 2 standing 40.0 mm above the others. -/
def drawn (t : State) : State := kept
  { t with
    seq.height := 100
    seq.chans := ⟨restCh, { restCh with climbed := 400 }, restCh, restCh⟩
    sup.present := [.clockFallback, .jackSpread] }

/-- In STANDING with JACK SPREAD of class HOLD present. -/
def drawnApart : State := drawn (station alone .standing)

theorem sound_drawnApart : Sound drawnApart :=
  sound_kept alone_good ⟨rfl, rfl, rfl, rfl, rfl⟩ (by decide +kernel) (by decide +kernel)

/-- Held in PAUSED by JACK SPREAD. -/
def drawnPaused : State := drawn
  { climber alone with ctl.mode := .paused, ctl.pause.faultHold := true }

theorem sound_drawnPaused : Sound drawnPaused :=
  sound_kept alone_good ⟨rfl, rfl, rfl, rfl, rfl⟩ (by decide +kernel) (by decide +kernel)

/-- With FEED HOLD on. -/
def feedHeld (t : State) : State := kept { t with ctl.feedHold := true }

/-- In STANDING and in need of concrete under FEED HOLD, the last probe reading valid or not. -/
def heldShort (valid : Bool) : State := feedHeld
  { station alone .standing with feed.depth := some 3001, feed.probeValid := valid }

theorem sound_heldShort : Sound (heldShort true) :=
  sound_kept alone_good ⟨rfl, rfl, rfl, rfl, rfl⟩ (by decide +kernel) (by decide +kernel)

theorem sound_heldShort_unread : Sound (heldShort false) :=
  sound_kept alone_good ⟨rfl, rfl, rfl, rfl, rfl⟩ (by decide +kernel) (by decide +kernel)

theorem sound_feedHeld_stopped : Sound (feedHeld (station alone .stopped)) :=
  sound_kept alone_good ⟨rfl, rfl, rfl, rfl, rfl⟩ (by decide +kernel) (by decide +kernel)

theorem sound_feedHeld_topped : Sound (feedHeld topped) :=
  sound_kept alone_good ⟨rfl, rfl, rfl, rfl, rfl⟩ (by decide +kernel) (by decide +kernel)

/-- In CLIMBING with every channel at rest, a plan due in a second. -/
def climbing : State := kept (climber alone)

theorem sound_climbing : Sound climbing :=
  sound_kept alone_good ⟨rfl, rfl, rfl, rfl, rfl⟩ (by decide +kernel) (by decide +kernel)

/-- In CLIMBING at the moment of cycle completion, an expiry being held. -/
def completing : State := kept
  { climber alone with
    seq.cycleTimer := none, seq.expiryHeld := true
    seq.chans := ⟨{ restCh with readingValid := false }, { restCh with x := some 125 },
      { restCh with dumpClosed := 4800 }, { restCh with dumpClosed := 4801 }⟩ }

theorem sound_completing : Sound completing :=
  sound_kept alone_good ⟨rfl, rfl, rfl, rfl, rfl⟩ (by decide +kernel) (by decide +kernel)

/-- In CLIMBING with strokes under way. -/
def stroking : State := kept
  { climber alone with
    seq.chans := ⟨extending, holding, restCh, retracting⟩ }

theorem sound_stroking : Sound stroking :=
  sound_kept alone_good ⟨rfl, rfl, rfl, rfl, rfl⟩ (by decide +kernel) (by decide +kernel)

/-- In CLIMBING with bank A back at rest and a bank B start pending. -/
def banked : State := kept
  { climber banks with
    seq.chans := ⟨{ restCh with target := 125 }, { restCh with target := 125, startPending := true },
      { restCh with target := 125 }, restCh⟩ }

theorem sound_banked : Sound banked :=
  sound_kept banks_good ⟨rfl, rfl, rfl, rfl, rfl⟩ (by decide +kernel) (by decide +kernel)

/-- In PAUSED by the operator. -/
def paused : State := kept
  { climber alone with ctl.mode := .paused, ctl.pause.operator := true }

theorem sound_paused : Sound paused :=
  sound_kept alone_good ⟨rfl, rfl, rfl, rfl, rfl⟩ (by decide +kernel) (by decide +kernel)

/-- In PAUSED by the operator and at the held second segment. -/
def pausedTwice : State := kept
  { climber twoSegments with
    ctl.mode := .paused
    ctl.pause := ⟨true, false, false, some 2⟩
    seq.height := 100000
    seq.chans := (station alone .standing).seq.chans.map fun c => { c with climbed := 100000 }
    stack.layers := [⟨0, 99000, 103000, 0, 72000, false⟩] }

theorem sound_pausedTwice : Sound pausedTwice :=
  sound_kept twoSegments_good ⟨rfl, rfl, rfl, rfl, rfl⟩ (by decide +kernel) (by decide +kernel)

/-- In PAUSED at the held second segment. -/
def waitingThere : State := kept
  { climber twoSegments with
    ctl.mode := .paused
    ctl.pause := ⟨false, false, false, some 2⟩
    seq.height := 100000
    seq.chans := (station alone .standing).seq.chans.map fun c => { c with climbed := 100000 }
    stack.layers := [⟨0, 99000, 103000, 0, 72000, false⟩] }

theorem sound_waitingThere : Sound waitingThere :=
  sound_kept twoSegments_good ⟨rfl, rfl, rfl, rfl, rfl⟩ (by decide +kernel) (by decide +kernel)

/-- In PAUSED by the operator and by a HOLD-class condition. -/
def faultPaused : State := kept
  { climber ringed with
    ctl.mode := .paused
    ctl.pause := ⟨true, true, false, none⟩
    sup.present := [.clockFallback, .neighbourLost] }

theorem sound_faultPaused : Sound faultPaused :=
  sound_kept ringed_good ⟨rfl, rfl, rfl, rfl, rfl⟩ (by decide +kernel) (by decide +kernel)

/-- In REDUCED out of STANDING: channel 2 at X_home, 3 above it, 4 with an invalid reading. -/
def low : State := kept
  { station alone .reduced with
    ctl.returnMode := some .standing
    seq.chans := ⟨restCh, { restCh with x := some 20 }, { restCh with x := some 21 },
      { restCh with readingValid := false }⟩
    sup.supplyLow := true, sup.present := [.clockFallback, .supplyLow] }

theorem sound_low : Sound low :=
  sound_kept alone_good ⟨rfl, rfl, rfl, rfl, rfl⟩ (by decide +kernel) (by decide +kernel)

/-- In REDUCED out of CLIMBING. -/
def lowClimbing : State := kept
  { station alone .reduced with
    ctl.returnMode := some .climbing
    sup.supplyLow := true, sup.present := [.clockFallback, .supplyLow] }

theorem sound_lowClimbing : Sound lowClimbing :=
  sound_kept alone_good ⟨rfl, rfl, rfl, rfl, rfl⟩ (by decide +kernel) (by decide +kernel)

/-- In REDUCED out of STOPPED, under the inhibit input. -/
def lowStopped : State := kept
  { station alone .reduced with
    ctl.returnMode := some .stopped, sup.latched := [.transducer .c1]
    sup.supplyLow := true, sup.present := [.clockFallback, .supplyLow, .inhibit]
    inhibitInput := true
    seq.chans := ⟨{ restCh with state := .fault }, { restCh with state := .inhibited },
      { restCh with state := .inhibited }, { restCh with state := .inhibited }⟩ }

theorem sound_lowStopped : Sound lowStopped :=
  sound_kept alone_good ⟨rfl, rfl, rfl, rfl, rfl⟩ (by decide +kernel) (by decide +kernel)

/-- In STANDING with a report under way and 14 transmit errors. -/
def reporting : State := kept
  { station alone .standing with
    line.report := .sending .periodic (some .urgent), line.errors := 14
    line.frame := some ⟨2, 17, 1, [], 0⟩ }

theorem sound_reporting : Sound reporting :=
  sound_kept alone_good ⟨rfl, rfl, rfl, rfl, rfl⟩ (by decide +kernel) (by decide +kernel)

/-- In CLIMBING with a report under way and 15 transmit errors. -/
def reportingLast : State := kept
  { climber alone with
    line.report := .sending .periodic none, line.errors := 15
    line.frame := some ⟨2, 17, 1, [], 0⟩ }

theorem sound_reportingLast : Sound reportingLast :=
  sound_kept alone_good ⟨rfl, rfl, rfl, rfl, rfl⟩ (by decide +kernel) (by decide +kernel)

/-- In STANDING with a report PENDING on an idle line. -/
def ready : State := kept
  { station alone .standing with line.report := .pending .urgent, line.idle := true }

theorem sound_ready : Sound ready :=
  sound_kept alone_good ⟨rfl, rfl, rfl, rfl, rfl⟩ (by decide +kernel) (by decide +kernel)

/-- In STANDING with a report PENDING on a busy line and 14 transmit errors. -/
def barred : State := kept
  { station alone .standing with
    line.report := .pending .periodic, line.busyTimer := some 5010, line.errors := 14 }

theorem sound_barred : Sound barred :=
  sound_kept alone_good ⟨rfl, rfl, rfl, rfl, rfl⟩ (by decide +kernel) (by decide +kernel)

/-- The same with 15 transmit errors. -/
def barredLast : State := kept
  { station alone .standing with
    line.report := .pending .periodic, line.busyTimer := some 5010, line.errors := 15 }

theorem sound_barredLast : Sound barredLast :=
  sound_kept alone_good ⟨rfl, rfl, rfl, rfl, rfl⟩ (by decide +kernel) (by decide +kernel)

/-- In STANDING in fallback with the crystal running. -/
def running : State := kept
  { station alone .standing with sup.crystalTimer := some 12000 }

theorem sound_running : Sound running :=
  sound_kept alone_good ⟨rfl, rfl, rfl, rfl, rfl⟩ (by decide +kernel) (by decide +kernel)

/-- In STANDING on the crystal. -/
def onCrystal : State := kept
  { station alone .standing with sup.onCrystal := true, sup.present := [] }

theorem sound_onCrystal : Sound onCrystal :=
  sound_kept alone_good ⟨rfl, rfl, rfl, rfl, rfl⟩ (by decide +kernel) (by decide +kernel)

/-- In STANDING with a stroke to be credited, its neighbours 400.0 cm above and its channels 40.0 mm apart. -/
def uneven : State := kept
  { station spreadLatches .standing with
    peers.records := twoHeard 40000 1 .idle
    seq.height := 100
    seq.chans := ⟨restCh, { holding with climbed := 400 }, restCh, restCh⟩ }

theorem sound_uneven : Sound uneven :=
  sound_kept spreadLatches_good ⟨rfl, rfl, rfl, rfl, rfl⟩ (by decide +kernel) (by decide +kernel)

/-- In STANDING with the last temperature standing in, the count of missed samples at T_hold. -/
def chilling : State := kept
  { station alone .standing with
    cure := { State.reset.cure with lastTemp := some 200, inUse := some 200, missed := 10 } }

theorem sound_chilling : Sound chilling :=
  sound_kept alone_good ⟨rfl, rfl, rfl, rfl, rfl⟩ (by decide +kernel) (by decide +kernel)

/-- In STANDING with TEMPERATURE present at a count below T_hold, as a commit that raised T_hold leaves it. -/
def chilled : State := kept
  { station alone .standing with
    cure := { State.reset.cure with lastTemp := some 200, missed := 6 }
    sup.present := [.clockFallback, .temperature] }

theorem sound_chilled : Sound chilled :=
  sound_kept alone_good ⟨rfl, rfl, rfl, rfl, rfl⟩ (by decide +kernel) (by decide +kernel)

/-- In STOPPED with nothing latched. -/
def stoppedClear : State := kept (station alone .stopped)

theorem sound_stoppedClear : Sound stoppedClear :=
  sound_kept alone_good ⟨rfl, rfl, rfl, rfl, rfl⟩ (by decide +kernel) (by decide +kernel)

/-- In CLIMBING with two banks at rest, a plan due in a second. -/
def bankPlan : State := kept (climber banks)

theorem sound_bankPlan : Sound bankPlan :=
  sound_kept banks_good ⟨rfl, rfl, rfl, rfl, rfl⟩ (by decide +kernel) (by decide +kernel)

/-- The same at a cycle completion, the jacks of bank A standing at the next target. -/
def bankSkips : State := kept
  { climber banks with
    seq.cycleTimer := none, seq.expiryHeld := true
    seq.chans := ⟨{ restCh with x := some 125 }, restCh, { restCh with x := some 125 }, restCh⟩ }

theorem sound_bankSkips : Sound bankSkips :=
  sound_kept banks_good ⟨rfl, rfl, rfl, rfl, rfl⟩ (by decide +kernel) (by decide +kernel)

/-- In PAUSED by REJOIN and by NEIGHBOUR LOST, station 18 being unheard. -/
def rejoining : State := kept
  { climber ringed with
    ctl.mode := .paused
    ctl.pause := ⟨false, true, true, none⟩
    peers.records := (rosterNumbers 18 17).map fun n =>
      if n = 16 then heard 16 0 0 .idle else State.resetPeer n
    sup.present := [.clockFallback, .neighbourLost] }

theorem sound_rejoining : Sound rejoining :=
  sound_kept ringed_good ⟨rfl, rfl, rfl, rfl, rfl⟩ (by decide +kernel) (by decide +kernel)

/-- In CLIMBING on the crystal, CLOCK FALLBACK being of class HOLD. -/
def climbingClock : State := kept
  { climber clockHolds with sup.onCrystal := true, sup.present := [] }

theorem sound_climbingClock : Sound climbingClock :=
  sound_kept clockHolds_good ⟨rfl, rfl, rfl, rfl, rfl⟩ (by decide +kernel) (by decide +kernel)

/-- In PAUSED by CLOCK FALLBACK alone, the crystal running. -/
def pausedClock : State := kept
  { climber clockHolds with
    ctl.mode := .paused
    ctl.pause := ⟨false, true, false, none⟩
    sup.crystalTimer := some 12000 }

theorem sound_pausedClock : Sound pausedClock :=
  sound_kept clockHolds_good ⟨rfl, rfl, rfl, rfl, rfl⟩ (by decide +kernel) (by decide +kernel)

/-- In REDUCED out of STANDING at the program top. -/
def lowTop : State := kept
  { station alone .reduced with
    ctl.returnMode := some .standing
    seq.height := 100000
    seq.chans := (station alone .standing).seq.chans.map fun c => { c with climbed := 100000 }
    stack.layers := []
    sup.supplyLow := true, sup.present := [.clockFallback, .supplyLow] }

theorem sound_lowTop : Sound lowTop :=
  sound_kept alone_good ⟨rfl, rfl, rfl, rfl, rfl⟩ (by decide +kernel) (by decide +kernel)

/-- In REDUCED out of STOPPED by a halt loop that is still asserted, a clear pending. -/
def lowHalted : State := kept
  { station alone .reduced with
    ctl.returnMode := some .stopped
    sup.supplyLow := true, sup.present := [.clockFallback, .haltLoop, .supplyLow]
    sup.latched := [.haltLoop], sup.loopSensed := true, sup.haltCause := some .other
    sup.clearPending := true, sup.clearTimer := some 6500 }

theorem sound_lowHalted : Sound lowHalted :=
  sound_kept alone_good ⟨rfl, rfl, rfl, rfl, rfl⟩ (by decide +kernel) (by decide +kernel)

/-! ### Before and during the join -/

/-- In SETUP and WAITING on an idle line. -/
def waiting : State := { State.reset with now := 4000, line.idle := true }

theorem sound_waiting : Sound waiting :=
  sound_unkept (by decide +kernel) (by decide +kernel) rfl rfl rfl

/-- In SETUP with a report under way, the SETUP REQUEST PENDING and 15 errors counted. -/
def crossed : State :=
  { waiting with
    line := { waiting.line with
      idle := false, report := .sending .periodic none, setupRequest := .pending,
      frame := some (reportFrame .periodic waiting), errors := 15, busyTimer := some 4010 } }

theorem sound_crossed : Sound crossed :=
  sound_unkept (by decide +kernel) (by decide +kernel) rfl rfl rfl

/-- In SETUP with the window open and a record staged, the items of `bad` being out of range. -/
def window (r : SetupRecord) (bad : List Nat) : State :=
  { State.reset with
    now := 10000
    line.setupRequest := .sending
    line.frame := some ⟨3, 17, 5, [], 0⟩
    join.stage := .window
    join.staged := r
    join.marks := Vector.ofFn fun i => bad.contains (i.val + 1)
    join.windowTimer := some 60500
    join.requestTimer := some 12000
    join.itemsReceived := 255 }

/-- A record with two items out of range. -/
def outOfRange : SetupRecord := (alone.put 34 901).put 36 99

/-- A record whose knees do not rise. -/
def kneesLevel : SetupRecord := alone.put 48 300

theorem sound_window : Sound (window alone []) :=
  sound_unkept (by decide +kernel) (by decide +kernel) rfl rfl rfl

theorem sound_window_outOfRange : Sound (window outOfRange [34, 36]) :=
  sound_unkept (by decide +kernel) (by decide +kernel) rfl rfl rfl

theorem sound_window_kneesLevel : Sound (window kneesLevel []) :=
  sound_unkept (by decide +kernel) (by decide +kernel) rfl rfl rfl

/-- A form of 1,100.0 cm. -/
def lowForm : SetupRecord := alone.put 41 11000

/-- The window before its commit, a depth of 1,150.0 cm being held. -/
def windowDeep : State :=
  { window lowForm [] with feed.depth := some 11500, feed.probeValid := true }

theorem sound_windowDeep : Sound windowDeep :=
  sound_unkept (by decide +kernel) (by decide +kernel) rfl rfl rfl

/-- The same in REDUCED. -/
def windowLow : State :=
  { window alone [] with
    ctl.mode := .reduced
    ctl.returnMode := some .setup
    line.setupRequest := .pending
    line.frame := none
    sup.supplyLow := true
    sup.present := [.clockFallback, .supplyLow] }

theorem sound_windowLow : Sound windowLow :=
  sound_unkept (by decide +kernel) (by decide +kernel) rfl rfl rfl

/-- In LOCKED under number 0. -/
def locked : State :=
  { State.reset with
    ctl.mode := .locked, line.setupRequest := .empty, line.sender := 0
    join.ownNumber := 0, join.stage := .closed, join.requestTimer := none
    peers.records := (rosterNumbers 59 0).map State.resetPeer }

theorem sound_locked : Sound locked :=
  sound_unkept (by decide +kernel) (by decide +kernel) rfl rfl rfl

/-- In JOINING after a commit, the listen timer still running. -/
def listening (r : SetupRecord) (ps : List Peer) (depth : Option Nat) : State :=
  { station r .joining with
    seq.chans := (station alone .standing).seq.chans.map fun c => { c with homing := .atCommit }
    stack := State.reset.stack
    feed := { State.reset.feed with depth := depth, probeValid := depth.isSome }
    peers.records := ps
    join := { (station r .joining).join with state := .listening, listenTimer := some 6000 }
    sup := { State.reset.sup with
      present := if r = alone ∨ ps = twoHeard 0 0 .idle ∨ ps = twoHeard 40000 0 .idle then
          [.clockFallback]
        else [.clockFallback, .neighbourLost] } }

theorem sound_listening : Sound (listening alone ((rosterNumbers 18 17).map State.resetPeer) none) :=
  sound_unkept (by decide +kernel) (setupLaw_of_inForce alone_good ⟨rfl, rfl, rfl, rfl, rfl⟩)
    rfl rfl rfl

theorem sound_listening_unheard :
    Sound (listening ringed ((rosterNumbers 18 17).map State.resetPeer) none) :=
  sound_unkept (by decide +kernel) (setupLaw_of_inForce ringed_good ⟨rfl, rfl, rfl, rfl, rfl⟩)
    rfl rfl rfl

theorem sound_listening_unclimbed : Sound (listening ringed (twoHeard 0 0 .idle) none) :=
  sound_unkept (by decide +kernel) (setupLaw_of_inForce ringed_good ⟨rfl, rfl, rfl, rfl, rfl⟩)
    rfl rfl rfl

theorem sound_listening_climbed (d : Option Nat) (h : d = none ∨ d = some 12000 ∨ d = some 11999) :
    Sound (listening ringed (twoHeard 40000 0 .idle) d) := by
  rcases h with rfl | rfl | rfl <;>
    exact sound_unkept (by decide +kernel)
      (setupLaw_of_inForce ringed_good ⟨rfl, rfl, rfl, rfl, rfl⟩) rfl rfl rfl

/-- The same in REDUCED. -/
def listeningLow (r : SetupRecord) (ps : List Peer) (depth : Option Nat) : State :=
  { listening r ps depth with
    ctl.mode := .reduced
    ctl.returnMode := some .joining
    sup.supplyLow := true
    sup.present := .supplyLow :: (listening r ps depth).sup.present }

theorem sound_listeningLow :
    Sound (listeningLow alone ((rosterNumbers 18 17).map State.resetPeer) none) :=
  sound_unkept (by decide +kernel) (setupLaw_of_inForce alone_good ⟨rfl, rfl, rfl, rfl, rfl⟩)
    rfl rfl rfl

theorem sound_listeningLow_climbed :
    Sound (listeningLow ringed (twoHeard 40000 0 .idle) (some 11999)) :=
  sound_unkept (by decide +kernel) (setupLaw_of_inForce ringed_good ⟨rfl, rfl, rfl, rfl, rfl⟩)
    rfl rfl rfl

/-- In JOINING after a commit, waiting for a link: no neighbour is heard. -/
def unlinked : State :=
  let s := listening ringed ((rosterNumbers 18 17).map State.resetPeer) none
  { s with join.state := .waitingForLink, join.listenTimer := none }

theorem sound_unlinked : Sound unlinked :=
  sound_unkept (by decide +kernel) (setupLaw_of_inForce ringed_good ⟨rfl, rfl, rfl, rfl, rfl⟩)
    rfl rfl rfl

/-- In JOINING after a restore of a station that was in `m`. -/
def restored (m : Mode) (latched : List Cond) : State :=
  { station alone .joining with
    seq.chans := (station alone .standing).seq.chans.map fun c => { c with homing := .atRestore }
    stack.concreteTop := none
    feed := State.reset.feed
    join := { (kept (station alone .standing)).join with
      kind := .afterRestore, state := .listening, listenTimer := some 6000,
      restoredMode := some m }
    sup := { State.reset.sup with latched := latched } }

theorem sound_restored {m : Mode} {ls : List Cond} (hq : quick (restored m ls) = true) :
    Sound (restored m ls) := by
  refine sound_of_quick hq (setupLaw_of_inForce alone_good ⟨rfl, rfl, rfl, rfl, rfl⟩) ⟨?_, ?_, ?_⟩
  · intro i hi; cases hi
    exact (usedImage_kept (t := station alone .standing) alone_good ⟨rfl, rfl, rfl, rfl, rfl⟩
      (by decide +kernel)).1
  · intro i hi; cases hi
  · intro h; simp [recordable, restored] at h

/-- The state after a command on a station without images: the kernel takes seconds over an image's
check. -/
def after (c : Instr) (s : State) : State :=
  match exec c { s with join.imageA := none } with
  | .next t => t
  | .fault r => nomatch r
  | .refused _ => s

/-! ### The statements' hypotheses are met

One theorem for each statement with hypotheses, named after it; where a statement has several clauses over
one input, each clause is met at an end of its range. -/

theorem witness_ResetTakesCourseByStrap :
    usedImage standing.join.imageA standing.join.imageB
        = some (Image.make (keptOf (station alone .standing)) 0)
      ∧ (Image.make (keptOf (station alone .standing)) 0).kept.number = 17
      ∧ (∀ strap : BitVec 6, strap = 1 ∨ strap = 59 →
          1 ≤ strap.toNat ∧ strap.toNat ≤ 59 ∧ 17 ≠ strap.toNat)
      ∧ (0 : BitVec 6).toNat = 0 ∧ 59 < (60 : BitVec 6).toNat :=
  ⟨(usedImage_kept alone_good ⟨rfl, rfl, rfl, rfl, rfl⟩ (by decide +kernel)).2, rfl,
    by decide, rfl, by decide⟩

theorem witness_RestoreLoadsImage :
    Sound standing
      ∧ usedImage standing.join.imageA standing.join.imageB
        = some (Image.make (keptOf (station alone .standing)) 0)
      ∧ (Image.make (keptOf (station alone .standing)) 0).kept.number = (17 : BitVec 6).toNat :=
  ⟨sound_standing,
    (usedImage_kept alone_good ⟨rfl, rfl, rfl, rfl, rfl⟩ (by decide +kernel)).2, rfl⟩

theorem witness_EveryResetClearsCureAndFeed :
    (Instr.powerOnReset 17 false).isReset = true
      ∧ (Instr.brownOutReset 0 true true).isReset = true := ⟨rfl, rfl⟩

/-- A sound state with a command queued, and one with none, step to a next state. -/
theorem queued_step : ∃ t, step { busy with pending := [.holdEnd .c2] } = .next t := ⟨_, rfl⟩

theorem sound_pending {s : State} (h : Sound s) (q : List Instr) :
    Sound { s with pending := q } :=
  ⟨h.1, h.2, h.3, h.4, h.5, h.6, h.7, h.8, h.9, h.10, h.11, h.12, h.13, h.14, h.15, h.16, h.17,
    h.18, h.19, h.20, h.21⟩

/-- For StepKeepsModesInOrder, StepKeepsPlanAndConcrete, StepKeepsValveLaw, StepKeepsChannelsInOrder,
StepKeepsStackOrder, StepKeepsPeerTable, StepKeepsLineInterface, StepKeepsLatchesAndDrive,
StepKeepsPresence and StepKeepsRetainedRecord, which share their hypotheses. -/
theorem witness_StepKeeps :
    Sound { busy with pending := [.holdEnd .c2] }
      ∧ ∃ t, step { busy with pending := [.holdEnd .c2] } = .next t :=
  ⟨sound_pending sound_busy _, queued_step⟩

theorem witness_StepKeepsGateLaw :
    GateLaw opened ∧ ∃ t, step { opened with pending := [.feedTimerExpiry] } = .next t :=
  ⟨sound_opened.gate, _, rfl⟩

theorem witness_StepKeepsJoinUnit :
    Sound { busy with pending := [.holdEnd .c2] }
      ∧ (∃ t, step { busy with pending := [.holdEnd .c2] } = .next t)
      ∧ busy.join.committed = some alone ∧ (Instr.holdEnd .c2).isReset = false :=
  ⟨sound_pending sound_busy _, queued_step, rfl, rfl⟩

theorem witness_ClimbedHeightNeverFalls :
    Sound busy ∧ busy.join.state = .done ∧ (Instr.holdEnd .c2).isReset = false :=
  ⟨sound_busy, rfl, rfl⟩

theorem witness_OnlyClearUnlatches :
    halted.sup.latched = [.haltLoop] ∧ halted.sup.clearPending = true
      ∧ (Instr.haltLoopSensedReleased).isReset = false
      ∧ (∀ a b c, Instr.haltLoopSensedReleased ≠ .clear a b c)
      ∧ ∀ low, Instr.haltLoopSensedReleased ≠ .localClear low :=
  ⟨rfl, rfl, rfl, by simp, by simp⟩

theorem witness_PlanHoldsThroughCycle :
    (Instr.supplyLow).isReset = false ∧ Instr.supplyLow ≠ .cycleTimerExpiry
      ∧ Instr.supplyLow ≠ .cycleCompletion := ⟨rfl, by simp, by simp⟩

/-- CLIMBING with a concrete top that leaves FILL 3.0, 2.9 and 0 mm, with S_min at 3.0 mm. -/
theorem witness_PlanChoosesRise :
    (planEvent { climbing with stack.concreteTop := some 3030 }).plan.last.candidate = some 30
      ∧ (planEvent { climbing with stack.concreteTop := some 3029 }).plan.last.candidate = some 29
      ∧ (planEvent { climbing with stack.concreteTop := some 3000 }).plan.last.candidate = some 0
      ∧ climbing.ctl.mode = .climbing ∧ climbing.setup.strokeMin = 30
      ∧ paused.ctl.mode = .paused := by decide +kernel

/-- Below the program, at its start and just below its top; a segment held; a mature run of one layer at the
threshold, and an empty one. -/
theorem witness_LimitsFromTheirSources :
    { standing with join.committed := some (alone.put 1 1) }.seq.height
        < (alone.put 1 1).programStart
      ∧ standing.setup.programStart ≤ standing.seq.height
      ∧ standing.seq.height < standing.setup.programTop
      ∧ nearTop.setup.programStart ≤ nearTop.seq.height
      ∧ nearTop.seq.height < nearTop.setup.programTop
      ∧ heldStart atSegment = some 100000 ∧ heldStart standing = none
      ∧ linkedHeights neighboured = [0, 0] ∧ allAvailable lonely = false
      ∧ lonely.peers.links = [16, 18] ∧ standing.peers.links = []
      ∧ standing.setup.rampStep = 50
      ∧ short.stack.layers = [⟨0, 0, 2000, 0, 72000, false⟩] ++ [⟨1, 2000, 4000, 0, 0, false⟩]
      ∧ short.setup.nat 43 * 600 = 72000
      ∧ full.stack.layers = [] ++ full.stack.layers
      ∧ (∀ l ∈ full.stack.layers.head?, l.maturity < full.setup.nat 43 * 600) := by decide +kernel

theorem witness_CycleExpiryPlans :
    (Sound climbing ∧ Sound paused ∧ Sound completing ∧ Sound stroking)
      ∧ (climbing.ctl.mode.climbs = true ∧ climbing.seq.cycleTimer = some 6000
        ∧ allAtRest climbing = true)
      ∧ (paused.ctl.mode.climbs = true ∧ paused.seq.cycleTimer = some 6000
        ∧ allAtRest paused = true)
      ∧ (completing.ctl.mode.climbs = true ∧ completing.seq.expiryHeld = true
        ∧ allAtRest completing = true)
      ∧ stroking.ctl.mode.climbs = true ∧ stroking.seq.cycleTimer = some 6000
      ∧ allAtRest stroking = false :=
  ⟨⟨sound_climbing, sound_paused, sound_completing, sound_stroking⟩, by decide +kernel⟩

/-- The four starts of `completing` take the four ways of R88: an invalid reading, a jack at its target,
T_dead run to the millisecond and T_dead one millisecond short. Bank A starts at the plan event of `bankPlan`
and skips its starts at that of `bankSkips`. -/
theorem witness_StartsFallDueByBank :
    (Sound completing ∧ Sound banked ∧ Sound climbing ∧ Sound bankPlan ∧ Sound bankSkips)
      ∧ (completing.ctl.mode.climbs = true ∧ completing.seq.expiryHeld = true
        ∧ allAtRest completing = true ∧ completing.setup.banked = false)
      ∧ (planOf (raiseRamp completing)).targets = ⟨125, 125, 125, 125⟩
      ∧ ((completing.chan .c1).readingValid = false ∧ (completing.chan .c2).x = some 125
        ∧ (completing.chan .c3).dumpClosed + 200 = completing.now
        ∧ (completing.chan .c4).dumpClosed + 200 = completing.now + 1)
      ∧ (banked.setup.banked = true ∧ bankAReady banked = true ∧ bankBWaiting banked = true)
      ∧ ((banked.chan .c2).startPending = true ∧ (banked.chan .c4).startPending = false)
      ∧ (∀ s ∈ [climbing, bankPlan], s.ctl.mode.climbs = true ∧ s.seq.cycleTimer = some 6000
        ∧ allAtRest s = true)
      ∧ (bankSkips.ctl.mode.climbs = true ∧ bankSkips.seq.expiryHeld = true
        ∧ allAtRest bankSkips = true)
      ∧ (∀ s ∈ [bankPlan, bankSkips], s.setup.banked = true
        ∧ (planOf (raiseRamp s)).targets = ⟨125, 125, 125, 125⟩) :=
  ⟨⟨sound_completing, sound_banked, sound_climbing, sound_bankPlan, sound_bankSkips⟩,
    by decide +kernel⟩

theorem witness_ValidReadingActsByState :
    (Sound busy ∧ Sound delayed ∧ Sound threeChannels ∧ Sound low ∧ Sound lastMoving)
      ∧ ((lastMoving.chan .c1).state = .retract ∧ (lastMoving.chan .c1).dumpOpen = true
        ∧ ∀ ch ∈ Ch.all, ch ≠ .c1 → (lastMoving.chan ch).state = .rest)
      ∧ ((threeChannels.chan .c1).isActive = false)
      ∧ ((busy.chan .c1).state = .extend ∧ (busy.chan .c1).pressureOpen = true
        ∧ (busy.chan .c1).target = 200)
      ∧ ((busy.chan .c2).state = .hold)
      ∧ ((busy.chan .c3).state = .retract ∧ (busy.chan .c3).dumpOpen = true
        ∧ (busy.chan .c3).blind = false ∧ busy.setup.home = 20)
      ∧ ((busy.chan .c4).blind = true)
      ∧ ((delayed.chan .c3).state = .rest ∧ (delayed.chan .c3).homing = .atCommit)
      ∧ ((delayed.chan .c4).state = .rest ∧ (delayed.chan .c4).homing = .atRestore)
      ∧ (low.chan .c2).state = .rest ∧ (low.chan .c2).homing = .none
      ∧ low.ctl.mode = .reduced :=
  ⟨⟨sound_busy, sound_delayed, sound_threeChannels, sound_low, sound_lastMoving⟩,
    by decide +kernel⟩

theorem witness_InvalidReadingLatches :
    (Sound busy ∧ Sound delayed ∧ Sound held ∧ Sound faulted ∧ Sound banked ∧ Sound blindEnds)
      ∧ (banked.isPresent (.transducer .c1) = false ∧ banked.isLatched (.transducer .c1) = false
        ∧ (banked.chan .c2).startPending = true)
      ∧ (blindEnds.isPresent (.transducer .c1) = false
        ∧ blindEnds.isLatched (.transducer .c1) = true)
      ∧ (∃ v : Int, SensorReading.value 321 = .value v ∧ (v < 0 ∨ 320 < v))
      ∧ (∃ v : Int, SensorReading.value (-1) = .value v ∧ (v < 0 ∨ 320 < v))
      ∧ (∀ ch ∈ Ch.all, (busy.chan ch).isActive = true)
      ∧ (busy.isPresent (.transducer .c1) = false ∧ busy.ctl.mode.works = true)
      ∧ ((busy.chan .c1).state = .extend ∧ (busy.chan .c2).state = .hold
        ∧ (busy.chan .c3).state = .retract)
      ∧ ((delayed.chan .c3).homing = .atCommit ∧ (delayed.chan .c4).homing = .atRestore
        ∧ (delayed.chan .c3).state = .rest ∧ (delayed.chan .c4).state = .rest)
      ∧ (held.chan .c1).state = .inhibited ∧ (faulted.chan .c1).state = .fault :=
  ⟨⟨sound_busy, sound_delayed, sound_held, sound_faulted, sound_banked, sound_blindEnds⟩,
    by decide +kernel, by decide +kernel, ⟨_, rfl, by decide⟩, ⟨_, rfl, by decide⟩,
    by decide +kernel⟩

theorem witness_StrokeTimersEndMotion :
    (Sound busy ∧ Sound threeChannels ∧ Sound blindEnds ∧ Sound lastMoving)
      ∧ ((lastMoving.chan .c1).strokeTimer = some 20000 ∧ (lastMoving.chan .c1).state = .retract
        ∧ lastMoving.isPresent (.retractTimeout .c1) = false)
      ∧ (busy.isLatched (.extendTimeout .c1) = false ∧ busy.isLatched (.retractTimeout .c3) = false)
      ∧ ((busy.chan .c1).strokeTimer = some 20000 ∧ (busy.chan .c1).state = .extend
        ∧ busy.classOf (.extendTimeout .c1) = .latch
        ∧ busy.isPresent (.extendTimeout .c1) = false)
      ∧ ((threeChannels.chan .c2).strokeTimer = some 20000
        ∧ (threeChannels.chan .c2).state = .extend
        ∧ threeChannels.classOf (.extendTimeout .c2) = .warn)
      ∧ ((busy.chan .c3).strokeTimer = some 20000 ∧ (busy.chan .c3).state = .retract
        ∧ (busy.chan .c3).blind = false ∧ busy.isPresent (.retractTimeout .c3) = false
        ∧ busy.classOf (.retractTimeout .c3) = .trip)
      ∧ (∀ ch ∈ Ch.all, (blindEnds.chan ch).strokeTimer = some 7000
        ∧ (blindEnds.chan ch).state = .retract ∧ (blindEnds.chan ch).blind = true)
      ∧ blindEnds.isLatched (.transducer .c1) = true
      ∧ (blindEnds.chan .c2).x = some 21 ∧ (blindEnds.chan .c3).x = some 20
      ∧ (blindEnds.chan .c4).readingValid = false :=
  ⟨⟨sound_busy, sound_threeChannels, sound_blindEnds, sound_lastMoving⟩, by decide +kernel⟩

/-- In `uneven` TILT and JACK SPREAD are absent before, of class LATCH, and their sources are beyond
TILT_MAX and JACK_SPREAD_MAX. -/
theorem witness_HoldEndCreditsStroke :
    (Sound busy ∧ Sound nearTop ∧ Sound uneven)
      ∧ ((busy.chan .c2).state = .hold ∧ (busy.chan .c2).strokeTimer = some 5100)
      ∧ (nearTop.chan .c1).state = .hold ∧ (nearTop.chan .c1).strokeTimer = some 5100
      ∧ nearTop.ctl.mode.works = true
      ∧ nearTop.setup.programTop ≤ (99900 + (200 - 10) + 3 * 100000) / 4
      ∧ ((uneven.chan .c2).state = .hold ∧ (uneven.chan .c2).strokeTimer = some 5100
        ∧ linkedHeights uneven = [40000, 40000] ∧ uneven.setup.tiltMax = 400
        ∧ (uneven.chan .c2).climbed = 400 ∧ (uneven.chan .c1).climbed = 0
        ∧ uneven.setup.spreadMax = 100)
      ∧ ∀ e ∈ [Cond.tilt, Cond.jackSpread], uneven.isPresent e = false
        ∧ (uneven.classOf e = .latch ∨ uneven.classOf e = .trip) :=
  ⟨⟨sound_busy, sound_nearTop, sound_uneven⟩, by decide +kernel⟩

theorem witness_DeferredValveOpens :
    Sound delayed ∧ (delayed.chan .c1).deferred = some 5100 ∧ (delayed.chan .c1).state = .extend
      ∧ (delayed.chan .c2).deferred = some 5100 ∧ (delayed.chan .c2).state = .retract :=
  ⟨sound_delayed, by decide +kernel⟩

theorem witness_InhibitStopsAndReleases :
    (Sound busy ∧ Sound faulted ∧ Sound climbing ∧ Sound held ∧ Sound lowStopped ∧ Sound nearTop
        ∧ Sound stroking)
      ∧ (busy.inhibitInput = false ∧ busy.heightSet = true ∧ (busy.chan .c1).inStroke = true)
      ∧ (nearTop.inhibitInput = false ∧ nearTop.ctl.mode.works = true
        ∧ nearTop.setup.programTop ≤ (99900 + (200 - 10) + 3 * 100000) / 4)
      ∧ (stroking.inhibitInput = false ∧ stroking.ctl.mode = .climbing
        ∧ (stroking.chan .c1).inStroke = true)
      ∧ (faulted.inhibitInput = false ∧ ∀ ch ∈ Ch.all, (faulted.chan ch).inStroke = false)
      ∧ (climbing.inhibitInput = false ∧ climbing.ctl.mode = .climbing
        ∧ ∀ ch ∈ Ch.all, (climbing.chan ch).inStroke = false)
      ∧ (held.inhibitInput = true ∧ (held.chan .c2).x = some 20 ∧ (held.chan .c3).x = some 21
        ∧ (held.chan .c4).readingValid = false)
      ∧ lowStopped.inhibitInput = true ∧ lowStopped.ctl.mode = .reduced
      ∧ (lowStopped.chan .c1).state = .fault ∧ (lowStopped.chan .c2).state = .inhibited :=
  ⟨⟨sound_busy, sound_faulted, sound_climbing, sound_held, sound_lowStopped, sound_nearTop,
    sound_stroking⟩, by decide +kernel⟩

/-- One, two and three segments of the curve, a sample at the datum, and a cap at the datum. -/
theorem witness_CureRateCurve :
    GoodRecord 17 alone ∧ GoodRecord 17 (alone.put 47 1) ∧ GoodRecord 17 (alone.put 47 2)
      ∧ GoodRecord 17 (alone.put 46 (-100)) ∧ alone.cureSegs = 3 ∧ (alone.put 47 1).cureSegs = 1
      ∧ (alone.put 47 2).cureSegs = 2 ∧ -100 - alone.datum ≤ 0
      ∧ (alone.put 46 (-100)).tempCap ≤ (alone.put 46 (-100)).datum
      ∧ 0 < -99 - alone.datum ∧ alone.datum < alone.tempCap := by decide +kernel

/-- The count of missed samples below, at and above T_hold, TEMPERATURE absent and present before. -/
theorem witness_CureSampleTaken :
    (Sound standing ∧ Sound low ∧ Sound chilling ∧ Sound chilled)
      ∧ (standing.cure.sampleTimer = some 60000 ∧ standing.ctl.mode ≠ .reduced)
      ∧ (low.cure.sampleTimer = some 60000 ∧ low.ctl.mode = .reduced)
      ∧ (∃ v : Int, SensorReading.value (-401) = .value v ∧ (v < -400 ∨ 1000 < v))
      ∧ (∃ v : Int, SensorReading.value 1001 = .value v ∧ (v < -400 ∨ 1000 < v))
      ∧ standing.classOf .temperature = .warn
      ∧ (standing.isPresent .temperature = false ∧ standing.setup.tempHold = 10)
      ∧ (chilling.isPresent .temperature = false ∧ chilling.cure.missed = 10)
      ∧ chilled.isPresent .temperature = true ∧ chilled.cure.missed + 1 ≤ chilled.setup.tempHold :=
  ⟨⟨sound_standing, sound_low, sound_chilling, sound_chilled⟩, by decide +kernel,
    by decide +kernel, ⟨_, rfl, by decide⟩, ⟨_, rfl, by decide⟩, by decide +kernel⟩

/-- With F at 1,200.0 cm: an empty stack at D = F and 0.1 mm below it, the three ways above a layer, and
a full stack. -/
theorem witness_ReckoningBuildsLayers :
    (Sound bare ∧ Sound short ∧ Sound full)
      ∧ (∀ s ∈ [bare, short, full], s.ctl.mode ≠ .reduced ∧ blanked s = false
        ∧ s.heightSet = true ∧ s.stack.reckoning = true ∧ s.setup.formHeight = 12000
        ∧ s.seq.height = 0)
      ∧ bare.stack.layers = [] ∧ (0 + 12000 - 12000 ≤ 0 ∧ 0 < 0 + 12000 - 11999)
      ∧ short.stack.layers = [⟨0, 0, 2000, 0, 72000, false⟩] ++ [⟨1, 2000, 4000, 0, 0, false⟩]
      ∧ (0 + 12000 - 8000 ≤ 4000)
      ∧ (4000 < 0 + 12000 - 7999 ∧ 0 + 12000 - 7999 < 4000 + short.setup.layerMin)
      ∧ (4000 + short.setup.layerMin ≤ 0 + 12000 - 7000 ∧ short.stack.layers.length < 16)
      ∧ full.stack.layers = full.stack.layers.take 15 ++ [⟨15, 7500, 8000, 0, 0, false⟩]
      ∧ full.stack.layers.length = 16 ∧ 8000 < 0 + 12000 - 0 :=
  ⟨⟨sound_bare, sound_short, sound_full⟩, by decide +kernel⟩

/-- Discarded in REDUCED, in motion and after it; at D_call and above, at D_full and above, in each feed
state; and the two ends of the range. -/
theorem witness_ProbeSampleTaken :
    (Sound standing ∧ Sound asking ∧ Sound opened ∧ Sound low ∧ Sound busy ∧ Sound blank)
      ∧ (∀ s ∈ [standing, asking, opened, low, busy, blank], s.feed.probeTimer = some 1000)
      ∧ (low.ctl.mode = .reduced ∧ blanked busy = true ∧ blanked blank = true)
      ∧ (∀ s ∈ [standing, asking, opened], s.ctl.mode ≠ .reduced ∧ blanked s = false
        ∧ s.setup.formHeight = 12000 ∧ s.setup.depthFull = 1000 ∧ s.setup.depthCall = 3000)
      ∧ standing.feed.state = .idle ∧ asking.feed.state = .asking ∧ opened.feed.state = .opened
      ∧ (∃ v : Nat, SensorReading.value 12000 = .value v ∧ v ≤ 12000)
      ∧ (∃ v : Int, SensorReading.value 12001 = .value v ∧ (v < 0 ∨ 12000 < v))
      ∧ ∃ v : Int, SensorReading.value (-1) = .value v ∧ (v < 0 ∨ 12000 < v) :=
  ⟨⟨sound_standing, sound_asking, sound_opened, sound_low, sound_busy, sound_blank⟩,
    by decide +kernel, by decide +kernel, by decide +kernel, rfl, rfl, rfl,
    ⟨12000, rfl, by decide⟩, ⟨_, rfl, by decide⟩, ⟨_, rfl, by decide⟩⟩

/-- The payload of zeros is a report: in SETUP, without a stack, at height 0. -/
theorem zeros_report : (decodeReport (0 : BitVec 224).toNat).isSome = true := by decide +kernel

theorem witness_AdmissionAndYield :
    (Sound asking ∧ Sound crowded ∧ Sound settled ∧ Sound opened)
      ∧ (asking.feed.settleTimer = some 7000 ∧ asking.setup.gateMax = 2
        ∧ openPeers asking + askersAbove asking = 0)
      ∧ (crowded.feed.settleTimer = some 7000 ∧ openPeers crowded = 2)
      ∧ (decodeReport (0 : BitVec 224).toNat).isSome = true
      ∧ (16 ∈ settled.peers.records.map Peer.number ∧ settled.join.state ≠ .waitingForLink
        ∧ settled.feed.state = .asking ∧ settled.feed.settled = true)
      ∧ (16 ∈ opened.peers.records.map Peer.number ∧ opened.join.state ≠ .waitingForLink
        ∧ opened.feed.state = .opened)
      ∧ settled.ctl.mode.works = true ∧ opened.ctl.mode.works = true :=
  ⟨⟨sound_asking, sound_crowded, sound_settled, sound_opened⟩, by decide +kernel,
    by decide +kernel, zeros_report, by decide +kernel⟩

theorem witness_GateClosesAndHolds :
    (Sound opened ∧ Sound blank ∧ Sound standing ∧ Sound (heldShort true)
        ∧ Sound (heldShort false) ∧ Sound (feedHeld (station alone .stopped))
        ∧ Sound (feedHeld topped))
      ∧ (∀ s ∈ [standing, heldShort true, heldShort false, feedHeld (station alone .stopped),
          feedHeld topped],
        addressed s 60 17 = true ∧ s.ctl.mode.takesCommands = true)
      ∧ (depthCalls (heldShort true) = true ∧ depthCalls (heldShort false) = true
        ∧ standing.ctl.feedHold = false)
      ∧ (opened.feed.feedTimer = some 9000 ∧ opened.classOf .feedTimeout = .warn)
      ∧ blank.feed.blankTimer = some 6000
      ∧ (addressed opened 60 17 = true ∧ opened.ctl.mode.takesCommands = true)
      ∧ (addressed blank 63 0 = true ∧ blank.ctl.mode.takesCommands = true
        ∧ blank.ctl.feedHold = true ∧ blank.ctl.mode.works = true
        ∧ blank.feed.probeValid = true)
      ∧ 2 ≤ (2 : Byte).toNat :=
  ⟨⟨sound_opened, sound_blank, sound_standing, sound_heldShort, sound_heldShort_unread,
    sound_feedHeld_stopped, sound_feedHeld_topped⟩, by decide +kernel⟩

/-- The payload of a report at one height, in STANDING. -/
def reportAt (h : Nat) : BitVec 224 :=
  BitVec.ofNat 224 (encodeReport { gatherReport (station alone .standing) with height := some h })

/-- A report of a linked station at TILT_MAX and 0.1 mm above it; a settled station in ASKING, one with
REJOIN and one that waits for a link, each with the sender's record at hand. -/
theorem witness_ReportEntersRecord :
    (Sound standing ∧ Sound lost ∧ Sound neighboured ∧ Sound settled ∧ Sound rejoining
        ∧ Sound unlinked)
      ∧ decodeReport (BitVec.allOnes 224).toNat = none
      ∧ ((60 : BitVec 6).toNat ∉ standing.peers.records.map Peer.number ∧ 60 ≠ standing.join.ownNumber)
      ∧ ((0 : BitVec 6).toNat ∉ standing.peers.records.map Peer.number)
      ∧ (decodeReport (0 : BitVec 224).toNat).map Report.mode = some .setup
      ∧ (1 ∈ standing.peers.records.map Peer.number ∧ 18 ∈ lost.peers.records.map Peer.number)
      ∧ (standing.feed.state = .idle ∧ standing.join.state ≠ .waitingForLink
        ∧ standing.ctl.pause.rejoin = false ∧ 1 ∉ standing.peers.links)
      ∧ (∀ p ∈ standing.peers.records, p.number = 1 → p.liveness ≠ .silent)
      ∧ (16 ∈ neighboured.peers.links ∧ neighboured.setup.tiltMax = 400
        ∧ neighboured.sup.armed = true ∧ neighboured.isPresent .tilt = false
        ∧ ∀ h ∈ [400, 401], (decodeReport (reportAt h).toNat).map Report.height = some (some h))
      ∧ (settled.feed.state = .asking ∧ settled.feed.settled = true ∧ 16 ∈ settled.peers.links)
      ∧ (rejoining.ctl.pause.rejoin = true ∧ 18 ∈ rejoining.peers.links)
      ∧ unlinked.join.state = .waitingForLink ∧ 18 ∈ unlinked.peers.links :=
  ⟨⟨sound_standing, sound_lost, sound_neighboured, sound_settled, sound_rejoining,
    sound_unlinked⟩, by decide +kernel⟩

theorem witness_OwnNumberTrips :
    (Sound standing ∧ Sound doubled)
      ∧ decodeReport (BitVec.allOnes 224).toNat = none
      ∧ ((17 : BitVec 6).toNat = standing.join.ownNumber ∧ 17 = doubled.join.ownNumber)
      ∧ doubled.isPresent .duplicateNumber = true
      ∧ standing.isPresent .duplicateNumber = false
      ∧ standing.isLatched .duplicateNumber = false :=
  ⟨⟨sound_standing, sound_doubled⟩, by decide +kernel⟩

theorem witness_AgeSweepByTable :
    (Sound standing ∧ Sound doubled ∧ Sound doubledOnce ∧ Sound lost ∧ Sound settled
        ∧ Sound rejoining ∧ Sound unlinked)
      ∧ (∀ s ∈ [standing, doubled, doubledOnce, lost, settled, rejoining, unlinked],
        s.line.reportTimer = some 500)
      ∧ (settled.feed.state = .asking ∧ settled.feed.settled = true)
      ∧ rejoining.ctl.pause.rejoin = true ∧ unlinked.join.state = .waitingForLink
      ∧ (doubled.isPresent .duplicateNumber = true ∧ doubled.peers.dupHeard = true)
      ∧ (doubledOnce.isPresent .duplicateNumber = true ∧ doubledOnce.peers.dupHeard = false
        ∧ doubledOnce.peers.dupMiss + 1 = doubledOnce.setup.missLimit)
      ∧ ((peerOf lost 18).map fun p => (p.liveness, p.heard, p.miss)) = some (.live, false, 3)
      ∧ standing.isPresent .duplicateNumber = false
      ∧ (∀ p ∈ standing.peers.records, p.liveness = .live → p.heard = true ∨ p.miss + 1 < 4)
      ∧ standing.feed.settled = false ∧ standing.ctl.pause.rejoin = false
      ∧ standing.join.state ≠ .waitingForLink :=
  ⟨⟨sound_standing, sound_doubled, sound_doubledOnce, sound_lost, sound_settled, sound_rejoining,
    sound_unlinked⟩, by decide +kernel⟩

/-- The two ends of a ring of 18, and a ring that is left out. -/
theorem witness_LinkListFormed :
    GoodRecord 1 ringed ∧ GoodRecord 18 ringed ∧ GoodRecord 17 alone ∧ ringed.linkRing = true
      ∧ ringed.ringFirst = 1 ∧ ringed.ringFirst ≠ ringed.roster ∧ alone.linkRing = false := by
  decide +kernel

theorem witness_AttemptTakesSlot :
    (Sound ready ∧ Sound waiting ∧ Sound barred ∧ Sound locked)
      ∧ (ready.line.idle = true ∧ ready.line.muted = false ∧ ready.ctl.mode ≠ .reduced
        ∧ ready.line.report = .pending .urgent ∧ ready.line.setupRequest = .empty)
      ∧ (waiting.line.idle = true ∧ waiting.line.muted = false ∧ waiting.ctl.mode ≠ .reduced
        ∧ waiting.line.report = .empty ∧ waiting.line.setupRequest = .pending)
      ∧ barred.line.idle = false
      ∧ locked.line.report = .empty ∧ locked.line.setupRequest = .empty :=
  ⟨⟨sound_ready, sound_waiting, sound_barred, sound_locked⟩, by decide +kernel⟩

theorem witness_AttemptEnds :
    (Sound reporting ∧ Sound reportingLast ∧ Sound (window alone []))
      ∧ (reporting.line.report.isSending = true ∧ reporting.isPresent .line = false
        ∧ reporting.line.errors < 15 ∧ reporting.line.errors + 1 = 15)
      ∧ (reportingLast.line.report.isSending = true ∧ reportingLast.line.errors = 15
        ∧ reportingLast.ctl.mode = .climbing ∧ reportingLast.isPresent .line = false)
      ∧ (window alone []).line.setupRequest = .sending :=
  ⟨⟨sound_reporting, sound_reportingLast, sound_window⟩, by decide +kernel⟩

theorem witness_LineLevelAndTimers :
    (Sound ready ∧ Sound barred ∧ Sound barredLast ∧ Sound onHold ∧ Sound crossed)
      ∧ (crossed.line.busyTimer = some 4010 ∧ crossed.line.errors = 15
        ∧ crossed.line.report.isSending = true ∧ crossed.line.setupRequest = .pending
        ∧ crossed.line.frame.isSome = true ∧ crossed.isPresent .line = false)
      ∧ (barred.line.report.isSending = false ∧ barred.line.setupRequest ≠ .sending)
      ∧ (ready.line.busyTimer = none ∧ ready.line.report.isPending = true)
      ∧ (barred.line.busyTimer = some 5010 ∧ barred.line.errors < 15)
      ∧ (barredLast.line.busyTimer = some 5010 ∧ barredLast.line.errors = 15)
      ∧ onHold.line.muteTimer = some 9000 :=
  ⟨⟨sound_ready, sound_barred, sound_barredLast, sound_onHold, sound_crossed⟩, by decide +kernel⟩

/-- A payload of each kind's length, one that is too long for every kind, a frame without an end and one
whose length field is not its payload's. -/
theorem witness_FramesSpellCommands :
    (3 < 4 ∧ 63 < 64)
      ∧ (∀ n ∈ [28, 3, 6, 2, 5, 31], (List.replicate n 255).length = n
        ∧ ∀ b ∈ List.replicate n 255, b < 256)
      ∧ (∀ kind < 8, kindLength kind ≠ some 31)
      ∧ ({ (TxFrame.make 0 63 2 [0, 2, 0]).received with endSeen := false }).endSeen = false
      ∧ (TxFrame.make 0 63 2 [0, 2, 0]).received.payload.length ≠ (2 : BitVec 5).toNat := by
  decide +kernel

/-- A SETUP REQUEST frame of station 17. -/
def requestOf17 : TxFrame := TxFrame.make 3 17 5 [60, 0, 0, 0, 255]

/-- The same with another staged check. -/
def otherRequestOf17 : TxFrame := TxFrame.make 3 17 5 [60, 0, 0, 0, 254]

/-- A start command of console 60 to station 17. -/
def startTo17 : TxFrame := TxFrame.make 0 60 2 [17, 1, 0]

/-- In SETUP with its SETUP REQUEST under way. -/
def requesting : State :=
  { waiting with line.idle := false, line.setupRequest := .sending, line.frame := some requestOf17 }

/-- The request's first bit of the field is recessive, its third dominant, its last bit time the end. -/
theorem witness_LeastArbitrationPrevails :
    ((∀ v ∈ [255, 81, 81, 209], v < 256) ∧ true ≠ false)
      ∧ requesting.line.frame = some requestOf17
      ∧ ((frameLine requestOf17)[1]? = some (plainBit true)
        ∧ (frameLine startTo17)[1]? = some (plainBit false))
      ∧ ((frameLine requestOf17)[3]? = some (plainBit false)
        ∧ [(frameLine requestOf17)[1]?, (frameLine requestOf17)[2]?]
          = [some (plainBit true), some (plainBit true)])
      ∧ ((frameLine requestOf17)[9]? = some (codedBit true) ∧ codedBit true ≠ codedBit false)
      ∧ (frameLine requestOf17).length = 75
      ∧ (∀ f ∈ [requestOf17, otherRequestOf17, startTo17],
        f.priority < 4 ∧ f.sender < 64 ∧ f.payload.length < 32)
      ∧ startTo17.arbitration < requestOf17.arbitration
      ∧ requestOf17.arbitration = otherRequestOf17.arbitration
      ∧ frameLine requestOf17 ≠ frameLine otherRequestOf17 := by decide +kernel

theorem witness_FrameReadsBack :
    requestOf17.priority < 4 ∧ requestOf17.sender < 64 ∧ requestOf17.kind < 8
      ∧ requestOf17.payload.length < 32 ∧ (∀ b ∈ requestOf17.payload, b < 256)
      ∧ requestOf17.check < 65536 ∧ kindLength 5 = some 5 := by decide +kernel

theorem witness_ReportReadsBack :
    ReportInRange (gatherReport standing) ∧ ReportInRange (gatherReport bare)
      ∧ (gatherReport bare).stack = none ∧ 15 < 16 ∧ 2047 < 2 ^ 11 := by decide +kernel

/-- With a layer and without, in SETUP, and with entries present and latched. -/
theorem witness_ReportCarriesState :
    (Sound standing ∧ Sound bare ∧ Sound waiting ∧ Sound halted ∧ Sound chilled)
      ∧ Cond.temperature ∈ chilled.sup.present
      ∧ (standing.stack.layers.head? = some ⟨0, 0, 2000, 0, 72000, false⟩
        ∧ standing.stack.layers.getLast? = some ⟨0, 0, 2000, 0, 72000, false⟩)
      ∧ bare.stack.layers = [] ∧ waiting.ctl.mode = .setup
      ∧ Cond.haltLoop ∈ halted.sup.present ∧ Cond.haltLoop ∈ halted.sup.latched :=
  ⟨⟨sound_standing, sound_bare, sound_waiting, sound_halted, sound_chilled⟩,
    by decide +kernel⟩

theorem witness_SetupExchange :
    (Sound waiting ∧ Sound (window alone []) ∧ Sound windowLow ∧ Sound locked)
      ∧ (waiting.ctl.mode = .setup ∧ 60 ≤ (60 : BitVec 6).toNat
        ∧ (17 : Byte).toNat = waiting.join.ownNumber ∧ waiting.join.stage = .waiting)
      ∧ (1 ≤ (1 : Byte).toNat ∧ (87 : Byte).toNat ≤ 87 ∧ ¬ (1 ≤ (0 : Byte).toNat)
        ∧ ¬ ((88 : Byte).toNat ≤ 87))
      ∧ (locked.ctl.mode ≠ .setup ∧ ¬ 60 ≤ (59 : BitVec 6).toNat)
      ∧ waiting.join.requestTimer = some 5000
      ∧ ((window alone []).join.windowTimer = some 60500 ∧ (window alone []).ctl.mode = .setup)
      ∧ windowLow.join.windowTimer = some 60500 ∧ windowLow.ctl.mode = .reduced :=
  ⟨⟨sound_waiting, sound_window, sound_windowLow, sound_locked⟩, by decide +kernel⟩

/-- A commit with a wrong check, one with items 34 and 36 out of range, one whose knees do not rise, a good
one, and a good one under whose form height the held depth lies. -/
theorem witness_CommitJudged :
    (Sound (window alone []) ∧ Sound (window outOfRange [34, 36]) ∧ Sound (window kneesLevel [])
        ∧ Sound windowDeep)
      ∧ (∀ s ∈ [window alone [], window outOfRange [34, 36], window kneesLevel []],
        s.ctl.mode = .setup ∧ addressed s 60 17 = true)
      ∧ alone.check ≠ ((BitVec.ofNat 8 alone.check + 1 : Byte)).toNat
      ∧ outOfRange.check = (BitVec.ofNat 8 outOfRange.check).toNat
      ∧ itemInRange 34 (outOfRange.item 34) = false ∧ itemInRange 36 (outOfRange.item 36) = false
      ∧ (∀ j < 34, 1 ≤ j → itemInRange j (outOfRange.item j) = true)
      ∧ kneesLevel.check = (BitVec.ofNat 8 kneesLevel.check).toNat
      ∧ recordInRange kneesLevel = true ∧ failedRule 17 kneesLevel = some 4
      ∧ alone.check = (BitVec.ofNat 8 alone.check).toNat
      ∧ (recordInRange alone = true ∧ failedRule 17 alone = none)
      ∧ (windowDeep.ctl.mode = .setup ∧ addressed windowDeep 60 17 = true
        ∧ lowForm.check = (BitVec.ofNat 8 lowForm.check).toNat ∧ recordInRange lowForm = true
        ∧ failedRule 17 lowForm = none)
      ∧ windowDeep.feed.depth = some 11500 ∧ lowForm.formHeight < 11500 :=
  ⟨⟨sound_window, sound_window_outOfRange, sound_window_kneesLevel, sound_windowDeep⟩,
    by decide +kernel⟩

/-- Each rule from 2 to 7 fails first for some record in range, and each holds for `ringed` at both ends
of its ring. -/
theorem witness_CommitRules :
    (recordInRange (alone.put 1 2000000) = true ∧ failedRule 17 (alone.put 1 2000000) = some 2)
      ∧ (recordInRange (alone.put 61 1000) = true ∧ failedRule 17 (alone.put 61 1000) = some 3)
      ∧ (recordInRange kneesLevel = true ∧ failedRule 17 kneesLevel = some 4)
      ∧ failedRule 19 alone = some 5
      ∧ (recordInRange (alone.put 73 17) = true ∧ failedRule 17 (alone.put 73 17) = some 6)
      ∧ (recordInRange (ringed.put 72 16) = true ∧ failedRule 17 (ringed.put 72 16) = some 7)
      ∧ recordInRange ringed = true ∧ failedRule 1 ringed = none ∧ failedRule 18 ringed = none := by
  decide +kernel

theorem witness_JoinListenEnds :
    (Sound (listening alone ((rosterNumbers 18 17).map State.resetPeer) none)
        ∧ Sound (listening ringed ((rosterNumbers 18 17).map State.resetPeer) none)
        ∧ Sound (listening ringed (twoHeard 0 0 .idle) none)
        ∧ (∀ d ∈ [none, some 12000, some 11999],
          Sound (listening ringed (twoHeard 40000 0 .idle) d))
        ∧ Sound (restored .standing []) ∧ Sound (restored .paused []) ∧ Sound (restored .topped [])
        ∧ Sound (restored .stopped [.transducer .c1])
        ∧ Sound (listeningLow alone ((rosterNumbers 18 17).map State.resetPeer) none)
        ∧ Sound (listeningLow ringed (twoHeard 40000 0 .idle) (some 11999)))
      ∧ (∀ r ps d, (listeningLow r ps d).join.listenTimer = some 6000
        ∧ (listeningLow r ps d).ctl.mode = .reduced)
      ∧ (∀ r ps d, (listening r ps d).join.listenTimer = some 6000
        ∧ (listening r ps d).ctl.mode = .joining
        ∧ (listening r ps d).join.kind = .afterCommit)
      ∧ (∀ m ls, (restored m ls).join.listenTimer = some 6000
        ∧ (restored m ls).ctl.mode = .joining ∧ (restored m ls).join.kind = .afterRestore
        ∧ (restored m ls).join.restoredMode = some m)
      ∧ (linkList 17 alone = [] ∧ linkList 17 ringed = [16, 18] ∧ ringed.programStart = 0)
      ∧ availablePeers (listening ringed ((rosterNumbers 18 17).map State.resetPeer) none) = []
      ∧ (linkedHeights (listening ringed (twoHeard 0 0 .idle) none) = [0, 0]
        ∧ linkedHeights (listening ringed (twoHeard 40000 0 .idle) none) = [40000, 40000])
      ∧ ringed.formHeight = 12000 ∧ atTop (restored .standing []) = false := by
  refine ⟨⟨sound_listening, sound_listening_unheard, sound_listening_unclimbed, ?_,
    sound_restored (by decide +kernel), sound_restored (by decide +kernel),
    sound_restored (by decide +kernel), sound_restored (by decide +kernel), sound_listeningLow,
    sound_listeningLow_climbed⟩, fun _ _ _ => ⟨rfl, rfl⟩, fun _ _ _ => ⟨rfl, rfl, rfl⟩,
    fun _ _ => ⟨rfl, rfl, rfl, rfl⟩, by decide +kernel⟩
  intro d hd
  exact sound_listening_climbed d (by simpa using hd)

theorem witness_StartTakenOrRefused :
    (Sound standing ∧ Sound lonely ∧ Sound onHold ∧ Sound bare ∧ Sound atSegment
        ∧ Sound neighboured ∧ Sound climbing ∧ Sound locked ∧ Sound low)
      ∧ (∀ s ∈ [standing, lonely, onHold, bare, atSegment, neighboured, climbing, low],
        addressed s 60 0 = true ∧ addressed s 63 17 = true ∧ addressed s 59 17 = false)
      ∧ (∀ s ∈ [standing, lonely, onHold, bare, atSegment, neighboured],
        s.ctl.mode = .standing ∧ s.sup.latched = [])
      ∧ (allAvailable lonely = false ∧ allAvailable neighboured = true)
      ∧ (standing.peers.links = [] ∧ standing.holdPresent = false
        ∧ waitingSegment standing = none)
      ∧ (onHold.peers.links = [] ∧ onHold.holdPresent = true)
      ∧ (bare.peers.links = [] ∧ bare.holdPresent = false ∧ bare.stack.layers = [])
      ∧ (atSegment.peers.links = [] ∧ atSegment.holdPresent = false
        ∧ waitingSegment atSegment = some 2)
      ∧ climbing.ctl.mode = .climbing ∧ locked.ctl.mode = .locked ∧ addressed locked 60 0 = true
      ∧ low.ctl.mode = .reduced :=
  ⟨⟨sound_standing, sound_lonely, sound_onHold, sound_bare, sound_atSegment, sound_neighboured,
    sound_climbing, sound_locked, sound_low⟩, by decide +kernel⟩

theorem witness_StopPauseAndRate :
    (Sound climbing ∧ Sound paused ∧ Sound standing ∧ Sound locked)
      ∧ (∀ s ∈ [climbing, paused, standing], addressed s 60 17 = true)
      ∧ addressed locked 60 0 = true
      ∧ climbing.ctl.mode = .climbing ∧ paused.ctl.mode = .paused
      ∧ standing.ctl.mode.climbs = false ∧ locked.ctl.mode = .locked :=
  ⟨⟨sound_climbing, sound_paused, sound_standing, sound_locked⟩, by decide +kernel⟩

theorem witness_ResumeReleases :
    (Sound paused ∧ Sound pausedTwice ∧ Sound waitingThere ∧ Sound faultPaused ∧ Sound standing)
      ∧ (∀ s ∈ [paused, pausedTwice, waitingThere, faultPaused, standing],
        addressed s 60 17 = true)
      ∧ (∀ s ∈ [paused, pausedTwice, waitingThere, faultPaused], s.ctl.mode = .paused)
      ∧ paused.ctl.pause = ⟨true, false, false, none⟩
      ∧ pausedTwice.ctl.pause = ⟨true, false, false, some 2⟩
      ∧ waitingThere.ctl.pause = ⟨false, false, false, some 2⟩
      ∧ faultPaused.ctl.pause = ⟨true, true, false, none⟩
      ∧ (2 : Byte).toNat = 2 ∧ 8 < (9 : Byte).toNat ∧ standing.ctl.mode ≠ .paused :=
  ⟨⟨sound_paused, sound_pausedTwice, sound_waitingThere, sound_faultPaused, sound_standing⟩,
    by decide +kernel⟩

theorem witness_ClearUnlatchesAbsent :
    (Sound faulted ∧ Sound pulling ∧ Sound cleared ∧ Sound climbing ∧ Sound stoppedClear
        ∧ Sound drawnApart ∧ Sound drawnPaused)
      ∧ (∀ s ∈ [faulted, pulling, cleared, climbing, stoppedClear, drawnApart, drawnPaused],
        s.ctl.mode.takesCommands = true ∧ addressed s 63 17 = true)
      ∧ 50 ≤ 50
      ∧ (∀ s ∈ [drawnApart, drawnPaused],
        s.isPresent .jackSpread = true ∧ s.classOf .jackSpread = .hold)
      ∧ (drawnApart.ctl.mode = .standing ∧ drawnPaused.ctl.mode.climbs = true)
      ∧ (faulted.isPresent (.transducer .c1) = false ∧ (faulted.chan .c1).x = some 20
        ∧ (faulted.chan .c2).x = some 21 ∧ (∀ ch ∈ Ch.all, (faulted.chan ch).state = .fault))
      ∧ (pulling.isLatched .haltLoop = true ∧ pulling.sup.loopSensed = true)
      ∧ cleared.isLatched .haltLoop = true ∧ cleared.sup.loopSensed = false
      ∧ cleared.ctl.mode = .stopped
      ∧ stoppedClear.ctl.mode = .stopped ∧ stoppedClear.sup.latched = []
      ∧ stoppedClear.isPresent .jackSpread = false :=
  ⟨⟨sound_faulted, sound_pulling, sound_cleared, sound_climbing, sound_stoppedClear,
    sound_drawnApart, sound_drawnPaused⟩, by decide +kernel⟩

theorem witness_CommandsWithoutEffect :
    (Sound standing ∧ Sound locked ∧ Sound (window alone []))
      ∧ (standing.ctl.mode ≠ .setup ∧ (window alone []).ctl.mode = .setup
        ∧ (18 : Byte).toNat ≠ (window alone []).join.ownNumber)
      ∧ 49 < 50 ∧ locked.ctl.mode ∈ [Mode.setup, .locked, .joining, .reduced]
      ∧ addressed standing 60 18 = false
      ∧ (59 : BitVec 6).toNat < 60
      ∧ ((18 : Byte).toNat ≠ 0 ∧ (18 : Byte).toNat ≠ standing.join.ownNumber)
      ∧ (standing.join.windowTimer.isNone = true ∧ standing.join.requestTimer.isNone = true
        ∧ standing.seq.cycleTimer.isNone = true ∧ standing.feed.settleTimer.isNone = true
        ∧ standing.seq.expiryHeld = false ∧ attempting standing = false
        ∧ standing.sup.clearTimer.isNone = true ∧ standing.sup.loopSensed = false) :=
  ⟨⟨sound_standing, sound_locked, sound_window⟩, by decide +kernel⟩

theorem witness_HaltLoopSensed :
    (Sound stroking ∧ Sound cleared ∧ Sound pulling ∧ Sound halted ∧ Sound low ∧ Sound lowHalted)
      ∧ (stroking.sup.loopSensed = false ∧ stroking.isLatched .haltLoop = false
        ∧ stroking.ctl.mode.works = true ∧ (stroking.chan .c1).state = .extend)
      ∧ (cleared.sup.loopSensed = false ∧ cleared.isLatched .haltLoop = true)
      ∧ (pulling.sup.loopSensed = true ∧ pulling.sup.clearPending = false)
      ∧ (halted.sup.loopSensed = true ∧ halted.sup.clearPending = true
        ∧ halted.sup.clearTimer = some 6500)
      ∧ low.ctl.mode = .reduced ∧ low.effectiveMode.works = true
      ∧ low.isLatched .haltLoop = false
      ∧ lowHalted.ctl.mode = .reduced ∧ lowHalted.sup.loopSensed = true
      ∧ lowHalted.sup.clearPending = true ∧ lowHalted.sup.latched = [.haltLoop] :=
  ⟨⟨sound_stroking, sound_cleared, sound_pulling, sound_halted, sound_low, sound_lowHalted⟩,
    by decide +kernel⟩

/-- At the entry `stroking` credits two strokes and latches nothing, `uneven` latches TILT. -/
theorem witness_SupplyFallsAndReturns :
    (Sound stroking ∧ Sound standing ∧ Sound low ∧ Sound lowClimbing ∧ Sound lowStopped
        ∧ Sound uneven ∧ Sound lowTop)
      ∧ (stroking.heightSet = true ∧ (after .supplyLow stroking).sup.latched = stroking.sup.latched)
      ∧ (uneven.sup.supplyLow = false ∧ (uneven.chan .c2).inStroke = true
        ∧ (after .supplyLow uneven).sup.latched ≠ uneven.sup.latched)
      ∧ (lowTop.sup.supplyLow = true ∧ lowTop.effectiveMode.works = true ∧ atTop lowTop = true)
      ∧ (stroking.sup.supplyLow = false ∧ (stroking.chan .c1).state = .extend
        ∧ (stroking.chan .c2).state = .hold ∧ (stroking.chan .c4).state = .retract)
      ∧ (standing.sup.supplyLow = false ∧ ∀ ch ∈ Ch.all, (standing.chan ch).inStroke = false)
      ∧ (low.sup.supplyLow = true ∧ low.effectiveMode = .standing ∧ atTop low = false
        ∧ (low.chan .c2).x = some 20 ∧ (low.chan .c3).x = some 21
        ∧ (low.chan .c4).readingValid = false)
      ∧ (lowClimbing.sup.supplyLow = true ∧ lowClimbing.effectiveMode.climbs = true
        ∧ atTop lowClimbing = false)
      ∧ lowStopped.sup.supplyLow = true ∧ lowStopped.effectiveMode.works = false :=
  ⟨⟨sound_stroking, sound_standing, sound_low, sound_lowClimbing, sound_lowStopped, sound_uneven,
    sound_lowTop⟩, by decide +kernel⟩

theorem witness_TimeBaseFollowsCrystal :
    (Sound onCrystal ∧ Sound standing ∧ Sound running ∧ Sound climbingClock ∧ Sound pausedClock)
      ∧ onCrystal.sup.onCrystal = true
      ∧ (standing.sup.onCrystal = false ∧ standing.sup.crystalTimer = none)
      ∧ running.sup.crystalTimer = some 12000
      ∧ (climbingClock.classOf .clockFallback = .hold ∧ climbingClock.sup.onCrystal = true
        ∧ climbingClock.ctl.mode = .climbing)
      ∧ pausedClock.sup.crystalTimer = some 12000 ∧ pausedClock.ctl.mode = .paused
      ∧ pausedClock.holdPresent = true :=
  ⟨⟨sound_onCrystal, sound_standing, sound_running, sound_climbingClock, sound_pausedClock⟩,
    by decide +kernel⟩

/-! ### The checks of WellFormed -/

/-- A whole START frame of console 60 for station 17 is a command, not a discarded frame. -/
def startFrame : RxFrame := (TxFrame.make 0 60 2 [17, 1, 0]).received

theorem test_wellFormed_refuses_console_requester : wellFormed (.peerSetupRequest 60 0) = false := by
  decide +kernel

theorem test_wellFormed_refuses_number_zero : wellFormed (.peerSetupRequest 0 0) = false := by
  decide +kernel

theorem test_wellFormed_takes_stations :
    wellFormed (.peerSetupRequest 1 0) = true ∧ wellFormed (.peerSetupRequest 59 0) = true := by
  decide +kernel

theorem test_wellFormed_refuses_whole_frame : wellFormed (.frameDiscarded startFrame) = false := by
  decide +kernel

theorem test_wellFormed_takes_broken_frame :
    wellFormed (.frameDiscarded { startFrame with endSeen := false }) = true := by decide +kernel

/-! ### Frames, checks and words -/

/-- The table gives no row bits, so no word spells a command and the queue stays. -/
theorem test_words_spell_nothing :
    decodeTableWord 8 0 = none ∧ (State.reset.withFetchWord 8 0).pending = [] := by decide

/-- R199, R204: COMMAND is kind 2 with target, code and argument. -/
theorem test_start_frame : commandOfFrame startFrame = .start 60 17 0 := by decide +kernel

/-- R201, one bit by hand: all ones shift to FFFE, and a 0 takes the pattern 6F63 as well. The setup
check's pattern is 4D, met at the last bit of the word 1. -/
theorem test_check_registers :
    frameCheck [true] = 0xFFFE ∧ frameCheck [false] = 0x909D ∧ wordsCheck [1] = 0x4D := by
  decide +kernel

/-- R144, section 8.9.1: the arbitration values of station 17 and of station 16. -/
theorem test_arbitration_values :
    (TxFrame.make 2 17 1 []).arbitration = 145 ∧ (TxFrame.make 1 17 1 []).arbitration = 81
      ∧ (TxFrame.make 2 16 1 []).arbitration = 144 := by decide +kernel

/-- R144, R145: station 17's request loses to a console's command; a recessive level where it sent a dominant
one is a transmit error. -/
theorem test_attemptOutcome_field :
    attemptOutcome requesting (frameLine startTo17) = some .arbitrationLost
      ∧ attemptOutcome requesting (List.replicate 9 (plainBit true)) = some .transmitError
      ∧ attemptOutcome requesting ((frameLine requestOf17).take 9) = none := by decide +kernel

/-- R145, R146: two frames of one number that differ after the field are a transmit error to both, the same
frame twice is sent whole. -/
theorem test_attemptOutcome_after_field :
    let both (f : TxFrame) := overlayLines (frameLine requestOf17) (frameLine f)
    attemptOutcome requesting (both otherRequestOf17) = some .transmitError
      ∧ readback otherRequestOf17 (both otherRequestOf17) = some .transmitError
      ∧ attemptOutcome requesting (both requestOf17) = some .sentWhole := by decide +kernel

/-- R126, R137: the zero payload spells SETUP, so its height of 0 is no height. -/
theorem test_report_height_of_setup :
    (decodeReport 0).map (fun r => (r.mode, r.height, r.candidate)) = some (.setup, none, none) := by
  decide +kernel

/-- R200, R203: with stack depth 0 a maturity code of 2,047 is ignored, with depth 1 the report is not
entered. -/
theorem test_report_maturity_of_empty_stack :
    (decodeReport (encodeReport (gatherReport waiting) + 2047 * 2 ^ 105)).map Report.stack = some none
      ∧ decodeReport (encodeReport (gatherReport waiting) + 2 ^ 193 + 2047 * 2 ^ 105) = none := by
  decide +kernel

/-- R204: WAITING with 60 s, 0 items, result NONE with no mark, subject 0. -/
theorem test_setup_request_payload : (gatherRequest waiting).take 4 = [60, 0, 0, 0] := by
  decide +kernel

/-- R204: WINDOW with 50 s left, 255 items, result 0 with 2 marks. -/
theorem test_setup_request_window :
    (gatherRequest (window outOfRange [34, 36])).take 4 = [128 + 50, 255, 2, 0] := by decide +kernel

/-! ### The worked plans (section 2.11) -/

/-- The figures of section 2.11: a program of 150,000 and 450,000, the second segment held. -/
def slipRecord : SetupRecord :=
  ((((((((ringed.put 67 40).put 2 2).put 3 150000).put 4 450000).put 11 300).put 19 150).put 27 1).put
    35 60).put 36 250 |>.put 38 30 |>.put 39 400 |>.put 40 6000

/-- The four layers of section 3.9. -/
def slipLayers : List Layer :=
  [⟨211, 121800, 123900, 0, 95000, false⟩, ⟨212, 123900, 125900, 0, 70500, false⟩,
   ⟨213, 125900, 128100, 0, 41000, false⟩, ⟨214, 128100, 131200, 0, 9300, false⟩]

def slipPeers (low high : Nat) : List Peer :=
  (rosterNumbers 40 17).map fun n =>
    if n = 16 then heard 16 high 1 .idle
    else if n = 18 then heard 18 low 1 .idle
    else if n = 30 then heard 30 123300 1 .idle
    else State.resetPeer n

def slipChannels (a b c d : Nat) : PerChannel Channel :=
  (⟨a, b, c, d⟩ : PerChannel Nat).map fun h => { restCh with climbed := h }

/-- Station 17 as the first plan event of section 2.11 finds it. -/
def slip : State :=
  { climber slipRecord with
    plan.ramp := 2
    seq.chans := slipChannels 123470 123440 123455 123437
    seq.height := 123450
    stack := { layers := slipLayers, concreteTop := some 131200, nextSeq := 215, reckoning := false }
    feed.depth := some 4250
    peers := { records := slipPeers 123420 123480, dupMiss := 0, dupHeard := false,
               links := [16, 18] } }

/-- Section 2.11.1: LEVEL binds at 120. -/
theorem test_cycleTimerExpiry_first_plan :
    let t := after .cycleTimerExpiry slip
    (t.plan.last.rise, t.plan.last.cause, t.plan.last.targets, t.plan.ramp, t.seq.strokeCount)
      = (120, .level, ⟨100, 130, 115, 133⟩, 3, 1) := by decide +kernel

/-- Section 2.11.3: DECK leaves 8, below S_min. -/
theorem test_cycleTimerExpiry_third_plan :
    let s : State := { slip with
      seq.chans := slipChannels 123692 123692 123692 123692
      seq.height := 123692, plan.ramp := 4
      peers.records := slipPeers 123690 123700 }
    let p := (after .cycleTimerExpiry s).plan.last
    (p.rise, p.candidate, p.cause, p.belowMin, p.targets)
      = (0, some 8, .deck, true, ⟨0, 0, 0, 0⟩) := by decide +kernel

/-- Section 2.11.2: LEVEL and DECK tie at 139, here at a cycle completion. -/
theorem test_cycleCompletion_tie :
    let s : State := { slip with
      seq.cycleTimer := none, seq.expiryHeld := true, plan.ramp := 3
      seq.chans := slipChannels 123562 123561 123562 123561
      seq.height := 123561, feed.depth := some 4361
      peers.records := slipPeers 123550 123600 }
    let p := (after .cycleCompletion s).plan.last
    (p.rise, p.cause, p.targets) = (139, .level, ⟨138, 139, 138, 139⟩) := by decide +kernel

/-- Section 2.11.4: the paused plan keeps the ramp count and names HELD. -/
theorem test_cycleCompletion_paused :
    let s : State := { slip with
      ctl.mode := .paused, ctl.pause.operator := true
      seq.cycleTimer := none, seq.expiryHeld := true, plan.ramp := 4
      seq.chans := slipChannels 123692 123692 123692 123692
      seq.height := 123692
      peers.records := slipPeers 123690 123700 }
    let t := after .cycleCompletion s
    (t.plan.last.rise, t.plan.last.candidate, t.plan.last.cause, t.plan.last.belowMin, t.plan.ramp)
      = (0, some 8, .held, false, 4) := by decide +kernel

/-- The table of section 2.3. -/
theorem test_program_table :
    programLimit 300 100 300 = 250 ∧ programLimit 300 150 300 = 375 ∧ programLimit 300 37 300 = 92
      ∧ programLimit 300 0 300 = 0 ∧ programLimit 45 100 30 = 3 ∧ programLimit 160 75 120 = 40
      ∧ programLimit 600 150 900 = 2250 := by decide

/-! ### Channels (section 5.12) -/

/-- Section 5.12.1: channel 1 reads its target of 138. -/
theorem test_transducerReading_target :
    let s : State := { slip with seq.chans.ch1 := { extending with target := 138 } }
    let c := (after (.transducerReading .c1 (.value 138)) s).chan .c1
    (c.state, c.xPeak, c.pressureOpen, c.strokeTimer) = (.hold, 138, false, some 5200) := by
  decide +kernel

/-- Section 5.12.1, R107: channel 1, the last one moving, reads X_home, and T_blank of 3 s starts. -/
theorem test_transducerReading_home :
    let s : State := { slip with seq.chans.ch1 := retracting }
    ((after (.transducerReading .c1 (.value 20)) s).chan .c1).state = .rest
      ∧ (after (.transducerReading .c1 (.value 20)) s).feed.blankTimer = some (s.now + 3000)
      ∧ ((after (.transducerReading .c1 (.value 21)) s).chan .c1).state = .retract := by
  decide +kernel

/-- Section 5.12.1: channel 1 is credited 130 and H is 123,594. -/
theorem test_holdEnd_credit :
    let s : State := { slip with
      seq.height := 123561
      seq.chans := { slipChannels 123562 123561 123562 123561 with
        ch1 := { holding with climbed := 123562, xPeak := 140 } } }
    let t := after (.holdEnd .c1) s
    ((t.chan .c1).state, (t.chan .c1).climbed, t.seq.height) = (.retract, 123692, 123594) := by
  decide +kernel

/-- Section 3.9, step 1: a credit to 123,900 removes layer 211. -/
theorem test_holdEnd_removes_layer :
    let s : State := { slip with
      seq.height := 123850
      seq.chans := { slipChannels 123710 123900 123900 123900 with
        ch1 := { holding with climbed := 123710 } } }
    let t := after (.holdEnd .c1) s
    (t.seq.height, t.stack.layers.map Layer.seq, exitLimit t) = (123900, [212, 213, 214], 123900) := by
  decide +kernel

/-- R89: bank B starts once bank A is home. -/
theorem test_bankBStart :
    ((after .bankBStart banked).chan .c2).state = .extend
      ∧ ((after .bankBStart banked).chan .c4).state = .rest := by decide +kernel

/-- R82, R88: the pressure valve opens when T_dead has run, and T_ext of 20 s starts. -/
theorem test_deferredValveOpening :
    let c := (after (.deferredValveOpening .c1) delayed).chan .c1
    (c.pressureOpen, c.strokeTimer) = (true, some 25100) := by decide +kernel

/-- R90, R186: T_ext ends the extension and EXTEND TIMEOUT of class LATCH stops the station. -/
theorem test_tExtExpiry :
    let t := after (.tExtExpiry .c1) busy
    ((t.chan .c1).state, t.sup.latched, t.ctl.mode) = (.hold, [.extendTimeout .c1], .stopped) := by
  decide +kernel

/-- Section 10.12, event 1: RETRACT TIMEOUT latches, pulls the halt loop and cuts the extension of
channel 1. -/
theorem test_tRetExpiry :
    let t := after (.tRetExpiry .c3) busy
    (t.seq.chans.map Channel.state, t.sup.latched, t.sup.drive, t.ctl.mode)
      = (⟨.hold, .hold, .fault, .retract⟩, [.retractTimeout .c3], true, .stopped) := by
  decide +kernel

/-- R84: a blind retraction ends in FAULT under a latched TRANSDUCER. -/
theorem test_blindRetractionEnd :
    ((after (.blindRetractionEnd .c1) blindEnds).chan .c1).state = .fault
      ∧ ((after (.blindRetractionEnd .c3) blindEnds).chan .c3).state = .rest := by decide +kernel

/-- Section 5.12.3: the strokes cut by the inhibit are credited 54, 61, 56 and 60. -/
theorem test_inhibitAsserted_credits :
    let cut (h v : Nat) : Channel := { extending with climbed := h, x := some v, xPeak := v }
    let s : State := { slip with
      seq.chans := ⟨cut 123470 64, cut 123440 71, cut 123455 66, cut 123437 70⟩ }
    let t := after .inhibitAsserted s
    (t.seq.chans.map Channel.climbed, t.seq.chans.map Channel.state, t.ctl.mode,
        t.ctl.pause.faultHold)
      = (⟨123524, 123501, 123511, 123497⟩, ⟨.inhibited, .inhibited, .inhibited, .inhibited⟩,
        .paused, true) := by decide +kernel

/-- R100: at the release a jack above X_home retracts, one at it rests, an unread one retracts blind. -/
theorem test_inhibitReleased :
    (after .inhibitReleased held).seq.chans.map Channel.state = ⟨.rest, .rest, .retract, .retract⟩
      ∧ ((after .inhibitReleased held).chan .c4).blind = true := by decide +kernel

/-! ### The stack and the cure curve (sections 3.9, 4.4, 4.9) -/

/-- Section 3.9, steps 2 and 3. -/
def afterPlacement : State :=
  { slip with
    seq.chans := slipChannels 123900 123900 123900 123900
    seq.height := 123900
    stack := { layers := slipLayers.drop 1, concreteTop := some 131200, nextSeq := 215,
               reckoning := true } }

theorem test_probeSample_push :
    let t := after (.probeSample (.value 1600)) afterPlacement
    (t.stack.layers.map Layer.seq, t.stack.layers.map Layer.top, t.stack.nextSeq, fillLimit t)
      = ([212, 213, 214, 215], [125900, 128100, 131200, 134300], 216, 4400) := by decide +kernel

theorem test_probeSample_merge :
    let s : State := { afterPlacement with stack := { afterPlacement.stack with
      layers := slipLayers.drop 1 ++ [⟨215, 131200, 134300, 0, 1710, false⟩], nextSeq := 216 } }
    let t := after (.probeSample (.value 1150)) s
    (t.stack.layers.getLast?, t.stack.nextSeq)
      = (some ⟨215, 131200, 134750, 0, 0, false⟩, 216) := by decide +kernel

/-- The table of section 4.4 at the default curve. -/
theorem test_cure_table :
    [-150, -100, 3, 100, 225, 300, 450, 600, 800].map (cureRate alone)
      = [0, 0, 82, 160, 285, 360, 450, 540, 540] := by decide +kernel

/-- Section 4.9.1 with its trim of −13, on the crystal. -/
theorem test_cureSampleEvent_rate :
    let s : State := { slip with
      join.committed := some (slipRecord.put 44 (-13)), sup.onCrystal := true, sup.present := [] }
    let t := after (.cureSampleEvent (.value 238)) s
    (t.cure.inUse, t.cure.rate, t.cure.clock, t.stack.layers.map Layer.maturity)
      = (some 225, 285, 1, [95285, 70785, 41285, 9585]) := by decide +kernel

/-- Section 4.9.3, sample n + 4, and the derating of 285 to 270 in fallback at sample n + 3. -/
theorem test_cureSampleEvent_missed :
    let s (n : Nat) : State := { slip with
      join.committed := some (slipRecord.put 53 3), cure.lastTemp := some 225, cure.missed := n }
    let t := after (.cureSampleEvent .openCircuit) (s 3)
    let u := after (.cureSampleEvent .openCircuit) (s 2)
    (t.cure.inUse, t.cure.rate, t.isPresent .temperature) = (none, 0, true)
      ∧ (u.cure.inUse, u.cure.rate, u.isPresent .temperature) = (some 225, 270, false) := by
  decide +kernel

/-- R70, R71, R79: through a missed sample under a raised T_hold TEMPERATURE stays and no temperature stands
in, until a valid reading. -/
theorem test_cureSampleEvent_keeps_temperature :
    (after (.cureSampleEvent .openCircuit) chilled).isPresent .temperature = true
      ∧ (after (.cureSampleEvent .openCircuit) chilled).cure.inUse = none
      ∧ (after (.cureSampleEvent .openCircuit) chilled).cure.rate = 0
      ∧ (after (.cureSampleEvent (.value 238)) chilled).isPresent .temperature = false := by
  decide +kernel

/-! ### The feed (section 6.10) -/

/-- Station 17 with G_max 1 and D 3,420, settled, station 18 asking with 3,400. -/
def queueing (d : Nat) (f : FeedState) : State :=
  { slip with
    join.committed := some (slipRecord.put 66 1)
    peers.records := (rosterNumbers 40 17).map fun n =>
      if n = 16 then { heard 16 123480 1 f with deficit := some 990 }
      else if n = 18 then { heard 18 123420 1 .asking with deficit := some 3400 }
      else State.resetPeer n
    feed := { slip.feed with state := .asking, settled := true, depth := some d } }

/-- The report of station 16 at event 6: IDLE at 990. -/
def idleReport : BitVec 224 :=
  BitVec.ofNat 224 (encodeReport { gatherReport slip with
    feed := .idle, deficit := some 990, height := some 123480 })

/-- Event 7: station 17 admits itself. -/
theorem test_report_admits :
    (after (.report 16 idleReport) (queueing 3420 .opened)).feed.state = .opened := by decide +kernel

/-- Section 10.1 and R130: a report under the own number trips the station. -/
theorem test_report_own_number :
    let t := after (.report 17 0) standing
    (t.sup.latched, t.sup.drive, t.ctl.mode) = ([.duplicateNumber], true, .stopped) := by
  decide +kernel

/-- Event 3: O is 1 and A is 1, so the station waits, settled. -/
theorem test_settleTimerExpiry_waits :
    let q := queueing 3120 .opened
    let s : State := { q with feed := { q.feed with settled := false, settleTimer := some 6000 } }
    let t := after .settleTimerExpiry s
    (t.feed.state, t.feed.settled, t.now) = (.asking, true, 6000) := by decide +kernel

/-- R119: the feed timer closes the gate with FEED TIMEOUT and a reckoning pending. -/
theorem test_feedTimerExpiry :
    let t := after .feedTimerExpiry opened
    (t.feed.gate, t.feed.state, t.isPresent .feedTimeout, t.stack.reckoning, t.feed.blankTimer)
      = (false, .idle, true, true, some 12000) := by decide +kernel

theorem test_blankTimerExpiry :
    ((after .blankTimerExpiry blank).feed.blankTimer, (after .blankTimerExpiry blank).now)
      = (none, 6000) := by decide +kernel

/-- R130, R203: one whose payload holds values that R202 does not give trips it as well. -/
theorem test_report_own_number_malformed :
    (after (.report 17 (BitVec.allOnes 224)) standing).sup.latched = [.duplicateNumber] := by
  decide +kernel

/-- R171: the latch and the change of mode that it brings are two changes, each with its rewrite. -/
theorem test_report_own_number_rewrites_twice :
    let t := after (.report 17 0) standing
    (t.join.imageA.map Image.generation, t.join.imageB.map Image.generation)
      = (some 0, some 1) := by decide +kernel

/-! ### Deck commands (sections 1.8, 10.12) -/

/-- START is taken in STANDING over a layer: CLIMBING with the ramp at 0 and a plan due at once. -/
theorem test_start_taken :
    let t := after (.start 60 17 0) standing
    (t.ctl.mode, t.plan.ramp, t.seq.cycleTimer, t.ctl.refusal) = (.climbing, 0, some 5000, none) := by
  decide +kernel

/-- Section 1.8.1: START over an empty stack. -/
theorem test_start_stack_empty :
    let t := after (.start 60 0 0) bare
    (t.ctl.mode, t.ctl.refusal) = (.standing, some .stackEmpty) := by decide +kernel

theorem test_stop :
    let t := after (.stop 60 17 0) paused
    (t.ctl.mode, t.ctl.pause, t.seq.cycleTimer) = (.standing, .empty, none) := by decide +kernel

theorem test_pause :
    let t := after (.pause 60 17 0) climbing
    (t.ctl.mode, t.ctl.pause.operator, t.seq.cycleTimer) = (.paused, true, some 6000) := by
  decide +kernel

/-- Section 1.8.1: RESUME of a segment that is not waited at leaves no trace. -/
theorem test_resume_other_segment :
    let t := after (.resume 60 17 3) waitingThere
    (t.ctl.mode, t.ctl.pause.segment, t.ctl.released) = (.paused, some 2, []) := by decide +kernel

/-- Section 1.8.1: RESUME of the segment waited at. -/
theorem test_resume_segment :
    let t := after (.resume 60 17 2) waitingThere
    (t.ctl.mode, t.ctl.pause.segment, t.ctl.released, t.plan.ramp) = (.climbing, none, [2], 0) := by
  decide +kernel

/-- Section 1.8.2: CLEAR finds the loop released and the station stands again. -/
theorem test_clear_halt_loop :
    let t := after (.clear 60 0 0) cleared
    (t.ctl.mode, t.sup.latched, t.sup.haltCause) = (.standing, [], none) := by decide +kernel

/-- R103, R190: a CLEAR rests the jack at home, retracts the one above it and leaves channel 3 in FAULT. -/
theorem test_clear_frees_channels :
    let t := after (.clear 60 0 0) faulted
    (t.seq.chans.map Channel.state, t.sup.latched, t.sup.drive)
      = (⟨.rest, .retract, .fault, .fault⟩, [.transducer .c3], false) := by decide +kernel

/-- R190: a CLEAR that finds nothing latched and nothing to withdraw leaves STOPPED, with no report. -/
theorem test_clear_finds_nothing :
    let t := after (.clear 60 0 0) stoppedClear
    (t.ctl.mode, t.line.report) = (.stopped, .empty) := by decide +kernel

/-- R16: 49 ms does nothing, 50 ms clears. R187: a clear withdraws JACK SPREAD in STANDING, not in
PAUSED. -/
theorem test_localClear :
    (after (.localClear 49) cleared).ctl.mode = .stopped
      ∧ (after (.localClear 50) cleared).ctl.mode = .standing
      ∧ (after (.localClear 50) drawnApart).isPresent .jackSpread = false
      ∧ (after (.localClear 50) drawnPaused).isPresent .jackSpread = true := by decide +kernel

/-- R18: the rate scale is clamped to 150. -/
theorem test_rateScale : (after (.rateScale 60 17 200) standing).ctl.rateScale = 150 := by
  decide +kernel

/-- R19, R110: FEED HOLD closes an open gate, and is set off in STOPPED. -/
theorem test_feedHold :
    let t := after (.feedHold 60 17 1) opened
    (t.ctl.feedHold, t.feed.gate, t.feed.state) = (true, false, .idle)
      ∧ (after (.feedHold 60 17 0) (feedHeld (station alone .stopped))).ctl.feedHold = false := by
  decide +kernel

/-- Section 5.12.2: a halt loop from elsewhere cuts the extensions. -/
theorem test_haltLoopSensedAsserted :
    let t := after .haltLoopSensedAsserted stroking
    (t.ctl.mode, t.sup.haltCause, t.seq.chans.map Channel.state)
      = (.stopped, some .other, ⟨.hold, .hold, .rest, .retract⟩) := by decide +kernel

/-- Section 10.12, event 5: the release within the 2 s window unlatches HALT LOOP. -/
theorem test_haltLoopSensedReleased :
    let t := after .haltLoopSensedReleased halted
    (t.ctl.mode, t.sup.latched, t.sup.clearPending) = (.standing, [], false) := by decide +kernel

/-- Section 10.12.1: the mark lapses and HALT LOOP stays latched. -/
theorem test_clearPendingTimerExpiry :
    let t := after .clearPendingTimerExpiry halted
    (t.ctl.mode, t.sup.latched, t.sup.clearPending) = (.stopped, [.haltLoop], false) := by
  decide +kernel

/-- Section 1.8.2: a low supply during a pause. -/
theorem test_supplyLow :
    let t := after .supplyLow paused
    (t.ctl.mode, t.ctl.returnMode, t.ctl.pause.operator) = (.reduced, some .paused, true) := by
  decide +kernel

/-- R102: the recovery retracts the jacks above home and the unread ones. -/
theorem test_supplyRecovery :
    let t := after .supplyRecovery low
    (t.ctl.mode, t.seq.chans.map Channel.state) = (.standing, ⟨.rest, .rest, .retract, .retract⟩) := by
  decide +kernel

/-- R196: 10 s of the crystal end the fallback. -/
theorem test_crystalRunTimerExpiry :
    let t := after .crystalRunTimerExpiry running
    (t.sup.onCrystal, t.isPresent .clockFallback) = (true, false) := by decide +kernel

theorem test_crystalStopped :
    let t := after .crystalStopped onCrystal
    (t.sup.onCrystal, t.isPresent .clockFallback) = (false, true) := by decide +kernel

theorem test_crystalCycleSeen :
    (after .crystalCycleSeen standing).sup.crystalTimer = some 15000 := by decide +kernel

/-! ### The peer table and the line (sections 7.5, 8.9) -/

/-- The table of section 7.5: own number 17 on a roster of 40. -/
theorem test_link_table :
    let r := ringed.put 67 40
    linkList 17 r = [16, 18] ∧ linkList 17 (((r.put 71 13).put 72 24).put 73 31) = [16, 18, 31]
      ∧ linkList 17 ((((r.put 71 13).put 72 17).put 73 18).put 74 31) = [16, 13, 18, 31]
      ∧ linkList 17 ((r.put 71 16).put 72 17) = [16]
      ∧ linkList 17 ((r.put 70 0).put 73 18) = [18] ∧ linkList 17 (r.put 70 0) = [] := by
  decide +kernel

/-- R131: the fourth sweep without a report makes a neighbour SILENT, and NEIGHBOUR LOST is present. -/
theorem test_reportTimerExpiry_sweep :
    let t := after .reportTimerExpiry lost
    ((peerOf t 18).map fun p => (p.liveness, p.miss)) = some (.silent, 4)
      ∧ ((peerOf t 16).map fun p => (p.heard, p.miss)) = some (false, 0)
      ∧ t.isPresent .neighbourLost = true ∧ t.line.reportTimer = some 5500 := by decide +kernel

theorem test_lineIdle : (after .lineIdle barred).line.busyTimer = none := by decide +kernel

/-- R149: the busy-line timer runs 10 ms. -/
theorem test_lineNotIdle : (after .lineNotIdle ready).line.busyTimer = some 5010 := by decide +kernel

/-- R154: the report is taken, urgent, with 28 bytes; its first byte shows STANDING, IDLE (R202). -/
theorem test_attemptStart :
    let t := after .attemptStart ready
    (t.line.report, t.line.frame.map fun f => (f.priority, f.kind, f.payload.length, f.payload.head?))
      = (.sending .urgent none, some (1, 1, 28, some 0x30)) := by decide +kernel

/-- R155: a lost attempt is PENDING again with the lesser priority. -/
theorem test_arbitrationLost :
    (after .arbitrationLost reporting).line.report = .pending .urgent
      ∧ (after .arbitrationLost reporting).line.errors = 14 := by decide +kernel

/-- Section 8.9.2: the 16th failure mutes the station and pauses it. -/
theorem test_transmitError_mutes :
    let t := after .transmitError reportingLast
    (t.line.errors, t.line.muted, t.isPresent .line, t.ctl.mode, t.line.report)
      = (16, true, true, .paused, .pending .urgent) := by decide +kernel

/-- Section 8.9.1: after the urgent report the periodic follow-on is PENDING, and the count is 0. -/
theorem test_sentWhole :
    let s : State := { reporting with line.report := .sending .urgent (some .periodic) }
    let t := after .sentWhole s
    (t.line.report, t.line.errors) = (.pending .periodic, 0) := by decide +kernel

/-- Section 8.9.2: LINE outlasts the mute. -/
theorem test_muteTimerExpiry :
    let t := after .muteTimerExpiry onHold
    (t.line.muted, t.isPresent .line, t.line.errors) = (false, true, 16) := by decide +kernel

/-- R149: a line that stays busy counts an error and the timer starts again. -/
theorem test_busyLineTimerExpiry :
    let t := after .busyLineTimerExpiry barred
    (t.line.errors, t.line.busyTimer) = (15, some 5020) := by decide +kernel

theorem test_peerSetupRequest :
    (after (.peerSetupRequest 16 0) slip).body = slip.body := by decide +kernel

theorem test_frameDiscarded :
    (after (.frameDiscarded { startFrame with codeViolation := true }) slip).body = slip.body := by
  decide +kernel

/-! ### Setup, the join and the resets (section 9.7) -/

/-- Section 9.7.1: the first item opens the window of 60 s. -/
theorem test_setupData :
    let t := after (.setupData 61 17 61 12500) waiting
    (t.join.stage, t.join.windowTimer, t.join.staged.item 61, t.join.itemsReceived)
      = (.window, some 64000, 12500, 1) := by decide +kernel

/-- R206: D_call of 20,000 is marked; a negative value is read in two's complement. -/
theorem test_setupData_marks :
    ((after (.setupData 61 17 61 20000) waiting).join.marks.toList.getD 60 false) = true
      ∧ (after (.setupData 61 17 44 (BitVec.ofInt 32 (-13))) waiting).join.staged.item 44 = -13 := by
  decide +kernel

/-- Section 9.7.1: D_call of 12,500 passes its range and fails rule 3, FEED DEPTHS. -/
theorem test_setupCommit_refused :
    let r := ringed.put 61 12500
    (after (.setupCommit 61 17 (BitVec.ofNat 8 r.check)) (window r [])).join.lastCommit = .rule 3 := by
  decide +kernel

/-- Section 9.7.1: the join listen runs 2 s. -/
theorem test_setupCommit_good :
    let t := after (.setupCommit 61 17 (BitVec.ofNat 8 ringed.check)) (window ringed [])
    (t.ctl.mode, t.join.listenTimer, t.peers.links, t.join.requestTimer)
      = (.joining, some 12000, [16, 18], none) := by decide +kernel

/-- R164: the request timer runs 5 s. -/
theorem test_setupRequestTimerExpiry :
    (after .setupRequestTimerExpiry waiting).join.requestTimer = some 10000 := by decide +kernel

/-- R166: the window's end locks the station. -/
theorem test_windowExpiry :
    let t := after .windowExpiry (window alone [])
    (t.ctl.mode, t.join.stage, t.join.requestTimer) = (.locked, .closed, none) := by decide +kernel

/-- Section 9.7.2: the adoption. -/
theorem test_joinListenExpiry_adoption :
    let s := listening ringed ((rosterNumbers 18 17).map fun n =>
      if n = 16 then { heard 16 124310 1874 .idle with topMaturity := some 4 }
      else if n = 18 then { heard 18 124285 1869 .idle with topMaturity := some 2 }
      else State.resetPeer n) (some 2700)
    let t := after .joinListenExpiry { s with join.committed := some (ringed.put 3 600000) }
    (t.ctl.mode, t.seq.height, t.stack.concreteTop, t.seq.strokeCount, t.stack.layers)
      = (.standing, 124297, some 133597, 0, [⟨0, 124297, 133597, 0, 1200, true⟩]) := by
  decide +kernel

/-- R178: a fresh start stands at H_0. -/
theorem test_joinListenExpiry_fresh :
    let t := after .joinListenExpiry
      (listening alone ((rosterNumbers 18 17).map State.resetPeer) none)
    (t.ctl.mode, t.seq.height, t.join.state, t.sup.armed) = (.standing, 0, .done, true) := by
  decide +kernel

/-- R2, R162: a strap of 42 sets up under 42, one of 60 locks. -/
theorem test_powerOnReset :
    let t := after (.powerOnReset 42 false) standing
    let u := after (.powerOnReset 60 false) standing
    (t.ctl.mode, t.join.ownNumber, u.ctl.mode, u.join.ownNumber) = (.setup, 42, .locked, 0) := by
  decide +kernel

/-- R163, R172: without a valid image a brown-out takes the setup course. -/
theorem test_brownOutReset :
    let t := after (.brownOutReset 17 true false) waiting
    (t.ctl.mode, t.join.stage, t.isPresent .inhibit, t.line.report)
      = (.setup, .waiting, true, .pending .urgent) := by decide +kernel

/-! ### The pins (R207) -/

/-- 3.6 mA is read and less is open; 4 and 20 mA are the ends of x, 21 mA lies outside. -/
theorem test_transducerPin :
    [3599, 3600, 4000, 12000, 20000, 21000].map (transducerPin .c1)
      = ([.openCircuit, .value (-8), .value 0, .value 160, .value 320, .value 340] :
        List SensorReading).map (Instr.transducerReading .c1) := by decide

/-- The supply is LOW below 19.0 V and NORMAL again above 20.5 V; the loop is asserted below 2 V. -/
theorem test_supplyPin :
    ([190, 189].map (supplyPin standing), [205, 206].map (supplyPin low),
        [2000, 1999].map (haltLoopPin standing))
      = ([none, some .supplyLow], [none, some .supplyRecovery],
        [none, some .haltLoopSensedAsserted]) := by decide +kernel

/-! ### Steps without a command -/

/-- A due timer expires, in its moment. -/
theorem test_idle_step_takes_due_event :
    dueEvent { halted with now := 6500, cure.sampleTimer := none, line.reportTimer := none }
      = some .clearPendingTimerExpiry := by decide +kernel

/-- Nothing due: a millisecond passes. -/
theorem test_idle_step_passes_time :
    dueEvent State.reset = none ∧ (passTime State.reset).now = 1
      ∧ (passTime State.reset).line.busyTimer = some 11 := by decide +kernel

end Sys2Proof.Tests
end

section
/-! PROOFS. START (R4, R5, R13): what the close of a command leaves alone while channels and fault set stand,
availability read off the peer table, and the entry to CLIMBING from STANDING. -/

namespace Sys2Proof.Machine

/-! ### The close of a command that moves no channel and changes no fault -/

/-- Over a sound state's channels and presence marks no EXTEND TIMEOUT is left to end (R186). -/
theorem endExtendTimeouts_of_same {s t : State} (hs : Sound s) (hc : t.seq.chans = s.seq.chans)
    (hp : t.sup.present = s.sup.present) : endExtendTimeouts t = t := by
  obtain ⟨-, -, -, -, -, hover⟩ := hs.presence
  have keep : ∀ c ∈ t.sup.present, extendTimeoutOver t c = false := by
    intro c hmem
    cases c with
    | extendTimeout ch =>
      have same : extendTimeoutOver t (.extendTimeout ch)
          = extendTimeoutOver s (.extendTimeout ch) := by
        simp only [extendTimeoutOver, State.chan, hc]
      have present : s.isPresent (.extendTimeout ch) = true := by
        simpa [State.isPresent, ← hp] using hmem
      rw [same, ← Bool.not_eq_true]
      intro hend
      rw [hover ch (Ch.mem_all ch) hend] at present
      cases present
    | _ => rfl
  have all : t.sup.present.filter (fun c => !extendTimeoutOver t c) = t.sup.present :=
    List.filter_eq_self.mpr fun c hmem => by simp [keep c hmem]
  unfold endExtendTimeouts
  rw [all]

/-- Where a command leaves the channels and the supervisor of a sound state, its close adds nothing but the
busy-line timer. -/
theorem settled_of_same {s t : State} (hs : Sound s) (hc : t.seq.chans = s.seq.chans)
    (hp : t.sup = s.sup) :
    (settled s t).body = t.body ∧ (settled s t).line.report = t.line.report := by
  have ends : endExtendTimeouts t = t := endExtendTimeouts_of_same hs hc (by rw [hp])
  have moving : anyMoving t = anyMoving s := by simp only [anyMoving, hc]
  have latched : t.isLatched = s.isLatched := by
    funext c; simp only [State.isLatched, hp]
  have view : faultView t = faultView s := by
    simp only [faultView, State.isPresent, latched, hp]
  have blank : blankAfterMotion s t = t := by simp [blankAfterMotion, moving]
  have reported : reportFaults s t = t := by simp [reportFaults, view]
  obtain ⟨busy, hbusy, -⟩ := followBusyLine_cases t
  have closed : settled s t = { t with line.busyTimer := busy } := by
    simp only [settled, ends, blank, reported, hbusy]
  rw [closed]
  exact ⟨rfl, rfl⟩

/-! ### Availability read off the peer table -/

theorem rosterNumbers_nodup (roster own : Nat) : (rosterNumbers roster own).Nodup :=
  (List.nodup_range.map (add_left_injective 1)).filter _

/-- The table holds each number once (R125). -/
theorem peerOf_eq_some_iff {s : State} (hs : Sound s) (n : Nat) (p : Peer) :
    peerOf s n = some p ↔ p ∈ s.peers.records ∧ p.number = n := by
  obtain ⟨hnumbers, -⟩ := hs.peers
  have nodup : (s.peers.records.map Peer.number).Nodup := hnumbers ▸ rosterNumbers_nodup _ _
  constructor
  · intro h
    exact ⟨List.mem_of_find?_eq_some h, by simpa using List.find?_some h⟩
  · rintro ⟨hmem, hnum⟩
    cases hfind : peerOf s n with
    | none =>
      have absent := List.find?_eq_none.mp hfind p hmem
      simp [hnum] at absent
    | some q =>
      have hq : q.number = n := by simpa using List.find?_some hfind
      rw [List.inj_on_of_nodup_map nodup (List.mem_of_find?_eq_some hfind) hmem
        (hq.trans hnum.symm)]

/-- A number is available where its record is LIVE and carries a height (R135). -/
theorem available_iff {s : State} (hs : Sound s) (n : Nat) :
    available s n = true ↔ ∃ p ∈ s.peers.records,
      p.number = n ∧ p.liveness = .live ∧ p.height.isSome = true := by
  have read : available s n = true ↔ ∃ p, peerOf s n = some p ∧ p.liveness = .live
      ∧ p.height.isSome = true := by
    unfold available
    cases peerOf s n <;> simp
  simp only [read, peerOf_eq_some_iff hs, and_assoc]

theorem allAvailable_iff {s : State} (hs : Sound s) :
    allAvailable s = true ↔ ∀ n ∈ s.peers.links, ∃ p ∈ s.peers.records,
      p.number = n ∧ p.liveness = .live ∧ p.height.isSome = true := by
  simp only [allAvailable, List.all_eq_true, available_iff hs]

/-! ### The entry to CLIMBING from STANDING -/

/-- A station with an empty pause-cause set below the program top settles in CLIMBING, or in PAUSED with
the segment that waits (R10, R11). -/
theorem settle_climbing_empty {s : State} (h : atTop s = false) :
    settle .climbing .empty s
      = (if waitingSegment s = none then .climbing else .paused,
          ⟨false, false, false, waitingSegment s⟩) := by
  cases hw : waitingSegment s <;>
    simp [settle, Mode.works, Mode.climbs, h, addWaiting, PauseSet.empty, PauseSet.isEmpty, hw]

/-- Without a HOLD-class condition an entry from STANDING brings no pause cause of its own (R8). -/
theorem entryPause_climbing {s : State} (hh : s.holdPresent = false) :
    entryPause .climbing s = s.ctl.pause := by
  simp [entryPause, hh]

/-- A permission that stands, in a station that asks or feeds only under it, brings no change (R110). -/
theorem rejudgeFeed_of_same {was : Bool} {s : State} (hsame : feedAllowed s = was)
    (hg : s.feed.state ≠ .idle → feedAllowed s = true) : rejudgeFeed was s = s := by
  rcases rejudgeFeed_cases was s with
    ⟨-, -, h⟩ | ⟨ha, hw, -⟩ | ⟨-, -, h⟩ | ⟨ha, hf, -⟩ | ⟨ha, hf, -⟩
  · exact h
  · simp [ha, hw] at hsame
  · exact h
  · simp [hf, ha] at hg
  · simp [hf, ha] at hg

/-- The mode taken on from STANDING into CLIMBING or PAUSED: the first plan is due at once (R85), and there
is neither a return mode nor a SETUP REQUEST to drop. -/
theorem takeMode_body_of_standing {s : State} {m : Mode} (p : PauseSet) (hm : m.climbs = true)
    (hstand : s.ctl.mode = .standing) (hret : s.ctl.returnMode = none)
    (hreq : s.line.setupRequest ≠ .pending) :
    (takeMode m p s).body
      = { s with
          ctl.mode := m
          ctl.pause := p
          seq.cycleTimer := some s.now
          seq.expiryHeld := false }.body := by
  have setup : m ≠ .setup := by rintro rfl; cases hm
  have climbs : s.ctl.mode.climbs = false := by rw [hstand]; rfl
  have leave : s.line.setupRequest.leaveSetup = s.line.setupRequest := by
    cases hq : s.line.setupRequest <;> simp_all [SetupSlot.leaveSetup]
  simp [takeMode, State.body, keepChange, requestReport, hm, climbs, setup, leave, hret]

/-- The entry to CLIMBING from a mode that feeds, with an empty pause-cause set: the mode taken at ramp
count 0, and the feed permission as it was (R4, R11, R110). -/
theorem enterMode_climbing_eq {s : State} (hworks : s.ctl.mode.works = true)
    (hpause : s.ctl.pause = .empty) (hh : s.holdPresent = false) (htop : atTop s = false)
    (hg : s.feed.state ≠ .idle → feedAllowed s = true) :
    enterMode .climbing s
      = takeMode (if waitingSegment s = none then .climbing else .paused)
          ⟨false, false, false, waitingSegment s⟩ { s with plan.ramp := 0 } := by
  rw [enterMode_eq, entryPause_climbing hh, hpause, settle_climbing_empty htop, if_pos rfl]
  have works : (if waitingSegment s = none then Mode.climbing else .paused).works = true := by
    split <;> rfl
  have allowed : feedAllowed (takeMode (if waitingSegment s = none then .climbing else .paused)
      ⟨false, false, false, waitingSegment s⟩ { s with plan.ramp := 0 }) = feedAllowed s := by
    simp [feedAllowed, works, hworks]
  exact rejudgeFeed_of_same allowed fun h => allowed.trans (hg h)

/-- A sound station in STANDING has no pause cause, is below the program top, and holds neither a return mode
nor a PENDING SETUP REQUEST (R6, R11, R17, R153). -/
theorem Sound.of_standing {s : State} (hs : Sound s) (hstand : s.ctl.mode = .standing) :
    s.ctl.pause = .empty ∧ atTop s = false ∧ s.ctl.returnMode = none
      ∧ s.line.setupRequest ≠ .pending := by
  have heff : s.effectiveMode = .standing := by simp [State.effectiveMode, hstand]
  obtain ⟨hret, -⟩ := hs.mode
  obtain ⟨hpause, -⟩ := hs.pause
  obtain ⟨htop, -⟩ := hs.entry
  obtain ⟨-, -, -, hreq, -⟩ := hs.line
  refine ⟨hpause (by rw [heff]; rfl), htop (by rw [hstand]; rfl), ?_, ?_⟩
  · rw [hstand] at hret
    exact Option.isNone_iff_eq_none.mp (Option.isSome_eq_false_iff.mp hret)
  · intro hp
    cases heff.symm.trans (hreq hp)

/-- CLIMBING entered from STANDING without a HOLD-class condition, after the refusal cause was set to `r`:
the station climbs, or waits at a segment, with the feed as it was (R4, R11, R22, R85). -/
theorem enterMode_climbing_of_standing {s : State} (hs : Sound s) (hstand : s.ctl.mode = .standing)
    (hh : s.holdPresent = false) (r : Option RefusalCause) :
    let t := enterMode .climbing { s with ctl.refusal := r }
    t.body
        = { s with
            ctl := { s.ctl with
              mode := if waitingSegment s = none then .climbing else .paused
              pause := ⟨false, false, false, waitingSegment s⟩
              refusal := r }
            plan.ramp := 0
            seq.cycleTimer := some s.now
            seq.expiryHeld := false }.body
      ∧ t.line.report = s.line.report.request .urgent := by
  obtain ⟨hpause, htop, hret, hreq⟩ := hs.of_standing hstand
  obtain ⟨-, hgate, -⟩ := hs.gate
  have hclimbs : (if waitingSegment s = none then Mode.climbing else .paused).climbs = true := by
    split <;> rfl
  intro t
  have entered : t = _ := enterMode_climbing_eq (s := { s with ctl.refusal := r })
    (by rw [hstand]; rfl) hpause hh htop hgate
  rw [entered]
  exact ⟨takeMode_body_of_standing _ hclimbs hstand hret hreq, rfl⟩

/-! ### START -/

theorem startStation_notReady {s : State} (h : s.ctl.mode ∈ [.setup, .locked, .joining, .reduced]) :
    startStation s = refuseStart .notReady s := by
  simp only [List.mem_cons, List.not_mem_nil, or_false] at h
  rcases h with h | h | h | h <;> simp [startStation, h]

theorem startStation_idle {s : State} (h : s.ctl.mode ∈ [.climbing, .paused, .stopped, .topped]) :
    startStation s = s := by
  simp only [List.mem_cons, List.not_mem_nil, or_false] at h
  rcases h with h | h | h | h <;> simp [startStation, h]

theorem startStation_refused {s : State} {c : RefusalCause} (h : s.ctl.mode = .standing)
    (hc : startRefusal s = some c) : startStation s = refuseStart c s := by
  simp [startStation, h, hc]

theorem startStation_taken {s : State} (h : s.ctl.mode = .standing) (hc : startRefusal s = none) :
    startStation s = enterMode .climbing { s with ctl.refusal := none } := by
  simp [startStation, h, hc]

/-! The preconditions of START in their order (R4). -/

theorem startRefusal_neighbour {s : State} (ha : allAvailable s = false) :
    startRefusal s = some .neighbour := by simp [startRefusal, ha]

theorem startRefusal_fault {s : State} (ha : allAvailable s = true)
    (hf : s.sup.latched ≠ [] ∨ s.holdPresent = true) : startRefusal s = some .fault := by
  rcases hf with hf | hf <;> simp [startRefusal, State.noneLatched, ha, hf]

theorem startRefusal_stackEmpty {s : State} (ha : allAvailable s = true) (hl : s.sup.latched = [])
    (hh : s.holdPresent = false) (hk : s.stack.layers = []) :
    startRefusal s = some .stackEmpty := by
  simp [startRefusal, State.noneLatched, ha, hl, hh, hk]

theorem startRefusal_none {s : State} (ha : allAvailable s = true) (hl : s.sup.latched = [])
    (hh : s.holdPresent = false) (hk : s.stack.layers ≠ []) : startRefusal s = none := by
  simp [startRefusal, State.noneLatched, ha, hl, hh, hk]

/-- START answers what its block makes of the station, where that leaves channels and supervisor alone. -/
theorem exec_start_of_same {s t : State} (hs : Sound s) (sender : BitVec 6) (target argument : Byte)
    (ht : (if addressed s sender target then startStation s else s) = t)
    (hc : t.seq.chans = s.seq.chans) (hp : t.sup = s.sup) :
    ∃ u, exec (.start sender target argument) s = .next u ∧ u.body = t.body
      ∧ u.line.report = t.line.report :=
  ⟨settled s t, congrArg (fun t => Host.Outcome.next (settled s t)) ht, settled_of_same hs hc hp⟩

/-- Settles O53: START is ignored off its address and in the modes past it, refused by its first failing
precondition, and otherwise the entry to CLIMBING. -/
theorem startTakenOrRefused : Obligations.StartTakenOrRefused := by
  intro s sender target argument hs available refused ignored
  have havail : available ↔ allAvailable s = true := (allAvailable_iff hs).symm
  have ignore : (if addressed s sender target then startStation s else s) = s → ignored :=
    fun h => exec_start_of_same hs sender target argument h rfl rfl
  have refuse : ∀ c, addressed s sender target = true → startStation s = refuseStart c s →
      refused c := fun c ha h =>
    exec_start_of_same hs sender target argument ((if_pos ha).trans h) rfl rfl
  refine ⟨fun ha => ignore (by simp [ha]), fun ha => ⟨fun hm => ?_, fun hm => ?_, fun hm =>
    ⟨fun hn => ?_, fun hn hf => ?_, fun hn hl hh hk => ?_, fun hn hl hh hk => ?_⟩⟩⟩
  · exact refuse _ ha (startStation_notReady hm)
  · exact ignore (by simp [ha, startStation_idle hm])
  · have hlost : allAvailable s = false := Bool.eq_false_iff.mpr (mt havail.mpr hn)
    exact refuse _ ha (startStation_refused hm (startRefusal_neighbour hlost))
  · exact refuse _ ha (startStation_refused hm (startRefusal_fault (havail.mp hn) hf))
  · exact refuse _ ha (startStation_refused hm (startRefusal_stackEmpty (havail.mp hn) hl hh hk))
  · have taken := startStation_taken hm (startRefusal_none (havail.mp hn) hl hh hk)
    obtain ⟨t, hexec, hbody, hreport⟩ := exec_start_of_same hs sender target argument
      ((if_pos ha).trans taken) (enterMode_chans _ _) (enterMode_sup _ _)
    obtain ⟨ebody, ereport⟩ := enterMode_climbing_of_standing hs hm hh none
    exact ⟨t, hexec, hbody.trans ebody, hreport.trans ereport⟩

end Sys2Proof.Machine
end

section
/-! PROOFS. The rise computation (R27 to R40): each limit from its source, the segment that holds the
station height, and the plan that the least of the limits makes. -/

namespace Sys2Proof.Machine

/-! ### The limits present -/

/-- The value of the limit that a cause names, absent for the two causes that name no limit
(R28 to R36). -/
def limitOf (s : State) : LimitCause → Option Nat
  | .segment => some (segmentLimit s)
  | .level => levelLimit s (s.setup.segLead (currentSegment s.setup s.seq.height))
  | .deck => some (deckLimit s)
  | .exit => some (exitRise s)
  | .fill => some (fillLimit s)
  | .ramp => rampLimit s.setup.rampStep s.plan.ramp
  | .program => some (programLimit (s.setup.segRate (currentSegment s.setup s.seq.height))
      s.ctl.rateScale s.setup.cycleTime)
  | .strokeMax => some s.setup.strokeNominal
  | .none | .held => none

theorem mem_limits_iff {s : State} {c : LimitCause} {v : Nat} :
    (c, v) ∈ limits s ↔ limitOf s c = some v := by
  cases c <;> simp [limits, limitOf, eq_comm]

/-- A limit whose value is an integer expression, the clamp at 0 written out. -/
theorem mem_limits_iff_cast {s : State} {c : LimitCause} {w : Nat} {x : Int}
    (hl : limitOf s c = some w) (hx : (w : Int) = x) (v : Nat) :
    (c, v) ∈ limits s ↔ (v : Int) = x := by
  rw [mem_limits_iff, hl, Option.some.injEq, ← hx, Int.natCast_inj, eq_comm]

theorem optional_causes_sublist (c : LimitCause) (o : Option Nat) :
    ((o.toList.map fun v => (c, v)).map Prod.fst).Sublist [c] := by
  cases o <;> simp

/-- Only LEVEL and RAMP can be absent, and the limits present stand in the order of R40. -/
theorem limits_causes_sublist (s : State) :
    ((limits s).map Prod.fst).Sublist
      [.segment, .level, .deck, .exit, .fill, .ramp, .program, .strokeMax] := by
  simp only [limits, List.map_append]
  exact ((((List.Sublist.refl [.segment]).append (optional_causes_sublist .level _)).append
    (.refl [.deck, .exit, .fill])).append (optional_causes_sublist .ramp _)).append
    (.refl [.program, .strokeMax])

theorem strokeMax_mem_limits (s : State) : (.strokeMax, s.setup.strokeNominal) ∈ limits s :=
  mem_limits_iff.mpr rfl

/-! ### Each limit from its source -/

/-- PROGRAM rises with each of its three factors (R28). -/
theorem programLimit_mono {rate rate' scale scale' cycle cycle' : Nat} (hr : rate ≤ rate')
    (hs : scale ≤ scale') (hc : cycle ≤ cycle') :
    programLimit rate scale cycle ≤ programLimit rate' scale' cycle' :=
  Nat.div_le_div_right (Nat.mul_le_mul (Nat.div_le_div_right (Nat.mul_le_mul hr hs)) hc)

theorem rampLimit_eq_some_iff {step count v : Nat} :
    rampLimit step count = some v ↔ step ≠ 0 ∧ v = step * count := by
  unfold rampLimit; split <;> simp_all [eq_comm]

/-- An available neighbour has a record with a height (R135). -/
theorem exists_height_of_available {s : State} {n : Nat} (h : available s n = true) :
    ∃ p v, peerOf s n = some p ∧ p.height = some v := by
  unfold available at h
  cases hp : peerOf s n with
  | none => simp [hp] at h
  | some p =>
    have hv : p.liveness = .live ∧ p.height.isSome = true := by simpa [hp] using h
    exact ⟨p, p.height.get hv.2, rfl, (Option.some_get hv.2).symm⟩

/-- The floor of the linked heights stands while there are neighbours and all are available (R136). -/
theorem linkedFloor_isSome {s : State} (hl : s.peers.links ≠ []) (ha : allAvailable s = true) :
    (linkedFloor s).isSome = true := by
  obtain ⟨n, hn⟩ := List.exists_mem_of_ne_nil _ hl
  have hav : available s n = true := List.all_eq_true.mp ha n hn
  obtain ⟨p, v, hp, hv⟩ := exists_height_of_available hav
  have hpeer : p ∈ availablePeers s :=
    List.mem_filterMap.mpr ⟨n, List.mem_filter.mpr ⟨hn, hav⟩, hp⟩
  exact List.isSome_min?_of_mem (List.mem_filterMap.mpr ⟨p, hpeer, hv⟩)

theorem levelLimit_unlinked {s : State} (h : s.peers.links = []) (lead : Nat) :
    levelLimit s lead = none := if_pos h

theorem levelLimit_linked {s : State} (h : s.peers.links ≠ []) (lead : Nat) :
    ∃ w, levelLimit s lead = some w ∧ (w : Int) = if allAvailable s = true then
      max 0 (((linkedHeights s).min?.getD 0 : Nat) + (lead : Int) - s.seq.height) else 0 := by
  unfold levelLimit
  rw [if_neg h]
  by_cases ha : allAvailable s = true
  · obtain ⟨floor, hf⟩ := Option.isSome_iff_exists.mp (linkedFloor_isSome h ha)
    have hmin : (linkedHeights s).min? = some floor := hf
    refine ⟨floor + lead - s.seq.height, by simp [ha, hf], ?_⟩
    rw [if_pos ha, hmin, Option.getD_some]
    omega
  · exact ⟨0, by simp [ha], by simp [ha]⟩

/-- The deck floor is the least of the station height and the live heights (R137). -/
theorem min?_height_liveHeights (s : State) :
    (s.seq.height :: liveHeights s).min? = some (deckFloor s) := List.min?_cons'

theorem deckFloor_mem (s : State) : deckFloor s = s.seq.height ∨ deckFloor s ∈ liveHeights s :=
  List.mem_cons.mp (List.min?_mem (min?_height_liveHeights s))

theorem deckFloor_le {s : State} {x : Nat} (h : x ∈ s.seq.height :: liveHeights s) :
    deckFloor s ≤ x := (List.min?_eq_some_iff.mp (min?_height_liveHeights s)).2 x h

theorem deckFloor_le_height (s : State) : deckFloor s ≤ s.seq.height :=
  deckFloor_le List.mem_cons_self

theorem deckLimit_cast (s : State) :
    (deckLimit s : Int) = max 0 ((deckFloor s : Int) + s.setup.deckSpread - s.seq.height) := by
  unfold deckLimit; omega

theorem deckLimit_le_spread (s : State) : deckLimit s ≤ s.setup.deckSpread := by
  have := deckFloor_le_height s
  unfold deckLimit; omega

theorem exitRise_cast (s : State) :
    (exitRise s : Int) = max 0 ((exitLimit s : Int) - s.seq.height) := by
  unfold exitRise; omega

/-- The mature run ends at the first layer below the threshold (R59). -/
theorem takeWhile_mature {p : Layer → Bool} {run rest : List Layer} (hrun : ∀ l ∈ run, p l = true)
    (hrest : ∀ l ∈ rest.head?, p l = false) : (run ++ rest).takeWhile p = run := by
  rw [List.takeWhile_append_of_pos hrun]
  cases rest with
  | nil => simp
  | cons l ls => simp [hrest l rfl]

theorem exitLimit_of_mature_run {s : State} {run rest : List Layer}
    (hls : s.stack.layers = run ++ rest) (hrun : ∀ l ∈ run, s.setup.exitUnits ≤ l.maturity)
    (hrest : ∀ l ∈ rest.head?, l.maturity < s.setup.exitUnits) :
    exitLimit s = (run.getLast?.map Layer.top).getD s.seq.height := by
  unfold exitLimit
  rw [hls, takeWhile_mature (fun l hl => decide_eq_true (hrun l hl))
    fun l hl => decide_eq_false (Nat.not_le.mpr (hrest l hl))]

theorem fillLimit_cast_of_top {s : State} {top : Nat} (hls : s.stack.layers ≠ [])
    (ht : s.stack.concreteTop = some top) :
    (fillLimit s : Int) = max 0 ((top : Int) - s.setup.concreteMin - s.seq.height) := by
  simp only [fillLimit, if_neg hls, ht]; omega

theorem fillLimit_of_no_top {s : State} (ht : s.stack.concreteTop = none) : fillLimit s = 0 := by
  simp [fillLimit, ht]

theorem fillLimit_of_empty {s : State} (hls : s.stack.layers = []) : fillLimit s = 0 := if_pos hls

theorem segmentLimit_cast_of_held {s : State} {start : Nat} (h : heldStart s = some start) :
    (segmentLimit s : Int)
      = max 0 (min ((start : Int) - s.seq.height) ((s.setup.programTop : Int) - s.seq.height)) := by
  simp only [segmentLimit, h]; omega

theorem segmentLimit_cast_of_free {s : State} (h : heldStart s = none) :
    (segmentLimit s : Int) = max 0 ((s.setup.programTop : Int) - s.seq.height) := by
  simp only [segmentLimit, h]; omega

/-! ### The held start (R35) -/

/-- In a rising list the first hit is the least one. -/
theorem find?_eq_some_iff_least {p : Nat → Bool} {l : List Nat} (hl : l.Pairwise (· < ·))
    (n : Nat) : l.find? p = some n ↔ n ∈ l ∧ p n = true ∧ ∀ m ∈ l, m < n → p m = false := by
  induction l with
  | nil => simp
  | cons a rest ih =>
    obtain ⟨ha, hrest⟩ := List.pairwise_cons.mp hl
    cases hp : p a with
    | true =>
      have hit : (a :: rest).find? p = some a := List.find?_cons_of_pos hp
      grind
    | false =>
      have pass : (a :: rest).find? p = rest.find? p := List.find?_cons_of_neg (by simp [hp])
      grind

theorem heldStart_eq_some_iff {s : State} {start : Nat} :
    heldStart s = some start ↔
      ∃ n ∈ [2, 3, 4, 5, 6, 7, 8],
        (n ≤ s.setup.segCount ∧ s.setup.segHold n = true ∧ n ∉ s.ctl.released)
          ∧ start = s.setup.segStart n
          ∧ ∀ m ∈ [2, 3, 4, 5, 6, 7, 8], m < n →
            ¬(m ≤ s.setup.segCount ∧ s.setup.segHold m = true ∧ m ∉ s.ctl.released) := by
  have rising : [2, 3, 4, 5, 6, 7, 8].Pairwise (fun a b : Nat => a < b) := by decide
  simp only [heldStart, SetupRecord.heldSegments, List.find?_filter, Option.map_eq_some_iff,
    find?_eq_some_iff_least rising, decide_eq_true_eq, decide_eq_false_iff_not, unreleased,
    Bool.and_eq_true, Bool.not_eq_true', List.contains_eq_mem, and_assoc]
  exact ⟨fun ⟨n, hn, hc, hh, hr, hleast, e⟩ => ⟨n, hn, hc, hh, hr, e.symm, hleast⟩,
    fun ⟨n, hn, hc, hh, hr, e, hleast⟩ => ⟨n, hn, hc, hh, hr, hleast, e.symm⟩⟩

/-! ### The current segment (R26, R27) -/

theorem segStart_succ (r : SetupRecord) {k : Nat} (hk : 1 ≤ k) :
    r.segStart (k + 1) = r.segStart k + r.segLen k := by
  obtain ⟨j, rfl⟩ := Nat.exists_eq_add_of_le' hk
  simp only [SetupRecord.segStart, Nat.add_sub_cancel, List.sum_range_succ, ← Nat.add_assoc]

/-- The segments 1 to `n` leave no gap between the program start and the end of segment `n`. -/
theorem exists_segment_at {r : SetupRecord} {h : Nat} (hlo : r.programStart ≤ h) (n : Nat)
    (hhi : h < r.segStart (n + 1)) :
    ∃ k, 1 ≤ k ∧ k ≤ n ∧ r.segStart k ≤ h ∧ h < r.segStart k + r.segLen k := by
  induction n with
  | zero => exact absurd hhi (Nat.not_lt.mpr hlo)
  | succ n ih =>
    by_cases below : h < r.segStart (n + 1)
    · obtain ⟨k, h1, hn, hk⟩ := ih below
      exact ⟨k, h1, Nat.le_succ_of_le hn, hk⟩
    · exact ⟨n + 1, Nat.succ_pos n, le_rfl, Nat.not_lt.mp below,
        segStart_succ r (Nat.succ_pos n) ▸ hhi⟩

theorem currentSegment_below {r : SetupRecord} {h : Nat} (hlo : h < r.programStart) :
    currentSegment r h = 1 := if_pos hlo

theorem currentSegment_holds {r : SetupRecord} {h : Nat} (hlo : r.programStart ≤ h)
    (hhi : h < r.programTop) :
    1 ≤ currentSegment r h ∧ currentSegment r h ≤ r.segCount
      ∧ r.segStart (currentSegment r h) ≤ h
      ∧ h < r.segStart (currentSegment r h) + r.segLen (currentSegment r h) := by
  obtain ⟨j, h1, hn, hj⟩ := exists_segment_at hlo r.segCount hhi
  unfold currentSegment
  rw [if_neg (Nat.not_lt.mpr hlo)]
  cases hfind : ((List.range r.segCount).map (· + 1)).find? fun k =>
      decide (r.segStart k ≤ h) && decide (h < r.segStart k + r.segLen k) with
  | none =>
    have hmem : j ∈ (List.range r.segCount).map (· + 1) :=
      List.mem_map.mpr ⟨j - 1, List.mem_range.mpr (by omega), by omega⟩
    have := List.find?_eq_none.mp hfind j hmem
    simp [hj] at this
  | some k =>
    obtain ⟨i, hi, rfl⟩ := List.mem_map.mp (List.mem_of_find?_eq_some hfind)
    have hi := List.mem_range.mp hi
    have hk := List.find?_some hfind
    simp only [Bool.and_eq_true, decide_eq_true_eq] at hk
    exact ⟨Nat.succ_pos i, hi, hk⟩

/-- Settles O22: each limit, the deck floor, the exit limit, the held start and the current segment by
the lemma that says where it comes from. -/
theorem limitsFromTheirSources : Obligations.LimitsFromTheirSources := by
  intro s r h k ls held
  refine ⟨mem_limits_iff.mpr rfl, fun _ _ _ => programLimit_mono, rfl,
    fun v => mem_limits_iff.trans rampLimit_eq_some_iff, fun v => ?level,
    mem_limits_iff_cast rfl (deckLimit_cast s), deckFloor_le_height s,
    fun x hx => deckFloor_le (List.mem_cons_of_mem _ hx), deckFloor_mem s, fun v hv => ?spread,
    mem_limits_iff_cast rfl (exitRise_cast s), fun run rest hls hrun hrest => ?exit,
    mem_limits_iff_cast rfl ?fill, mem_limits_iff_cast rfl ?segment,
    fun _ => heldStart_eq_some_iff, currentSegment_below, currentSegment_holds⟩
  case level =>
    by_cases hl : s.peers.links = []
    · have absent : limitOf s .level = none := levelLimit_unlinked hl _
      simp [ls, mem_limits_iff, absent, hl]
    · obtain ⟨w, hw, hv⟩ := levelLimit_linked hl (r.segLead k)
      have present : limitOf s .level = some w := hw
      exact (mem_limits_iff_cast present hv v).trans (iff_and_self.mpr fun _ => hl)
  case spread =>
    have hd : deckLimit s = v := Option.some.inj (mem_limits_iff.mp hv)
    exact hd ▸ deckLimit_le_spread s
  case exit =>
    rw [exitLimit_of_mature_run hls hrun hrest]
    cases run.getLast? <;> rfl
  case fill =>
    by_cases hls : s.stack.layers = []
    · simp [hls, fillLimit_of_empty hls]
    · cases ht : s.stack.concreteTop with
      | none => simp [fillLimit_of_no_top ht]
      | some top => exact (fillLimit_cast_of_top hls ht).trans (if_neg hls).symm
  case segment =>
    cases hh : heldStart s with
    | none => exact segmentLimit_cast_of_free hh
    | some start => exact segmentLimit_cast_of_held hh

/-! ### The candidate, the planned rise and the cause (R37 to R40) -/

/-- The candidate of a list of limits that holds one is the least of their values (R37). -/
theorem leastLimit_spec {ls : List (LimitCause × Nat)} {l₀ : LimitCause × Nat} (h : l₀ ∈ ls) :
    (∃ l ∈ ls, l.2 = leastLimit ls) ∧ ∀ l ∈ ls, leastLimit ls ≤ l.2 := by
  have values : l₀.2 ∈ ls.map Prod.snd := List.mem_map_of_mem h
  obtain ⟨v, hv⟩ := Option.isSome_iff_exists.mp (List.isSome_min?_of_mem values)
  have hleast : leastLimit ls = v := by rw [leastLimit, hv, Option.getD_some]
  obtain ⟨hmem, hle⟩ := List.min?_eq_some_iff.mp hv
  rw [hleast]
  exact ⟨List.mem_map.mp hmem, fun l hl => hle l.2 (List.mem_map_of_mem hl)⟩

/-- The cause is that of the first limit with the value (R40). -/
theorem bindingLimit_first {ls : List (LimitCause × Nat)} {v : Nat} (h : ∃ l ∈ ls, l.2 = v) :
    ∃ before after, ls = before ++ (bindingLimit ls v, v) :: after ∧ ∀ l ∈ before, l.2 ≠ v := by
  obtain ⟨l, hl, hv⟩ := h
  have hits : (ls.find? fun l => l.2 == v).isSome = true :=
    List.find?_isSome.mpr ⟨l, hl, by simp [hv]⟩
  obtain ⟨⟨c, w⟩, hfind⟩ := Option.isSome_iff_exists.mp hits
  obtain ⟨hw, before, after, hls, hbefore⟩ := List.find?_eq_some_iff_append.mp hfind
  have hw : w = v := by simpa using hw
  have hcause : bindingLimit ls v = c := by simp [bindingLimit, hfind]
  exact ⟨before, after, by rw [hcause, ← hw]; exact hls,
    fun l hl => by simpa using hbefore l hl⟩

theorem riseOf_of_le {m v : Nat} (h : m ≤ v) : riseOf m v = v := if_pos h

theorem riseOf_of_lt {m v : Nat} (h : v < m) : riseOf m v = 0 := if_neg (Nat.not_le.mpr h)

@[simp] theorem riseOf_zero (m : Nat) : riseOf m 0 = 0 := by
  unfold riseOf; split <;> rfl

theorem riseOf_le (m v : Nat) : riseOf m v ≤ v := by
  unfold riseOf; split
  · exact le_rfl
  · exact Nat.zero_le v

theorem riseOf_zero_or_ge (m v : Nat) : riseOf m v = 0 ∨ m ≤ riseOf m v := by
  unfold riseOf; split
  · next h => exact .inr h
  · exact .inl rfl

/-! ### The plan of a plan event -/

@[simp] theorem raiseRamp_ctl (s : State) : (raiseRamp s).ctl = s.ctl := by
  unfold raiseRamp; split <;> rfl

@[simp] theorem raiseRamp_join (s : State) : (raiseRamp s).join = s.join := by
  unfold raiseRamp; split <;> rfl

@[simp] theorem raiseRamp_setup (s : State) : (raiseRamp s).setup = s.setup := by
  simp [State.setup]

@[simp] theorem startStrokes_plan (s : State) : (startStrokes s).plan = s.plan := by
  unfold startStrokes; dsimp only
  split
  · split <;> simp
  · simp

/-- A plan event writes the plan made over the raised ramp count (R23, R29). -/
theorem planEvent_plan_last (s : State) : (planEvent s).plan.last = planOf (raiseRamp s) := by
  simp [planEvent]

@[simp] theorem planOf_candidate (s : State) :
    (planOf s).candidate = some (leastLimit (limits s)) := rfl

/-- A planned rise of 0 leaves every channel a target of 0 (R41). -/
theorem channelTarget_zero (r : SetupRecord) (height : Nat) (c : Channel) :
    channelTarget r height 0 c = 0 := if_pos (.inl rfl)

section
variable {s : State}

theorem planOf_climbing_rise (hm : s.ctl.mode = .climbing) :
    (planOf s).rise = riseOf s.setup.strokeMin (leastLimit (limits s)) := by simp [planOf, hm]

theorem planOf_climbing_cause (hm : s.ctl.mode = .climbing) :
    (planOf s).cause = bindingLimit (limits s) (leastLimit (limits s)) := by simp [planOf, hm]

theorem planOf_climbing_belowMin (hm : s.ctl.mode = .climbing) :
    (planOf s).belowMin = (decide (0 < leastLimit (limits s))
      && decide (leastLimit (limits s) < s.setup.strokeMin)) := by
  have free : (Mode.climbing == Mode.paused) = false := rfl
  simp [planOf, hm, free]

/-- In PAUSED the plan holds the station where it stands (R39). -/
theorem planOf_paused (hm : s.ctl.mode = .paused) :
    (planOf s).rise = 0 ∧ (planOf s).cause = .held ∧ (planOf s).belowMin = false
      ∧ (planOf s).targets = ⟨0, 0, 0, 0⟩ := by
  simp [planOf, hm, PerChannel.map, channelTarget_zero]

end

/-- Settles O21: the candidate is the least limit, and the minimum-stroke rule splits it at S_min
and 0. -/
theorem planChoosesRise : Obligations.PlanChoosesRise := by
  intro s _ ls p
  have plan : p = planOf (raiseRamp s) := planEvent_plan_last s
  have hmax : (.strokeMax, s.setup.strokeNominal) ∈ ls :=
    raiseRamp_setup s ▸ strokeMax_mem_limits (raiseRamp s)
  obtain ⟨attained, least⟩ := leastLimit_spec hmax
  have hnom : leastLimit ls ≤ s.setup.strokeNominal := least _ hmax
  refine ⟨limits_causes_sublist _, hmax, leastLimit ls, by rw [plan, planOf_candidate], attained,
    least, hnom, fun hm => ?climbing, fun hm => ?paused⟩
  case paused => exact plan ▸ planOf_paused (by rwa [raiseRamp_ctl])
  case climbing =>
    have climbs : (raiseRamp s).ctl.mode = .climbing := by rwa [raiseRamp_ctl]
    have hrise : p.rise = riseOf s.setup.strokeMin (leastLimit ls) := by
      rw [plan, planOf_climbing_rise climbs, raiseRamp_setup]
    have hcause : p.cause = bindingLimit ls (leastLimit ls) := by
      rw [plan, planOf_climbing_cause climbs]
    have hmin : p.belowMin
        = (decide (0 < leastLimit ls) && decide (leastLimit ls < s.setup.strokeMin)) := by
      rw [plan, planOf_climbing_belowMin climbs, raiseRamp_setup]
    have rise_le : p.rise ≤ leastLimit ls := hrise ▸ riseOf_le _ _
    refine ⟨fun hge => ⟨hrise.trans (riseOf_of_le hge), ?_⟩, fun hzero => ⟨?_, ?_⟩,
      fun hpos hlt => ⟨hrise.trans (riseOf_of_lt hlt), ?_⟩, ?_,
      fun l hl => rise_le.trans (least l hl), hcause ▸ bindingLimit_first attained⟩
    · rw [hmin, decide_eq_false (Nat.not_lt.mpr hge), Bool.and_false]
    · exact Nat.le_zero.mp (hzero ▸ rise_le)
    · rw [hmin, hzero]; rfl
    · rw [hmin, decide_eq_true hpos, decide_eq_true hlt]; rfl
    · exact (hrise ▸ riseOf_zero_or_ge _ _ : p.rise = 0 ∨ s.setup.strokeMin ≤ p.rise).imp_right
        fun hge => ⟨hge, rise_le.trans hnom⟩

end Sys2Proof.Machine
end

section
/-! PROOFS. The rate curve of a cure sample (R73 to R75): what a record that passed its commit says of the
curve's items, the three widths that the capped excess falls into, and the rate they make. -/

namespace Sys2Proof.Machine

/-! ### A record that passed its commit -/

/-- An item of a record in range lies between the bounds that R206 lists for it. -/
theorem item_bounds {r : SetupRecord} (hr : recordInRange r = true) {i : Nat} (hi : i < 87) :
    (itemSpec (i + 1)).lo ≤ r.item (i + 1) ∧ r.item (i + 1) ≤ (itemSpec (i + 1)).hi := by
  have inRange := List.all_eq_true.mp hr i (List.mem_range.mpr hi)
  simp only [itemInRange, Bool.and_eq_true, decide_eq_true_eq] at inRange
  exact inRange.1

/-- No cross-item rule fails on a record that a commit let through (R168). -/
theorem ruleHolds_of_failedRule_none {own : Nat} {r : SetupRecord} (h : failedRule own r = none)
    {n : Nat} (hn : n ∈ [1, 2, 3, 4, 5, 6, 7]) : ruleHolds own r n = true := by
  simpa using List.find?_eq_none.mp h n hn

section
variable {own : Nat} {r : SetupRecord}

theorem knee1_lt_knee2 (hr : GoodRecord own r) : r.knee1 < r.knee2 :=
  of_decide_eq_true (ruleHolds_of_failedRule_none hr.2 (n := 4) (by decide))

theorem datum_ge (hr : GoodRecord own r) : -300 ≤ r.datum :=
  (item_bounds hr.1 (i := 44) (by decide)).1

theorem tempCap_le (hr : GoodRecord own r) : r.tempCap ≤ 900 :=
  (item_bounds hr.1 (i := 45) (by decide)).2

theorem cureSegs_cases (hr : GoodRecord own r) :
    r.cureSegs = 1 ∨ r.cureSegs = 2 ∨ r.cureSegs = 3 := by
  have bounds : 1 ≤ r.item 47 ∧ r.item 47 ≤ 3 := item_bounds hr.1 (i := 46) (by decide)
  simp only [SetupRecord.cureSegs, SetupRecord.nat]
  omega

theorem slope1_bounds (hr : GoodRecord own r) : 0 ≤ r.slope1 ∧ r.slope1 ≤ 2000 :=
  item_bounds hr.1 (i := 49) (by decide)

theorem slope2_bounds (hr : GoodRecord own r) : 0 ≤ r.slope2 ∧ r.slope2 ≤ 2000 :=
  item_bounds hr.1 (i := 50) (by decide)

theorem slope3_bounds (hr : GoodRecord own r) : 0 ≤ r.slope3 ∧ r.slope3 ≤ 2000 :=
  item_bounds hr.1 (i := 51) (by decide)

end

/-! ### The three widths (R74, R75) -/

/-- The excess of a knee over the datum, 0 where it would be negative (R74). -/
def kneeExcess (r : SetupRecord) (knee : Int) : Int := max 0 (knee - r.datum)

def firstWidth (r : SetupRecord) (e : Int) : Int :=
  if r.cureSegs = 1 then e else min e (kneeExcess r r.knee1)

def secondWidth (r : SetupRecord) (e : Int) : Int :=
  if r.cureSegs = 1 then 0
  else if r.cureSegs = 2 then max 0 (e - kneeExcess r r.knee1)
  else max 0 (min e (kneeExcess r r.knee2) - kneeExcess r r.knee1)

def thirdWidth (r : SetupRecord) (e : Int) : Int :=
  if r.cureSegs = 3 then max 0 (e - kneeExcess r r.knee2) else 0

section
variable {r : SetupRecord}

theorem kneeExcess_nonneg (knee : Int) : 0 ≤ kneeExcess r knee := le_max_left ..

theorem kneeExcess_mono {k l : Int} (h : k ≤ l) : kneeExcess r k ≤ kneeExcess r l :=
  max_le_max_left 0 (sub_le_sub_right h _)

/-- The model's sum over the knees in use weighs the three widths by their slopes. -/
theorem curveSum_knees (hsegs : r.cureSegs = 1 ∨ r.cureSegs = 2 ∨ r.cureSegs = 3) (e : Int) :
    curveSum r e (knees r).1 (knees r).2
      = r.slope1 * firstWidth r e + r.slope2 * secondWidth r e + r.slope3 * thirdWidth r e := by
  obtain h | h | h := hsegs <;>
    simp [curveSum, knees, firstWidth, secondWidth, thirdWidth, kneeExcess, h]

theorem firstWidth_nonneg {e : Int} (he : 0 ≤ e) : 0 ≤ firstWidth r e := by
  unfold firstWidth
  split
  · exact he
  · exact le_min he (kneeExcess_nonneg _)

theorem secondWidth_nonneg (e : Int) : 0 ≤ secondWidth r e := by
  unfold secondWidth
  split
  · exact le_rfl
  · split <;> exact le_max_left ..

theorem thirdWidth_nonneg (e : Int) : 0 ≤ thirdWidth r e := by
  unfold thirdWidth
  split
  · exact le_max_left ..
  · exact le_rfl

/-- The widths share out the whole capped excess, whatever the number of segments. -/
theorem widths_sum (hsegs : r.cureSegs = 1 ∨ r.cureSegs = 2 ∨ r.cureSegs = 3)
    (hk : r.knee1 ≤ r.knee2) (e : Int) :
    firstWidth r e + secondWidth r e + thirdWidth r e = e := by
  have ordered : kneeExcess r r.knee1 ≤ kneeExcess r r.knee2 := kneeExcess_mono hk
  obtain h | h | h := hsegs
  · simp [firstWidth, secondWidth, thirdWidth, h]
  · have split : min e (kneeExcess r r.knee1) + max 0 (e - kneeExcess r r.knee1) = e := by omega
    simpa [firstWidth, secondWidth, thirdWidth, h] using split
  · have split : min e (kneeExcess r r.knee1)
        + max 0 (min e (kneeExcess r r.knee2) - kneeExcess r r.knee1)
        + max 0 (e - kneeExcess r r.knee2) = e := by omega
    simpa [firstWidth, secondWidth, thirdWidth, h] using split

end

/-- Weights of at most `m` on three shares of `e` give at most `m * e`. -/
theorem weighted_le {a b c m u v w e : Int} (ha : a ≤ m) (hb : b ≤ m) (hc : c ≤ m)
    (hu : 0 ≤ u) (hv : 0 ≤ v) (hw : 0 ≤ w) (he : u + v + w = e) :
    a * u + b * v + c * w ≤ m * e := by
  calc a * u + b * v + c * w ≤ m * u + m * v + m * w := by gcongr
    _ = m * e := by rw [← he]; ring

/-! ### The rate of a sample -/

section
variable {own : Nat} {r : SetupRecord} {t : Int}

theorem cureRate_of_le_datum (h : t - r.datum ≤ 0) : cureRate r t = 0 := if_pos (.inl h)

theorem cureRate_of_tempCap_le_datum (h : r.tempCap ≤ r.datum) : cureRate r t = 0 :=
  if_pos (.inr (min_le_of_right_le (sub_nonpos.mpr h)))

theorem cappedExcess_le (hr : GoodRecord own r) :
    min (t - r.datum) (r.tempCap - r.datum) ≤ 1200 := by
  have := datum_ge hr
  have := tempCap_le hr
  omega

/-- The weighted sum is 0 or more, so the rate of a sample above the datum loses nothing to the clamp
at 0. -/
theorem cureRate_eq (hr : GoodRecord own r) {e : Int}
    (he : e = min (t - r.datum) (r.tempCap - r.datum)) (ht : 0 < t - r.datum)
    (hcap : r.datum < r.tempCap) :
    (cureRate r t : Int) = (r.slope1 * firstWidth r e + r.slope2 * secondWidth r e
      + r.slope3 * thirdWidth r e) / 1000 := by
  have pos : 0 < e := by omega
  have hrate : cureRate r t = (curveSum r e (knees r).1 (knees r).2 / 1000).toNat := by
    rw [he]
    exact if_neg (not_or.mpr ⟨ht.not_ge, (he ▸ pos).not_ge⟩)
  have nonneg : 0 ≤ r.slope1 * firstWidth r e + r.slope2 * secondWidth r e
      + r.slope3 * thirdWidth r e :=
    add_nonneg (add_nonneg (mul_nonneg (slope1_bounds hr).1 (firstWidth_nonneg pos.le))
      (mul_nonneg (slope2_bounds hr).1 (secondWidth_nonneg e)))
      (mul_nonneg (slope3_bounds hr).1 (thirdWidth_nonneg e))
  rw [hrate, curveSum_knees (cureSegs_cases hr), Int.toNat_of_nonneg (by omega)]

/-- The greatest rate is the greatest capped excess at the greatest slope (R75). -/
theorem cureRate_le (hr : GoodRecord own r) (t : Int) : cureRate r t ≤ 2400 := by
  by_cases ht : t - r.datum ≤ 0
  · rw [cureRate_of_le_datum ht]; decide
  by_cases hcap : r.tempCap ≤ r.datum
  · rw [cureRate_of_tempCap_le_datum hcap]; decide
  have hrate := cureRate_eq hr rfl (not_le.mp ht) (not_le.mp hcap)
  have hexcess := cappedExcess_le hr (t := t)
  set e := min (t - r.datum) (r.tempCap - r.datum)
  have pos : 0 < e := by omega
  have hsum := weighted_le (slope1_bounds hr).2 (slope2_bounds hr).2 (slope3_bounds hr).2
    (firstWidth_nonneg pos.le) (secondWidth_nonneg e) (thirdWidth_nonneg e)
    (widths_sum (cureSegs_cases hr) (knee1_lt_knee2 hr).le e)
  omega

end

/-- Settles O31: the widths share out the capped excess, so the slopes' bound carries over to the
rate. -/
theorem cureRateCurve : Obligations.CureRateCurve := by
  intro own r temp hr e capped k1 k2 w1 w2 w3
  refine ⟨kneeExcess_mono (knee1_lt_knee2 hr).le, cappedExcess_le hr, cureSegs_cases hr,
    cureRate_of_le_datum, cureRate_of_tempCap_le_datum, fun he hcap => ?_, cureRate_le hr temp⟩
  have pos : 0 < capped := lt_min he (sub_pos.mpr hcap)
  exact ⟨firstWidth_nonneg pos.le, secondWidth_nonneg capped, thirdWidth_nonneg capped,
    cureRate_eq hr rfl he hcap⟩

end Sys2Proof.Machine
end

section
/-! PROOFS. The cross-item rules of a commit (R168): what each rule asks of the record, and which rule is
named where several fail. -/

namespace Sys2Proof.Machine

/-! ### Each rule by what it asks -/

section
variable {own : Nat} {r : SetupRecord}

/-- The range of CH_ACTIVE leaves out the empty mask, so rule CHANNELS repeats stage 2. -/
theorem channelMask_bounds (hr : recordInRange r = true) : 1 ≤ r.nat 54 ∧ r.nat 54 ≤ 15 := by
  have bounds : 1 ≤ r.item 54 ∧ r.item 54 ≤ 15 := item_bounds hr (i := 53) (by decide)
  simp only [SetupRecord.nat]
  omega

theorem exists_channel_of_mask : ∀ m < 16, m ≠ 0 → ∃ ch ∈ Ch.all, m.testBit ch.index = true := by
  decide

theorem exists_active (hr : recordInRange r = true) : ∃ ch ∈ Ch.all, r.active ch = true := by
  obtain ⟨hpos, hle⟩ := channelMask_bounds hr
  exact exists_channel_of_mask (r.nat 54) (by omega) (by omega)

theorem channelsRule_holds (hr : recordInRange r = true) : ruleHolds own r 1 = true :=
  bne_iff_ne.mpr (Nat.one_le_iff_ne_zero.mp (channelMask_bounds hr).1)

theorem programLengthRule_iff : ruleHolds own r 2 = true ↔ r.programTop ≤ 2000000 :=
  decide_eq_true_iff

theorem feedDepthsRule_iff :
    ruleHolds own r 3 = true ↔ r.depthFull < r.depthCall ∧ r.depthCall < r.formHeight := by
  simp [ruleHolds]

theorem cureKneesRule_iff : ruleHolds own r 4 = true ↔ r.knee1 < r.knee2 := decide_eq_true_iff

theorem rosterRule_iff : ruleHolds own r 5 = true ↔ own ≤ r.roster := decide_eq_true_iff

theorem linksRule_iff :
    ruleHolds own r 6 = true
      ↔ ∀ x ∈ [r.linkX1, r.linkX2], x ≠ 0 → x ≤ r.roster ∧ x ≠ own := by
  rw [List.forall_mem_cons, List.forall_mem_singleton]
  simp [ruleHolds, or_iff_not_imp_left]

theorem ringRule_iff :
    ruleHolds own r 7 = true
      ↔ (r.linkRing = true → r.ringFirst ≤ own ∧ own ≤ r.ringLast ∧ r.ringLast ≤ r.roster) := by
  cases hring : r.linkRing <;> simp [ruleHolds, hring, and_assoc]

end

/-! ### The first rule that fails -/

theorem mem_ruleOrder_iff {k : Nat} : k ∈ [1, 2, 3, 4, 5, 6, 7] ↔ 1 ≤ k ∧ k ≤ 7 := by
  simp only [List.mem_cons, List.not_mem_nil, or_false]
  omega

/-- The rules are tested in rising order, so the one named is the least that fails. -/
theorem failedRule_eq_some_iff {own : Nat} {r : SetupRecord} {k : Nat} :
    failedRule own r = some k ↔
      (1 ≤ k ∧ k ≤ 7) ∧ ruleHolds own r k = false
        ∧ ∀ j, 1 ≤ j → j < k → ruleHolds own r j = true := by
  have rising : [1, 2, 3, 4, 5, 6, 7].Pairwise (fun a b : Nat => a < b) := by decide
  simp only [failedRule, find?_eq_some_iff_least rising, mem_ruleOrder_iff, Bool.not_eq_true',
    Bool.not_eq_false']
  refine and_congr_right fun hk => and_congr_right fun _ => ?_
  exact ⟨fun h j hj hlt => h j ⟨hj, by omega⟩ hlt, fun h j hj hlt => h j hj.1 hlt⟩

theorem failedRule_eq_none_iff {own : Nat} {r : SetupRecord} :
    failedRule own r = none ↔ ∀ k, 1 ≤ k → k ≤ 7 → ruleHolds own r k = true :=
  ⟨fun h _ h1 h7 => ruleHolds_of_failedRule_none h (mem_ruleOrder_iff.mpr ⟨h1, h7⟩),
    fun h => List.find?_eq_none.mpr fun k hk => by
      obtain ⟨h1, h7⟩ := mem_ruleOrder_iff.mp hk
      simp [h k h1 h7]⟩

/-- Settles O51: rule by rule the model's test is the condition that R168 gives, and the first failure is
the least; CHANNELS never fails on a record in range. -/
theorem commitRules : Obligations.CommitRules := by
  intro own r hr holds
  have rule_iff : ∀ k, 1 ≤ k → k ≤ 7 → (ruleHolds own r k = true ↔ holds k) := by
    intro k h1 h7
    interval_cases k
    · exact iff_of_true (channelsRule_holds hr) (exists_active hr)
    · exact programLengthRule_iff
    · exact feedDepthsRule_iff
    · exact cureKneesRule_iff
    · exact rosterRule_iff
    · exact linksRule_iff
    · exact ringRule_iff
  refine ⟨fun k hk => ?named, ?passed, rfl⟩
  case named =>
    obtain ⟨⟨h1, h7⟩, hfails, hbefore⟩ := failedRule_eq_some_iff.mp hk
    have not_first : k ≠ 1 := by
      rintro rfl
      exact ne_true_of_eq_false hfails (channelsRule_holds hr)
    exact ⟨by omega, h7, mt (rule_iff k h1 h7).mpr (ne_true_of_eq_false hfails),
      fun j hj hlt => (rule_iff j hj (by omega)).mp (hbefore j hj hlt)⟩
  case passed =>
    exact failedRule_eq_none_iff.trans
      (forall_congr' fun k => forall_congr' fun h1 => forall_congr' fun h7 => rule_iff k h1 h7)

end Sys2Proof.Machine
end

section
/-! PROOFS. The latched set, the halt drive and HALT LOOP (R181, R184, R190 to R193): the supervisor's own
laws by what happens to its entries, the modes in which nothing is latched, and that the operations on modes,
conditions and credits keep both. -/

namespace Sys2Proof.Machine

/-! ### The supervisor alone -/

/-- The part of `LatchLaw`, `DriveLaw` and `HaltLaw` that the supervisor's items and the committed record
decide by themselves. Besides it, the deck supervisions are armed only under a committed record (R185), which
the latch of an entry before a commit turns on. -/
structure SupervisorInOrder (o : Option SetupRecord) (p : Supervisor) : Prop where
  entries : LatchedSet (o.getD defaultRecord) p.latched
  uncommitted : o = none → ∀ c ∈ p.latched, c = .haltLoop ∨ c = .duplicateNumber
  pulls : p.drive = p.latched.any fun c => (o.getD defaultRecord).classOf c == .trip
  shows : p.present.contains .haltLoop = p.loopSensed
  holds : p.loopSensed = true → p.latched.contains .haltLoop = true
  caused : p.haltCause.isSome = p.latched.contains .haltLoop
  timed : p.clearTimer.isSome = p.clearPending
  awaits : p.clearPending = true → p.latched.contains .haltLoop = true
  arms : p.armed = true → o.isSome = true

/-- An entry joins the latched set: a TRIP-class one pulls, HALT LOOP takes its cause (R184, R191, R192). -/
def Supervisor.withEntry (r : SetupRecord) (c : Cond) (p : Supervisor) : Supervisor :=
  { p with
    latched := p.latched ++ [c]
    drive := p.drive || r.classOf c == .trip
    haltCause := if c = .haltLoop then some (if p.drive then .self else .other) else p.haltCause }

section
variable {o : Option SetupRecord} {p : Supervisor}

theorem SupervisorInOrder.withPresent (h : SupervisorInOrder o p) {cs : List Cond}
    (hc : cs.contains .haltLoop = p.present.contains .haltLoop) :
    SupervisorInOrder o { p with present := cs } :=
  { h with shows := hc.trans h.shows }

/-- A new entry of class LATCH or TRIP keeps the laws; before a commit it is one of the two that R185 lets
latch there. -/
theorem SupervisorInOrder.withEntry (h : SupervisorInOrder o p) {c : Cond}
    (hnew : p.latched.contains c = false)
    (hclass : (o.getD defaultRecord).classOf c = .latch ∨ (o.getD defaultRecord).classOf c = .trip)
    (hbefore : o = none → c = .haltLoop ∨ c = .duplicateNumber) :
    SupervisorInOrder o (p.withEntry (o.getD defaultRecord) c) := by
  obtain ⟨nodup, classes⟩ := h.entries
  have fresh : c ∉ p.latched := by simpa using hnew
  have kept : p.latched.contains .haltLoop = true → (p.latched ++ [c]).contains .haltLoop = true := by
    simp +contextual
  exact
    { entries := ⟨List.nodup_append.mpr ⟨nodup, List.nodup_singleton c, by
        rintro a ha b hb rfl
        exact fresh (List.mem_singleton.mp hb ▸ ha)⟩, by
          intro e he
          rcases List.mem_append.mp he with he | he
          · exact classes e he
          · exact List.mem_singleton.mp he ▸ hclass⟩
      uncommitted := by
        intro ho e he
        rcases List.mem_append.mp he with he | he
        · exact h.uncommitted ho e he
        · exact List.mem_singleton.mp he ▸ hbefore ho
      pulls := by simp [Supervisor.withEntry, h.pulls]
      shows := h.shows
      holds := fun k => kept (h.holds k)
      caused := by
        have old := h.caused
        by_cases e : c = .haltLoop
        · simp [Supervisor.withEntry, e]
        · simpa [Supervisor.withEntry, e, Ne.symm e] using old
      timed := h.timed
      awaits := fun k => kept (h.awaits k)
      arms := h.arms }

/-- The loop sensed asserted, HALT LOOP present and latched (R192). -/
theorem SupervisorInOrder.loopAsserted (h : SupervisorInOrder o p)
    (hl : p.latched.contains .haltLoop = true) :
    SupervisorInOrder o { p with loopSensed := true, present := p.present ++ [.haltLoop] } :=
  { h with shows := by simp, holds := fun _ => hl }

/-- The loop sensed released and HALT LOOP absent; its entry stays (R193). -/
theorem SupervisorInOrder.loopReleased (h : SupervisorInOrder o p) :
    SupervisorInOrder o
      { p with loopSensed := false, present := p.present.filter (· != .haltLoop) } :=
  { h with shows := by simp, holds := nofun }

/-- Entries other than HALT LOOP leave the latched set and the drive follows what remains (R190). -/
theorem SupervisorInOrder.entriesLeave (h : SupervisorInOrder o p) {keep : Cond → Bool}
    (hk : keep .haltLoop = true) :
    SupervisorInOrder o
      { p with
        latched := p.latched.filter keep
        drive := (p.latched.filter keep).any fun c => (o.getD defaultRecord).classOf c == .trip } := by
  obtain ⟨nodup, classes⟩ := h.entries
  have same : (p.latched.filter keep).contains .haltLoop = p.latched.contains .haltLoop := by
    simp [hk]
  exact
    { h with
      entries := ⟨nodup.filter keep, fun c hc => classes c (List.mem_of_mem_filter hc)⟩
      uncommitted := fun ho c hc => h.uncommitted ho c (List.mem_of_mem_filter hc)
      pulls := rfl
      holds := fun k => same.trans (h.holds k)
      caused := h.caused.trans same.symm
      awaits := fun k => same.trans (h.awaits k) }

/-- HALT LOOP leaves the latched set once the loop is sensed released. It is of class LATCH, so that the drive
stays (R191, R193). -/
theorem SupervisorInOrder.haltLeaves (h : SupervisorInOrder o p) (hs : p.loopSensed = false) :
    SupervisorInOrder o
      { p with
        latched := p.latched.filter (· != .haltLoop)
        haltCause := none
        clearPending := false
        clearTimer := none } := by
  obtain ⟨nodup, classes⟩ := h.entries
  have trips : ∀ ls : List Cond,
      (ls.filter (· != .haltLoop)).any (fun c => (o.getD defaultRecord).classOf c == .trip)
        = ls.any fun c => (o.getD defaultRecord).classOf c == .trip := by
    intro ls
    rw [List.any_filter]
    congr 1
    funext c
    cases c <;> simp [SetupRecord.classOf]
  exact
    { h with
      entries := ⟨nodup.filter _, fun c hc => classes c (List.mem_of_mem_filter hc)⟩
      uncommitted := fun ho c hc => h.uncommitted ho c (List.mem_of_mem_filter hc)
      pulls := h.pulls.trans (trips p.latched).symm
      holds := fun k => absurd k (by simp [hs])
      caused := by simp
      timed := rfl
      awaits := nofun }

/-- A commit leaves the class of the two entries that can be latched before it (R181). -/
theorem SupervisorInOrder.commit (h : SupervisorInOrder none p) (r : SetupRecord) :
    SupervisorInOrder (some r) p := by
  have class_eq : ∀ c ∈ p.latched, r.classOf c = defaultRecord.classOf c := by
    intro c hc
    rcases h.uncommitted rfl c hc with rfl | rfl <;> rfl
  obtain ⟨nodup, classes⟩ := h.entries
  exact
    { h with
      entries := ⟨nodup, fun c hc => by simpa [class_eq c hc] using classes c hc⟩
      uncommitted := nofun
      pulls := h.pulls.trans (by
        rw [Bool.eq_iff_iff, List.any_eq_true, List.any_eq_true]
        exact exists_congr fun c => and_congr_right fun hc => by simp [class_eq c hc])
      arms := fun _ => rfl }

end

/-! ### What a latch does to the supervisor and to the mode -/

theorem Aside.committed {s t : State} (h : Aside s t) : t.join.committed = s.join.committed := by
  obtain ⟨a, b, hj⟩ := h.join
  rw [hj]

theorem effectiveMode_of_ctl {s t : State} (h : t.ctl = s.ctl) : t.effectiveMode = s.effectiveMode := by
  simp only [State.effectiveMode, h]

theorem effectiveMode_of_ne_reduced {s : State} (h : s.ctl.mode ≠ .reduced) :
    s.effectiveMode = s.ctl.mode := by
  unfold State.effectiveMode
  split
  · exact absurd ‹_› h
  · rfl

theorem effectiveMode_of_reduced {s : State} (h : s.ctl.mode = .reduced) :
    s.effectiveMode = s.ctl.returnMode.getD .reduced := by
  simp [State.effectiveMode, h]

theorem Mode.ne_reduced_of_works {m : Mode} (h : m.works = true) : m ≠ .reduced := by
  rintro rfl
  cases h

theorem Mode.works_of_climbs {m : Mode} (h : m.climbs = true) : m.works = true := by
  revert h
  cases m <;> decide

/-- An entry leads to a working mode only where it is made to one: the entry checks lead on to PAUSED from
CLIMBING alone, and to TOPPED (R11). -/
theorem works_of_enterMode_works {m : Mode} {s : State}
    (h : (enterMode m s).effectiveMode.works = true) : m.works = true := by
  have mode : (enterMode m s).effectiveMode = (settle m (entryPause m s) s).1 := by
    by_cases k : (enterMode m s).ctl.mode = .reduced
    · rw [effectiveMode_of_reduced k, enterMode_returnMode, ← enterMode_mode, k]; rfl
    · rw [effectiveMode_of_ne_reduced k, enterMode_mode]
  rw [mode] at h
  rcases settle_cases m (entryPause m s) s with ⟨-, -, e⟩ | ⟨-, -, -, e⟩ | ⟨hm, -, -, e⟩ | ⟨-, -, e⟩ <;>
    rw [e] at h
  · cases h
  · exact h
  · exact Mode.works_of_climbs hm
  · exact h

/-- No station works after a latch (R15, R17). -/
theorem latchMode_works (s : State) : (latchMode s).effectiveMode.works = false := by
  rcases latchMode_cases s with ⟨-, h⟩ | ⟨hm, -, h⟩ | ⟨hm, hr, h⟩ <;> rw [h]
  · rw [← Bool.not_eq_true]
    intro k
    cases works_of_enterMode_works k
  · rw [effectiveMode_of_reduced (by exact hm)]; rfl
  · by_cases k : s.ctl.mode = .reduced
    · rw [effectiveMode_of_reduced k]
      exact hr.resolve_left (not_not_intro k)
    · rw [effectiveMode_of_ne_reduced k]
      exact hm

@[simp] theorem pullForTrip_ctl (c : Cond) (s : State) : (pullForTrip c s).ctl = s.ctl := by
  rcases pullForTrip_cases c s with ⟨-, h⟩ | ⟨-, h⟩ <;> rw [h]

theorem pullForTrip_sup (c : Cond) (s : State) :
    (pullForTrip c s).sup = { s.sup with drive := s.sup.drive || s.classOf c == .trip } := by
  rcases pullForTrip_cases c s with ⟨k, h⟩ | ⟨k, h⟩ <;> rw [h]
  · simp [k]
  · rw [beq_eq_false_iff_ne.mpr k, Bool.or_false]

theorem latch_sup (c : Cond) (s : State) :
    (latch c s).sup = if s.isLatched c = true then s.sup else s.sup.withEntry s.setup c := by
  rcases latch_cases c s with ⟨hc, h⟩ | ⟨hc, h⟩ <;> rw [h]
  · rw [if_pos hc]
  · have a : Aside s (cutExtensions (latchMode (joinLatched c s))) :=
      (aside_joinLatched c s).trans ((aside_latchMode _).trans (aside_cutExtensions _))
    rw [keepChange_sup, pullForTrip_sup, a.classOf, cutExtensions_sup, latchMode_sup, hc]
    rfl

/-- A latch leaves nothing working: where its entry is new the mode follows, otherwise nothing changes. -/
theorem latch_works {c : Cond} {s : State}
    (hw : s.effectiveMode.works = true → s.sup.latched = []) :
    (latch c s).effectiveMode.works = true → (latch c s).sup.latched = [] := by
  rcases latch_cases c s with ⟨-, h⟩ | ⟨-, h⟩ <;> rw [h]
  · exact hw
  · intro k
    rw [effectiveMode_of_ctl (s := latchMode (joinLatched c s)) (by simp), latchMode_works] at k
    cases k

theorem lapseCond_sup (c : Cond) (s : State) :
    (lapseCond c s).sup = { s.sup with present := s.sup.present.filter (· != c) } := by
  rcases lapseCond_cases c s with ⟨hc, h⟩ | ⟨-, h⟩ <;> rw [h]
  · have absent : s.sup.present.filter (· != c) = s.sup.present :=
      List.filter_eq_self.mpr fun e he => by
        simp only [bne_iff_ne]
        rintro rfl
        simp [State.isPresent, he] at hc
    rw [absent]
  · rw [followHold_sup]

/-! ### The station's latches -/

/-- What every operation keeps of the latches: the supervisor's laws, nothing latched in a working mode (R6,
R15, R16), and a join only of a committed record (R169, R173). -/
structure LatchesInOrder (s : State) : Prop where
  faults : SupervisorInOrder s.join.committed s.sup
  idle : s.effectiveMode.works = true → s.sup.latched = []
  joins : s.join.state ≠ .none → s.join.committed.isSome = true

/-- The three laws of the obligation are these, with the two facts that JoinLaw adds. -/
theorem latchesInOrder_iff {s : State} :
    LatchesInOrder s ↔ (LatchLaw s ∧ DriveLaw s ∧ HaltLaw s)
      ∧ (s.sup.armed = true → s.join.committed.isSome = true)
      ∧ (s.join.state ≠ .none → s.join.committed.isSome = true) := by
  constructor
  · rintro ⟨h, idle, joins⟩
    exact ⟨⟨⟨idle, h.entries, h.uncommitted⟩, h.pulls, h.shows, h.holds, h.caused, h.timed, h.awaits⟩,
      h.arms, joins⟩
  · rintro ⟨⟨⟨idle, entries, uncommitted⟩, pulls, shows, holds, caused, timed, awaits⟩, arms, joins⟩
    exact ⟨⟨entries, uncommitted, pulls, shows, holds, caused, timed, awaits, arms⟩, idle, joins⟩

section
variable {s t : State}

/-- A change that leaves the supervisor, the mode, the committed record and the join state. -/
theorem LatchesInOrder.same (h : LatchesInOrder s) (hsup : t.sup = s.sup := by rfl)
    (hmode : t.effectiveMode = s.effectiveMode := by rfl)
    (hcom : t.join.committed = s.join.committed := by rfl)
    (hst : t.join.state = s.join.state := by rfl) : LatchesInOrder t :=
  ⟨hcom ▸ hsup ▸ h.faults, by rw [hmode, hsup]; exact h.idle,
    by rw [hst, hcom]; exact h.joins⟩

/-- A change of the mode that leaves the supervisor and the join. -/
theorem LatchesInOrder.moved (h : LatchesInOrder s) (ha : Aside s t) (hsup : t.sup = s.sup)
    (hw : t.effectiveMode.works = true → s.sup.latched = []) : LatchesInOrder t :=
  ⟨ha.committed ▸ hsup ▸ h.faults, hsup ▸ hw, by rw [ha.join_state, ha.committed]; exact h.joins⟩

theorem LatchesInOrder.none_of_works (h : LatchesInOrder s) (hm : s.ctl.mode.works = true) :
    s.sup.latched = [] :=
  h.idle (by rwa [effectiveMode_of_ne_reduced (Mode.ne_reduced_of_works hm)])

theorem inOrder_setPresent (h : LatchesInOrder s) {cs : List Cond}
    (hc : cs.contains .haltLoop = s.sup.present.contains .haltLoop) :
    LatchesInOrder { s with sup.present := cs } :=
  ⟨h.faults.withPresent hc, h.idle, h.joins⟩

/-! ### Modes, pauses and the feed permission -/

theorem inOrder_rejudgeFeed (h : LatchesInOrder s) (was : Bool) : LatchesInOrder (rejudgeFeed was s) :=
  h.same (rejudgeFeed_sup was s) (effectiveMode_of_ctl (rejudgeFeed_ctl was s))
    (aside_rejudgeFeed was s).committed (aside_rejudgeFeed was s).join_state

theorem inOrder_enterMode (h : LatchesInOrder s) {m : Mode}
    (hm : m.works = true → s.sup.latched = []) : LatchesInOrder (enterMode m s) :=
  h.moved (aside_enterMode m s) (enterMode_sup m s) fun k => hm (works_of_enterMode_works k)

theorem inOrder_addPause (h : LatchesInOrder s) (f : PauseSet → PauseSet) :
    LatchesInOrder (addPause f s) := by
  have paused : LatchesInOrder { s with ctl.pause := f s.ctl.pause } := h.same
  rcases addPause_cases f s with ⟨hm, e⟩ | ⟨-, e⟩ | ⟨-, -, e⟩ <;> rw [e]
  · exact inOrder_enterMode paused fun _ => h.none_of_works (by rw [hm]; rfl)
  · exact paused
  · exact h

theorem inOrder_dropPause (h : LatchesInOrder s) (f : PauseSet → PauseSet) :
    LatchesInOrder (dropPause f s) := by
  have dropped : LatchesInOrder { s with ctl.pause := f s.ctl.pause } := h.same
  rcases dropPause_cases f s with ⟨-, e⟩ | ⟨-, hm, -, e⟩ | ⟨-, -, e⟩ <;> rw [e]
  · exact h
  · exact inOrder_enterMode dropped fun _ => h.none_of_works (by rw [hm]; rfl)
  · exact dropped

theorem inOrder_followHold (h : LatchesInOrder s) (before : Bool) :
    LatchesInOrder (followHold before s) := by
  rcases followHold_cases before s with ⟨-, e⟩ | ⟨-, -, e⟩ | ⟨-, -, e⟩ <;> rw [e]
  · exact h
  · exact inOrder_dropPause h _
  · exact inOrder_addPause h _

theorem inOrder_checkRejoin (h : LatchesInOrder s) : LatchesInOrder (checkRejoin s) := by
  rcases checkRejoin_cases s with ⟨-, -, e⟩ | ⟨-, e⟩ <;> rw [e]
  · exact inOrder_dropPause h _
  · exact h

theorem inOrder_segmentCheck (h : LatchesInOrder s) : LatchesInOrder (segmentCheck s) := by
  rcases segmentCheck_cases s with ⟨-, -, -, e⟩ | ⟨-, e⟩ <;> rw [e]
  · exact inOrder_addPause h _
  · exact h

theorem inOrder_creditChecks (h : LatchesInOrder s) : LatchesInOrder (creditChecks s) := by
  rcases creditChecks_cases s with ⟨-, -, e⟩ | ⟨-, e⟩ <;> rw [e]
  · exact inOrder_enterMode h nofun
  · exact inOrder_segmentCheck h

/-! ### Conditions and latches -/

/-- A condition of one jack channel, which arises only under a committed record (R81, R105). -/
def Cond.ofChannel : Cond → Bool
  | .extendTimeout _ | .retractTimeout _ | .transducer _ => true
  | _ => false

/-- Before a commit the defaults are in force and the deck supervisions are not armed, so that only HALT LOOP
and DUPLICATE NUMBER latch, the channels' conditions apart (R181, R185). -/
theorem uncommitted_latching (h : LatchesInOrder s) {c : Cond} (hc : c.ofChannel = false)
    (hl : s.latching c = true) (ho : s.join.committed = none) : c = .haltLoop ∨ c = .duplicateNumber := by
  have unarmed : s.sup.armed = false := by
    rw [← Bool.not_eq_true]
    intro k
    simpa [ho] using h.faults.arms k
  have class_eq : s.classOf c = defaultRecord.classOf c := by simp [State.classOf, State.setup, ho]
  rw [State.latching, State.effective, class_eq, unarmed] at hl
  cases c with
  | haltLoop => exact .inl rfl
  | duplicateNumber => exact .inr rfl
  | extendTimeout _ | retractTimeout _ | transducer _ => cases hc
  | _ => exact absurd hl (by decide)

theorem inOrder_latch (h : LatchesInOrder s) {c : Cond} (hl : s.latching c = true)
    (hc : s.join.committed = none → c = .haltLoop ∨ c = .duplicateNumber) :
    LatchesInOrder (latch c s) := by
  have a := aside_latch c s
  refine ⟨?_, latch_works h.idle, by rw [a.join_state, a.committed]; exact h.joins⟩
  rw [a.committed, latch_sup]
  split
  · exact h.faults
  · rename_i hnew
    refine h.faults.withEntry (by simpa [State.isLatched] using hnew) ?_ hc
    simp only [State.latching, Bool.and_eq_true, Bool.or_eq_true, beq_iff_eq] at hl
    exact hl.1

theorem inOrder_raiseCond (h : LatchesInOrder s) {c : Cond} (hne : c ≠ .haltLoop)
    (hc : c.ofChannel = true → s.join.committed.isSome = true) : LatchesInOrder (raiseCond c s) := by
  have shown : LatchesInOrder { s with sup.present := s.sup.present ++ [c] } :=
    inOrder_setPresent h (by simp [Ne.symm hne])
  rcases raiseCond_cases c s with ⟨-, e⟩ | ⟨-, hl, e⟩ | ⟨-, -, e⟩ <;> rw [e]
  · exact h
  · refine inOrder_followHold (inOrder_latch shown hl fun (ho : s.join.committed = none) => ?_) _
    cases k : c.ofChannel
    · exact uncommitted_latching h k hl ho
    · exact absurd (hc k) (by simp [ho])
  · exact inOrder_followHold shown _

theorem inOrder_lapseCond (h : LatchesInOrder s) {c : Cond} (hne : c ≠ .haltLoop) :
    LatchesInOrder (lapseCond c s) := by
  rcases lapseCond_cases c s with ⟨-, e⟩ | ⟨-, e⟩ <;> rw [e]
  · exact h
  · exact inOrder_followHold (inOrder_setPresent h (by simp [Ne.symm hne])) _

theorem inOrder_judgeCond (h : LatchesInOrder s) {c : Cond} (hne : c ≠ .haltLoop)
    (hc : c.ofChannel = false) (present : Bool) : LatchesInOrder (judgeCond c present s) := by
  cases present
  · exact inOrder_lapseCond h hne
  · exact inOrder_raiseCond h hne (by simp [hc])

theorem inOrder_judgeTilt (h : LatchesInOrder s) : LatchesInOrder (judgeTilt s) :=
  inOrder_judgeCond h (by decide) rfl _

theorem inOrder_judgeSpread (h : LatchesInOrder s) : LatchesInOrder (judgeSpread s) :=
  inOrder_judgeCond h (by decide) rfl _

theorem inOrder_judgePeers (h : LatchesInOrder s) : LatchesInOrder (judgePeers s) :=
  inOrder_judgeCond (inOrder_judgeCond h (by decide) rfl _) (by decide) rfl _

/-! ### Credits -/

theorem inOrder_credit (h : LatchesInOrder s) (c : Ch) : LatchesInOrder (credit c s) := by
  have credited : LatchesInOrder (keepChange true (creditHeight c s)) := h.same
  rw [credit_eq]
  exact inOrder_judgeSpread (inOrder_judgeTilt (inOrder_creditChecks credited))

theorem inOrder_creditStrokes (h : LatchesInOrder s) (before : State) :
    LatchesInOrder (creditStrokes before s) := by
  unfold creditStrokes
  generalize Ch.all = chs
  induction chs generalizing s with
  | nil => exact h
  | cons c rest ih =>
    rw [List.foldl_cons]
    split
    · exact ih (inOrder_credit h c)
    · exact ih h

end

end Sys2Proof.Machine
end

section
/-! PROOFS. The operations of each family of commands keep the latches in order (R3, R6, R15, R16, R181, R184,
R190 to R193). -/

namespace Sys2Proof.Machine

section
variable {s t : State}

/-! ### The close of a command -/

theorem inOrder_settled (before : State) (h : LatchesInOrder t) : LatchesInOrder (settled before t) := by
  obtain ⟨busy, e⟩ := settled_spec before t
  have keeps : (t.sup.present.filter fun c => !extendTimeoutOver t c).contains .haltLoop
      = t.sup.present.contains .haltLoop := by simp [extendTimeoutOver]
  rw [e]
  exact (inOrder_setPresent h keeps).same

/-- A command that closes with `finish` keeps what its blocks keep. -/
theorem inOrder_finish {u : State} (he : finish s u = .next t) (h : LatchesInOrder u) :
    LatchesInOrder t := by
  rw [finish_eq] at he
  exact Host.Outcome.next.inj he ▸ inOrder_settled s h

theorem inOrder_ite {p : Prop} [Decidable p] {u : State} (ht : p → LatchesInOrder t)
    (hu : ¬p → LatchesInOrder u) : LatchesInOrder (if p then t else u) := by
  split
  · exact ht ‹_›
  · exact hu ‹_›

/-! ### Deck commands (chapter 1) -/

theorem inOrder_startStation (h : LatchesInOrder s) : LatchesInOrder (startStation s) := by
  cases hm : s.ctl.mode with
  | standing =>
    cases hc : startRefusal s with
    | some c =>
      rw [startStation_refused hm hc]
      exact h.same
    | none =>
      have begun : LatchesInOrder { s with ctl.refusal := none } := h.same
      rw [startStation_taken hm hc]
      exact inOrder_enterMode begun fun _ => h.none_of_works (by rw [hm]; rfl)
  | climbing | paused | stopped | topped =>
    rw [startStation_idle (by simp [hm])]
    exact h
  | setup | locked | joining | reduced =>
    rw [startStation_notReady (by simp [hm])]
    exact h.same

theorem inOrder_stopStation (h : LatchesInOrder s) : LatchesInOrder (stopStation s) :=
  inOrder_ite (fun hm => inOrder_enterMode h fun _ => h.none_of_works (Mode.works_of_climbs hm))
    fun _ => h

theorem inOrder_resumeStation (h : LatchesInOrder s) (k : Nat) : LatchesInOrder (resumeStation k s) := by
  have released : LatchesInOrder (releaseHeld k s) := h.same
  unfold resumeStation resumeSegment
  exact inOrder_ite (fun _ => h) fun _ => inOrder_ite (fun _ => inOrder_dropPause h _) fun _ =>
    inOrder_ite (fun _ => inOrder_ite
      (fun _ => inOrder_segmentCheck (inOrder_dropPause released _)) fun _ => h) fun _ => h

theorem inOrder_setRateScale (h : LatchesInOrder s) (p : Nat) : LatchesInOrder (setRateScale p s) :=
  inOrder_ite (fun _ => h.same) fun _ => h

theorem inOrder_setFeedHold (h : LatchesInOrder s) (a : Nat) : LatchesInOrder (setFeedHold a s) := by
  have held : LatchesInOrder { s with ctl.feedHold := a == 1 } := h.same
  exact inOrder_ite (fun _ => inOrder_rejudgeFeed held _) fun _ => h

/-! ### The cycle (chapters 2 and 5) -/

theorem inOrder_startStrokes (h : LatchesInOrder s) : LatchesInOrder (startStrokes s) :=
  inOrder_ite (fun _ => inOrder_ite (fun _ => h.same) fun _ => h.same) fun _ => h.same

theorem inOrder_planEvent (h : LatchesInOrder s) : LatchesInOrder (planEvent s) := by
  have ramped : LatchesInOrder (raiseRamp s) := inOrder_ite (fun _ => h.same) fun _ => h
  exact inOrder_startStrokes ramped.same

theorem inOrder_cycleExpiry (h : LatchesInOrder s) : LatchesInOrder (cycleExpiry s) :=
  inOrder_ite (fun _ => inOrder_planEvent h) fun _ => h.same

/-! ### Cure and feed (chapters 4 and 6) -/

theorem inOrder_judgeTemperature (h : LatchesInOrder s) (valid : Bool) :
    LatchesInOrder (judgeTemperature valid s) :=
  inOrder_ite (fun _ => inOrder_lapseCond h (by decide)) fun _ =>
    inOrder_ite (fun _ => inOrder_raiseCond h (by decide) nofun) fun _ => h

theorem inOrder_cureSampleEvent (h : LatchesInOrder s) {reading : SensorReading}
    (he : execCureSampleEvent reading s = .next t) : LatchesInOrder t := by
  refine inOrder_finish he (inOrder_judgeTemperature ?_ _)
  cases cureReading (tickCure s) reading with
  | some raw => exact h.same
  | none => exact h.same

theorem inOrder_askIfShort (h : LatchesInOrder s) : LatchesInOrder (askIfShort s) :=
  inOrder_ite (fun _ => h.same) fun _ => h

theorem inOrder_admitIfSettled (h : LatchesInOrder s) : LatchesInOrder (admitIfSettled s) :=
  inOrder_ite (fun _ => inOrder_ite (fun _ => h.same) fun _ => h) fun _ => h

theorem inOrder_feedArrival (h : LatchesInOrder s) : LatchesInOrder (feedArrival s) := by
  unfold feedArrival
  split
  · exact h
  · exact inOrder_admitIfSettled h
  · exact inOrder_ite (fun _ => h.same) fun _ => h

theorem inOrder_sampleDecision (h : LatchesInOrder s) (depth : Nat) :
    LatchesInOrder (sampleDecision depth s) := by
  have closed : LatchesInOrder (closeGate .idle s) := h.same
  unfold sampleDecision
  split
  · exact inOrder_askIfShort h
  · exact inOrder_ite (fun _ => h.same) fun _ => h
  · exact inOrder_ite (fun _ => inOrder_lapseCond closed (by decide)) fun _ => h

theorem inOrder_probeGood (h : LatchesInOrder s) (depth : Nat) : LatchesInOrder (probeGood depth s) := by
  have read : LatchesInOrder { s with feed.depth := some depth, feed.probeValid := true } := h.same
  have lapsed := inOrder_lapseCond read (c := .probe) (by decide)
  exact inOrder_sampleDecision (inOrder_ite (fun _ => lapsed.same) fun _ => lapsed) depth

theorem inOrder_probeBad (h : LatchesInOrder s) : LatchesInOrder (probeBad s) := by
  have lost : LatchesInOrder { s with feed.probeValid := false } := h.same
  exact inOrder_raiseCond (inOrder_rejudgeFeed lost _) (by decide) nofun

theorem inOrder_probeSample (h : LatchesInOrder s) {reading : SensorReading}
    (he : execProbeSample reading s = .next t) : LatchesInOrder t := by
  have ticked : LatchesInOrder (tickProbe s) := h.same
  refine inOrder_finish he (inOrder_ite (fun _ => ticked) fun _ => ?_)
  cases probeValue (tickProbe s).setup.formHeight reading with
  | some depth => exact inOrder_probeGood ticked depth
  | none => exact inOrder_probeBad ticked

/-! ### The deck line (chapter 8) -/

theorem inOrder_beginAttempt (h : LatchesInOrder s) : LatchesInOrder (beginAttempt s) := by
  unfold beginAttempt
  split
  · exact h.same
  · exact h.same
  · exact h

theorem inOrder_countError (h : LatchesInOrder s) : LatchesInOrder (countError s) := by
  have counted : LatchesInOrder
      { s with line.errors := min Config.errorLimit (s.line.errors + 1) } := h.same
  refine inOrder_ite (fun _ => ?_) fun _ => counted
  exact inOrder_raiseCond counted.same (by decide) nofun

/-! ### Setup and the join (chapter 9) -/

theorem inOrder_lockStation (h : LatchesInOrder s) : LatchesInOrder (lockStation s) := by
  unfold lockStation
  split
  · exact inOrder_enterMode h nofun
  · rename_i hm
    refine inOrder_ite (fun _ => ⟨h.faults, fun k => ?_, h.joins⟩) fun _ => h
    rw [effectiveMode_of_reduced (by exact hm)] at k
    cases k
  · exact h

/-- A good commit of a station in SETUP, where no record is committed yet (R169). -/
theorem inOrder_goodCommit (h : LatchesInOrder s) (ho : s.join.committed = none) :
    LatchesInOrder (goodCommit s) := by
  have taken : LatchesInOrder (takeCommit s) :=
    ⟨(ho ▸ h.faults).commit s.join.staged, h.idle, fun _ => rfl⟩
  have joining := inOrder_enterMode taken (m := .joining) nofun
  exact inOrder_judgePeers joining.same

theorem inOrder_applyOutcome (h : LatchesInOrder s) (o : JoinOutcome) :
    LatchesInOrder (applyOutcome o s) := by
  cases o with
  | fresh => exact inOrder_judgeSpread h.same
  | adoption =>
    have stacked : LatchesInOrder
        (adoptStack (adoptedHeight s) (adoptedMaturity s) (setHeights (adoptedHeight s) s)) := by
      unfold adoptStack
      split
      · exact h.same
      · exact h.same
    have spread := inOrder_judgeSpread (s := removeExited _) stacked.same
    exact spread.same
  | restore => exact h

theorem inOrder_armOne (h : LatchesInOrder s) (hc : s.join.committed.isSome = true) (c : Cond) :
    LatchesInOrder (armOne c s) ∧ (armOne c s).join.committed.isSome = true := by
  unfold armOne
  split
  · rename_i k
    have latching : s.latching c = true := (Bool.and_eq_true_iff.mp k).2
    exact ⟨inOrder_latch h latching fun ho => absurd hc (by simp [ho]),
      (aside_latch c s).committed ▸ hc⟩
  · exact ⟨h, hc⟩

theorem inOrder_armDeck (h : LatchesInOrder s) (hc : s.join.committed.isSome = true) :
    LatchesInOrder (armDeck s) := by
  have armed : LatchesInOrder
      { s with join.state := .done, join.listenTimer := none, sup.armed := true } :=
    ⟨{ h.faults with arms := fun _ => hc }, h.idle, fun _ => hc⟩
  obtain ⟨lost, hlost⟩ := inOrder_armOne armed hc .neighbourLost
  obtain ⟨silent, hsilent⟩ := inOrder_armOne lost hlost .peerSilent
  exact (inOrder_armOne silent hsilent .tilt).1

/-- A join ends in a working mode only with nothing latched (R3). -/
theorem none_of_outcomeMode_works {o : JoinOutcome} (h : (outcomeMode o s).works = true) :
    s.sup.latched = [] := by
  have judged : ∀ m : Mode, (if s.noneLatched = true then m else .stopped).works = true →
      s.sup.latched = [] := by
    intro m k
    split at k
    · exact List.isEmpty_iff.mp ‹_›
    · cases k
  unfold outcomeMode at h
  split at h
  · exact judged _ h
  · exact judged _ h
  · split at h
    · cases h
    · cases h
    · exact judged _ h
    · exact judged _ h

theorem inOrder_takeOutcome (h : LatchesInOrder s) (o : JoinOutcome) :
    LatchesInOrder (takeOutcome o s) := by
  unfold takeOutcome
  dsimp only
  split
  · rename_i hm
    refine inOrder_checkRejoin ⟨h.faults, fun k => ?_, h.joins⟩
    rw [effectiveMode_of_reduced (by exact hm)] at k
    exact none_of_outcomeMode_works k
  · refine inOrder_checkRejoin (inOrder_enterMode ?_ none_of_outcomeMode_works)
    exact h.same

theorem applyOutcome_committed (o : JoinOutcome) (s : State) :
    (applyOutcome o s).join.committed = s.join.committed := by
  cases o with
  | fresh => exact (aside_judgeSpread _).committed
  | adoption =>
    refine (aside_judgeSpread (removeExited _)).committed.trans ?_
    rw [removeExited_join]
    unfold adoptStack
    split <;> rfl
  | restore => rfl

theorem inOrder_decideJoin (h : LatchesInOrder s) (hc : s.join.committed.isSome = true) :
    LatchesInOrder (decideJoin s) := by
  unfold decideJoin
  split
  · rename_i o _
    exact inOrder_takeOutcome (inOrder_armDeck (inOrder_applyOutcome h o)
      (applyOutcome_committed o s ▸ hc)) o
  · exact ⟨h.faults, h.idle, fun _ => hc⟩

theorem inOrder_joinIfWaiting (h : LatchesInOrder s) : LatchesInOrder (joinIfWaiting s) :=
  inOrder_ite (fun hw => inOrder_decideJoin h (h.joins (by simp [hw]))) fun _ => h

/-! ### The peer table (chapter 7) -/

theorem inOrder_handArrival (h : LatchesInOrder s) (n : Nat) : LatchesInOrder (handArrival n s) := by
  have judged := inOrder_judgePeers (inOrder_feedArrival h)
  exact inOrder_joinIfWaiting (inOrder_checkRejoin
    (inOrder_ite (fun _ => inOrder_judgeTilt judged) fun _ => judged))

theorem inOrder_sortReport (h : LatchesInOrder s) (n : Nat) (r : Option Report) :
    LatchesInOrder (sortReport n r s) := by
  refine inOrder_ite (fun _ => ?_) fun _ => ?_
  · exact inOrder_raiseCond (s := { s with peers.dupMiss := 0, peers.dupHeard := true }) h.same
      (by decide) nofun
  · cases r with
    | none => exact h
    | some r => exact inOrder_ite (fun _ => inOrder_handArrival h.same n) fun _ => h

theorem inOrder_ageDuplicate (h : LatchesInOrder s) : LatchesInOrder (ageDuplicate s) := by
  have aged : LatchesInOrder { s with peers.dupMiss := s.peers.dupMiss + 1 } := h.same
  exact inOrder_ite (fun _ => inOrder_ite (fun _ => h.same) fun _ =>
    inOrder_ite (fun _ => inOrder_lapseCond aged (by decide)) fun _ => aged) fun _ => h

theorem inOrder_ageSweep (h : LatchesInOrder s) : LatchesInOrder (ageSweep s) := by
  have aged : LatchesInOrder
      { s with peers.records := s.peers.records.map (Peer.age s.setup.missLimit) } := h.same
  exact inOrder_joinIfWaiting (inOrder_checkRejoin (inOrder_admitIfSettled
    (inOrder_judgePeers (inOrder_ageDuplicate aged))))

/-! ### CLEAR (R190) -/

/-- Steps 2 and 3 together: the entries leave and the drive follows (R191). -/
theorem releaseDrive_sup (h : LatchesInOrder s) :
    (releaseDrive (unlatchAbsent s)).sup
      = { s.sup with
          latched := (unlatchAbsent s).sup.latched
          drive := (unlatchAbsent s).tripLatched } := by
  unfold releaseDrive
  split
  · rename_i k
    have pulled : s.sup.drive = true := by
      rw [h.faults.pulls]
      obtain ⟨c, hc, htrip⟩ := List.any_eq_true.mp k
      exact List.any_eq_true.mpr ⟨c, List.mem_of_mem_filter hc, htrip⟩
    rw [k, ← pulled]
    rfl
  · rename_i k
    rw [Bool.not_eq_true] at k
    rw [k]
    rfl

theorem inOrder_releaseDrive (h : LatchesInOrder s) : LatchesInOrder (releaseDrive (unlatchAbsent s)) := by
  have others : (releaseDrive (unlatchAbsent s)).ctl = s.ctl
      ∧ (releaseDrive (unlatchAbsent s)).join = s.join := by
    unfold releaseDrive
    split <;> exact ⟨rfl, rfl⟩
  obtain ⟨hctl, hjoin⟩ := others
  refine ⟨?_, fun k => ?_, by rw [hjoin]; exact h.joins⟩
  · rw [releaseDrive_sup h, hjoin]
    exact h.faults.entriesLeave (keep := fun c => !unlatchable s c) (by simp [unlatchable])
  · rw [effectiveMode_of_ctl hctl] at k
    rw [releaseDrive_sup h, unlatchAbsent_sup_latched, h.idle k]
    rfl

theorem inOrder_unlatchHalt (h : LatchesInOrder s) (hs : s.sup.loopSensed = false) :
    LatchesInOrder (unlatchHalt s) :=
  ⟨h.faults.haltLeaves hs, fun k => by rw [unlatchHalt_sup_latched, h.idle k]; rfl, h.joins⟩

theorem inOrder_clearHalt (h : LatchesInOrder s) : LatchesInOrder (clearHalt s) := by
  refine inOrder_ite (fun hl => inOrder_ite (fun _ => ?_) fun hs => ?_) fun _ => h
  · exact ⟨{ h.faults with timed := rfl, awaits := fun _ => hl }, h.idle, h.joins⟩
  · exact inOrder_unlatchHalt h (Bool.eq_false_iff.mpr hs)

theorem inOrder_closeClear (h : LatchesInOrder s) (before : State) :
    LatchesInOrder (closeClear before s) := by
  have followed : LatchesInOrder (latchedEmptied before s) := by
    refine inOrder_ite (fun k => ?_) fun _ => h
    obtain ⟨-, none_left, -⟩ := k
    exact inOrder_enterMode h fun _ => List.isEmpty_iff.mp none_left
  exact followed.same

theorem inOrder_clearStation (h : LatchesInOrder s) : LatchesInOrder (clearStation s) := by
  refine inOrder_ite (fun _ => ?_) fun _ => h
  have withdrawn : LatchesInOrder (withdrawSpread s) := by
    unfold withdrawSpread
    split
    case h_4 => exact h
    all_goals exact inOrder_lapseCond h (by decide)
  have cleared := inOrder_clearHalt (inOrder_releaseDrive withdrawn)
  exact inOrder_closeClear cleared.same _

/-! ### The halt loop (R192, R193) -/

/-- The onset of HALT LOOP latches it before anything reads the loop again (R184, R192). -/
theorem inOrder_loopAsserted (h : LatchesInOrder s) (hs : s.sup.loopSensed = false) :
    LatchesInOrder (raiseCond .haltLoop { s with sup.loopSensed := true }) := by
  have absent : s.isPresent .haltLoop = false := h.faults.shows.trans hs
  have latched : LatchesInOrder (latch .haltLoop
      { s with sup.loopSensed := true, sup.present := s.sup.present ++ [.haltLoop] }) := by
    refine ⟨?_, latch_works h.idle, by
      rw [(aside_latch _ _).join_state, (aside_latch _ _).committed]; exact h.joins⟩
    rw [(aside_latch _ _).committed, latch_sup]
    split
    · rename_i k
      exact h.faults.loopAsserted k
    · rename_i k
      have joined := h.faults.withEntry (c := .haltLoop) (by simpa [State.isLatched] using k)
        (.inl rfl) fun _ => .inl rfl
      exact joined.loopAsserted (by simp [Supervisor.withEntry])
  rcases raiseCond_cases .haltLoop { s with sup.loopSensed := true } with
    ⟨present, -⟩ | ⟨-, -, e⟩ | ⟨-, hl, -⟩
  · exact absurd (absent.symm.trans present) nofun
  · rw [e]
    exact inOrder_followHold latched _
  · cases hl

theorem inOrder_loopReleased (h : LatchesInOrder s) (hs : s.sup.loopSensed = true) :
    LatchesInOrder (lapseCond .haltLoop { s with sup.loopSensed := false }) := by
  have present : s.isPresent .haltLoop = true := h.faults.shows.trans hs
  have released : LatchesInOrder
      { s with
        sup.loopSensed := false
        sup.present := s.sup.present.filter (· != .haltLoop) } :=
    ⟨h.faults.loopReleased, h.idle, h.joins⟩
  rcases lapseCond_cases .haltLoop { s with sup.loopSensed := false } with ⟨absent, -⟩ | ⟨-, e⟩
  · exact absurd (present.symm.trans absent) nofun
  · rw [e]
    exact inOrder_followHold released _

theorem inOrder_haltLoopSensedReleased (h : LatchesInOrder s)
    (he : execHaltLoopSensedReleased s = .next t) : LatchesInOrder t := by
  refine inOrder_finish he (inOrder_ite (fun hs => ?_) fun _ => h)
  have released := inOrder_loopReleased h hs
  refine inOrder_ite (fun _ => inOrder_closeClear (inOrder_unlatchHalt released ?_) _) fun _ => released
  rw [lapseCond_sup]

/-! ### The field supply (R17, R194) -/

/-- REDUCED returns to the mode it was entered from, so that the same modes count as working (R17). -/
theorem inOrder_enterReduced (h : LatchesInOrder s) (hm : s.ctl.mode ≠ .reduced) :
    LatchesInOrder (enterReduced s) := by
  have reduced : LatchesInOrder (requestReport .urgent
      { s with
        ctl.returnMode := some s.ctl.mode
        ctl.mode := .reduced
        plan.last := .blank
        seq.cycleTimer := none
        seq.expiryHeld := false }) :=
    ⟨h.faults, fun k => h.idle (by rw [effectiveMode_of_ne_reduced hm]; exact k), h.joins⟩
  exact (inOrder_rejudgeFeed reduced _).same

theorem returnTo_works (hm : s.ctl.mode = .reduced) (h : (returnTo s).works = true) :
    s.effectiveMode.works = true := by
  rw [effectiveMode_of_reduced hm]
  unfold returnTo at h
  cases hr : s.ctl.returnMode with
  | none => simp [hr, Mode.climbs, Mode.works] at h
  | some m =>
    rw [hr] at h
    dsimp only [Option.getD_some] at h ⊢
    split at h
    · exact Mode.works_of_climbs ‹_›
    · exact h

end

end Sys2Proof.Machine
end

section
/-! PROOFS. Every command keeps the latches in order, from what a sound state says of the join and of the
channels, and so does every step. -/

namespace Sys2Proof.Machine

/-- What a command finds in a sound state: the latches in order, and the laws that say when a record is
committed, when a channel is active and what an image can hold. -/
structure CommandGround (s : State) : Prop where
  latches : LatchesInOrder s
  join : JoinLaw s
  channels : ChannelLaw s
  imageA : ∀ i ∈ s.join.imageA, KeptInOrder i
  imageB : ∀ i ∈ s.join.imageB, KeptInOrder i

theorem Sound.latchesInOrder {s : State} (h : Sound s) : LatchesInOrder s := by
  obtain ⟨-, hcommitted, -, hstate, -, -, -, -, -, -, -, harmed, -⟩ := h.join
  have joins : s.join.state ≠ .none → s.join.committed.isSome = true := by
    intro k
    rw [hcommitted, ← hstate]
    exact bne_iff_ne.mpr k
  refine latchesInOrder_iff.mpr ⟨⟨h.latch, h.drive, h.halt⟩, fun k => joins ?_, joins⟩
  rw [harmed, beq_iff_eq] at k
  simp [k]

/-- The queue is no part of the ground. -/
theorem Sound.commandGround {s : State} (h : Sound s) (q : List Instr) :
    CommandGround { s with pending := q } :=
  ⟨h.latchesInOrder.same, h.join, h.channels, h.record.1, h.record.2.1⟩

section
variable {s t : State}

theorem CommandGround.committed_of_active (g : CommandGround s) {ch : Ch}
    (h : (s.chan ch).state ≠ .off) : s.join.committed.isSome = true := by
  obtain ⟨hactive, -⟩ := g.channels ch (Ch.mem_all ch)
  have active : (s.chan ch).isActive = true := bne_iff_ne.mpr h
  rw [hactive] at active
  cases hc : s.join.committed with
  | none => simp [hc] at active
  | some r => rfl

theorem CommandGround.uncommitted_of_setup (g : CommandGround s) (hm : s.ctl.mode = .setup) :
    s.join.committed = none := by
  obtain ⟨-, hcommitted, -, -, -, -, -, hsetup, -⟩ := g.join
  have effective : s.effectiveMode = .setup := by
    rw [effectiveMode_of_ne_reduced (by simp [hm]), hm]
  rw [effective] at hsetup
  rw [← Option.not_isSome_iff_eq_none, hcommitted, beq_iff_eq]
  intro stage
  rw [stage] at hsetup
  cases hsetup

theorem CommandGround.committed_of_listening (g : CommandGround s)
    (h : s.join.listenTimer.isSome = true) : s.join.committed.isSome = true := by
  obtain ⟨-, -, -, -, -, -, hlisten, -⟩ := g.join
  rw [hlisten, beq_iff_eq] at h
  exact g.latches.joins (by simp [h])

/-! ### The jack channels (chapter 5) -/

theorem inOrder_readChannel (g : CommandGround s) {ch : Ch} (ha : (s.chan ch).isActive = true)
    (reading : SensorReading) : LatchesInOrder (readChannel ch reading s) := by
  have committed := g.committed_of_active (bne_iff_ne.mp ha)
  unfold readChannel
  dsimp only
  split
  · exact inOrder_lapseCond (s := updateCh _ _ s) g.latches.same (by simp)
  · exact inOrder_raiseCond (s := updateCh _ _ s) g.latches.same (by simp) fun _ => committed

/-- A stroke timer that runs out in a moving channel raises the channel's own condition. -/
theorem inOrder_raiseTimeout (g : CommandGround s) {ch : Ch} (hs : (s.chan ch).state ≠ .off) (d : Timer)
    (f : Channel → Channel) {c : Cond} (hne : c ≠ .haltLoop) :
    LatchesInOrder (raiseCond c (updateCh ch f (expireAt d s))) :=
  inOrder_raiseCond (s := updateCh _ _ _) g.latches.same hne fun _ => g.committed_of_active hs

theorem inOrder_tExtExpiry (g : CommandGround s) {ch : Ch} (he : execTExtExpiry ch s = .next t) :
    LatchesInOrder t := by
  refine inOrder_finish he (inOrder_ite (fun k => ?_) fun _ => g.latches)
  obtain ⟨hext, -⟩ := Bool.and_eq_true_iff.mp k
  exact inOrder_raiseTimeout g (by simp [beq_iff_eq.mp hext]) _ _ (by simp)

theorem inOrder_tRetExpiry (g : CommandGround s) {ch : Ch} (he : execTRetExpiry ch s = .next t) :
    LatchesInOrder t := by
  refine inOrder_finish he (inOrder_ite (fun k => ?_) fun _ => g.latches)
  simp only [Bool.and_eq_true, beq_iff_eq] at k
  obtain ⟨⟨hret, -⟩, -⟩ := k
  exact inOrder_lapseCond (inOrder_raiseTimeout g (by simp [hret]) _ _ (by simp)) (by simp)

theorem inOrder_holdEnd (h : LatchesInOrder s) {ch : Ch} (he : execHoldEnd ch s = .next t) :
    LatchesInOrder t :=
  inOrder_finish he (inOrder_ite (fun _ => inOrder_credit (s := updateCh _ _ _) h.same ch) fun _ => h)

theorem inOrder_inhibitAsserted (h : LatchesInOrder s) (he : execInhibitAsserted s = .next t) :
    LatchesInOrder t := by
  refine inOrder_finish he (inOrder_ite (fun _ => h) fun _ => ?_)
  exact inOrder_raiseCond (inOrder_creditStrokes (s := updateAll _ _) h.same s) (by decide) nofun

theorem inOrder_inhibitReleased (h : LatchesInOrder s) (he : execInhibitReleased s = .next t) :
    LatchesInOrder t :=
  inOrder_finish he
    (inOrder_ite (fun _ => inOrder_lapseCond (s := updateAll _ _) h.same (by decide)) fun _ => h)

/-! ### Setup and the join (chapter 9) -/

theorem inOrder_setupCommit (g : CommandGround s) {sender : BitVec 6} {target check : Byte}
    (he : execSetupCommit sender target check s = .next t) : LatchesInOrder t := by
  refine inOrder_finish he (inOrder_ite (fun k => ?_) fun _ => g.latches)
  split
  · exact g.latches.same
  · exact inOrder_goodCommit g.latches (g.uncommitted_of_setup k.1)

theorem inOrder_windowExpiry (h : LatchesInOrder s) (he : execWindowExpiry s = .next t) :
    LatchesInOrder t :=
  inOrder_finish he (inOrder_ite (fun _ => inOrder_lockStation h.same) fun _ => h)

theorem inOrder_joinListenExpiry (g : CommandGround s) (he : execJoinListenExpiry s = .next t) :
    LatchesInOrder t :=
  inOrder_finish he (inOrder_ite
    (fun k => inOrder_decideJoin (s := expireAt _ s) g.latches.same (g.committed_of_listening k))
    fun _ => g.latches)

/-! ### The supervisor's inputs and timers (chapter 10) -/

theorem inOrder_haltLoopSensedAsserted (h : LatchesInOrder s)
    (he : execHaltLoopSensedAsserted s = .next t) : LatchesInOrder t :=
  inOrder_finish he
    (inOrder_ite (fun _ => h) fun k => inOrder_loopAsserted h (Bool.eq_false_iff.mpr k))

theorem inOrder_clearPendingTimerExpiry (h : LatchesInOrder s)
    (he : execClearPendingTimerExpiry s = .next t) : LatchesInOrder t := by
  refine inOrder_finish he (inOrder_ite (fun _ => ?_) fun _ => h)
  exact ⟨{ h.faults with timed := rfl, awaits := nofun }, h.idle, h.joins⟩

/-- The supply state and the time base are read by no law of the latches. -/
theorem inOrder_setBases (h : LatchesInOrder s) (low crystal : Bool) (d : Timer) :
    LatchesInOrder { s with sup.supplyLow := low, sup.onCrystal := crystal, sup.crystalTimer := d } :=
  ⟨{ h.faults with }, h.idle, h.joins⟩

theorem inOrder_supplyLow (h : LatchesInOrder s) (he : execSupplyLow s = .next t) :
    LatchesInOrder t := by
  refine inOrder_finish he (inOrder_ite (fun _ => h) fun _ => ?_)
  have raised := inOrder_raiseCond (inOrder_setBases h true s.sup.onCrystal s.sup.crystalTimer)
    (c := .supplyLow) (by decide) nofun
  refine inOrder_ite (fun _ => raised) fun hm => ?_
  exact inOrder_creditStrokes (s := updateAll _ _) (inOrder_enterReduced raised hm).same _

theorem inOrder_supplyRecovery (h : LatchesInOrder s) (he : execSupplyRecovery s = .next t) :
    LatchesInOrder t := by
  refine inOrder_finish he (inOrder_ite (fun _ => ?_) fun _ => h)
  have lapsed := inOrder_lapseCond (inOrder_setBases h false s.sup.onCrystal s.sup.crystalTimer)
    (c := .supplyLow) (by decide)
  exact inOrder_ite (fun hm => inOrder_enterMode (s := updateAll _ _) lapsed.same fun k =>
    lapsed.idle (returnTo_works hm k)) fun _ => lapsed

theorem inOrder_crystalStopped (h : LatchesInOrder s) (he : execCrystalStopped s = .next t) :
    LatchesInOrder t := by
  refine inOrder_finish he (inOrder_ite (fun _ => ?_) fun _ => ?_)
  · exact inOrder_raiseCond (inOrder_setBases h s.sup.supplyLow false none) (c := .clockFallback)
      (by decide) nofun
  · exact inOrder_setBases h s.sup.supplyLow s.sup.onCrystal none

theorem inOrder_crystalRunTimerExpiry (h : LatchesInOrder s)
    (he : execCrystalRunTimerExpiry s = .next t) : LatchesInOrder t := by
  have expired : LatchesInOrder (expireAt s.sup.crystalTimer s) := h.same
  exact inOrder_finish he (inOrder_ite (fun _ => inOrder_lapseCond
    (inOrder_setBases expired s.sup.supplyLow true none) (by decide)) fun _ => h)

/-! ### The resets (R162, R163, R173, R198) -/

theorem inOrder_resetAll (strap : BitVec 6) (inhibit : Bool) (mode : Mode) (r : SetupRecord)
    (a b : Option Image) (s : State) :
    LatchesInOrder (resetAll strap inhibit mode r a b s) :=
  ⟨⟨⟨List.nodup_nil, nofun⟩, nofun, rfl, rfl, nofun, rfl, rfl, nofun, nofun⟩, fun _ => rfl,
    fun k => absurd rfl k⟩

theorem inOrder_reportFaults (h : LatchesInOrder t) (before : State) :
    LatchesInOrder (reportFaults before t) :=
  inOrder_ite (fun _ => h) fun _ => h.same

theorem inOrder_inhibitAtReset (h : LatchesInOrder s) : LatchesInOrder (inhibitAtReset s) :=
  inOrder_ite (fun _ => inOrder_reportFaults (inOrder_raiseCond h (c := .inhibit) (by decide) nofun) s)
    fun _ => h

theorem inOrder_lockedCourse (strap : BitVec 6) (inhibit : Bool) (a b : Option Image) (s : State) :
    LatchesInOrder (lockedCourse strap inhibit a b s) :=
  inOrder_inhibitAtReset (inOrder_resetAll strap inhibit _ _ a b s)

theorem inOrder_setupCourse (strap : BitVec 6) (inhibit : Bool) (s : State) :
    LatchesInOrder (setupCourse strap inhibit s) := by
  have reset := inOrder_resetAll strap inhibit .setup defaultRecord none none s
  exact inOrder_inhibitAtReset (s := requestSetup _) reset.same

/-- The latched set of a restore comes with its drive and with the cause of HALT LOOP (R173, R198). -/
theorem inOrder_restoreLatched (h : LatchesInOrder s) {r : SetupRecord} {ls : List Cond}
    (hr : s.join.committed = some r) (hls : LatchedSet r ls) (hw : s.effectiveMode.works = false)
    (hloop : s.sup.loopSensed = false) (hpending : s.sup.clearPending = false) :
    LatchesInOrder (restoreLatched ls s) := by
  have committed : (restoreLatched ls s).join.committed = some r := hr
  refine ⟨?_, fun k => absurd (hw.symm.trans k) nofun, h.joins⟩
  rw [committed]
  exact
    { entries := hls
      uncommitted := nofun
      pulls := by simp [restoreLatched, State.tripLatched, State.classOf, State.setup, hr]
      shows := h.faults.shows
      holds := fun k => absurd (hloop.symm.trans k) nofun
      caused := by
        by_cases k : Cond.haltLoop ∈ ls <;> simp [restoreLatched, k]
      timed := h.faults.timed
      awaits := fun k => absurd (hpending.symm.trans k) nofun
      arms := fun _ => rfl }

theorem inOrder_restoreCourse (strap : BitVec 6) (inhibit : Bool) (a b : Option Image) {k : Kept}
    (hk : LatchedSet k.setup k.latched) (s : State) :
    LatchesInOrder (restoreCourse strap inhibit a b k s) := by
  have reset := inOrder_resetAll strap inhibit .joining k.setup a b s
  refine inOrder_inhibitAtReset (inOrder_judgePeers (inOrder_reportFaults (inOrder_judgeSpread
    (inOrder_restoreLatched ?_ rfl hk rfl rfl rfl)) _))
  exact ⟨reset.faults.commit k.setup, fun _ => rfl, fun _ => rfl⟩

theorem usedImage_eq_some {a b : Option Image} {i : Image} (h : usedImage a b = some i) :
    a = some i ∨ b = some i := by
  cases ha : imageValid a <;> cases hb : imageValid b
  · rw [usedImage_neither ha hb] at h
    cases h
  · exact .inr (usedImage_right ha hb ▸ h)
  · exact .inl (usedImage_left ha hb ▸ h)
  · cases a with
    | none => cases ha
    | some j =>
      cases b with
      | none => cases hb
      | some k =>
        rw [usedImage_both ha hb] at h
        split at h
        · exact .inr h
        · exact .inl h

theorem inOrder_powerOnReset {strap : BitVec 6} {inhibit : Bool}
    (he : execPowerOnReset strap inhibit s = .next t) : LatchesInOrder t := by
  rw [← Host.Outcome.next.inj he]
  exact inOrder_ite (fun _ => inOrder_setupCourse strap inhibit s) fun _ =>
    inOrder_lockedCourse strap inhibit none none s

theorem inOrder_brownOutReset (g : CommandGround s) {strap : BitVec 6} {inhibit cut : Bool}
    (he : execBrownOutReset strap inhibit cut s = .next t) : LatchesInOrder t := by
  rw [← Host.Outcome.next.inj he]
  refine inOrder_ite (fun _ => ?_) fun _ => inOrder_lockedCourse strap inhibit _ _ s
  split
  · rename_i i hi
    rw [usedImage_imagesFound] at hi
    have kept : KeptInOrder i :=
      (usedImage_eq_some hi).elim (fun e => g.imageA i e) fun e => g.imageB i e
    obtain ⟨-, -, -, -, -, -, -, -, hlatched, -⟩ := kept
    exact inOrder_ite (fun _ => inOrder_restoreCourse strap inhibit _ _ hlatched s) fun _ =>
      inOrder_setupCourse strap inhibit s
  · exact inOrder_setupCourse strap inhibit s

/-! ### Every command and every step -/

theorem inOrder_reportTimerExpiry (h : LatchesInOrder s) (he : execReportTimerExpiry s = .next t) :
    LatchesInOrder t := by
  refine inOrder_finish he (inOrder_ageSweep ?_)
  exact h.same

theorem inOrder_exec (g : CommandGround s) {i : Instr} (he : exec i s = .next t) :
    LatchesInOrder t := by
  have h := g.latches
  cases i with
  | start => exact inOrder_finish he (inOrder_ite (fun _ => inOrder_startStation h) fun _ => h)
  | stop => exact inOrder_finish he (inOrder_ite (fun _ => inOrder_stopStation h) fun _ => h)
  | pause =>
    exact inOrder_finish he (inOrder_ite
      (fun _ => inOrder_ite (fun _ => inOrder_addPause h _) fun _ => h) fun _ => h)
  | resume => exact inOrder_finish he (inOrder_ite (fun _ => inOrder_resumeStation h _) fun _ => h)
  | clear => exact inOrder_finish he (inOrder_ite (fun _ => inOrder_clearStation h) fun _ => h)
  | rateScale => exact inOrder_finish he (inOrder_ite (fun _ => inOrder_setRateScale h _) fun _ => h)
  | feedHold => exact inOrder_finish he (inOrder_ite (fun _ => inOrder_setFeedHold h _) fun _ => h)
  | localClear => exact inOrder_finish he (inOrder_ite (fun _ => inOrder_clearStation h) fun _ => h)
  | report => exact inOrder_finish he (inOrder_sortReport h _ _)
  | setupData => exact inOrder_finish he (inOrder_ite (fun _ => h.same) fun _ => h)
  | setupCommit => exact inOrder_setupCommit g he
  | peerSetupRequest => exact inOrder_finish he h
  | frameDiscarded => exact inOrder_finish he h
  | powerOnReset => exact inOrder_powerOnReset he
  | brownOutReset => exact inOrder_brownOutReset g he
  | setupRequestTimerExpiry => exact inOrder_finish he (inOrder_ite (fun _ => h.same) fun _ => h)
  | windowExpiry => exact inOrder_windowExpiry h he
  | joinListenExpiry => exact inOrder_joinListenExpiry g he
  | cycleTimerExpiry =>
    exact inOrder_finish he
      (inOrder_ite (fun _ => inOrder_cycleExpiry (s := expireAt _ s) h.same) fun _ => h)
  | cycleCompletion => exact inOrder_finish he (inOrder_ite (fun _ => inOrder_planEvent h) fun _ => h)
  | bankBStart => exact inOrder_finish he (inOrder_ite (fun _ => h.same) fun _ => h)
  | deferredValveOpening => exact inOrder_finish he (inOrder_ite (fun _ => h.same) fun _ => h)
  | transducerReading =>
    exact inOrder_finish he (inOrder_ite (fun ha => inOrder_readChannel g ha _) fun _ => h)
  | tExtExpiry => exact inOrder_tExtExpiry g he
  | holdEnd => exact inOrder_holdEnd h he
  | tRetExpiry => exact inOrder_tRetExpiry g he
  | blindRetractionEnd =>
    exact inOrder_finish he
      (inOrder_ite (fun _ => inOrder_ite (fun _ => h.same) fun _ => h.same) fun _ => h)
  | cureSampleEvent => exact inOrder_cureSampleEvent h he
  | probeSample => exact inOrder_probeSample h he
  | blankTimerExpiry => exact inOrder_finish he h.same
  | settleTimerExpiry =>
    exact inOrder_finish he (inOrder_ite (fun _ => inOrder_admitIfSettled h.same) fun _ => h)
  | feedTimerExpiry =>
    exact inOrder_finish he (inOrder_ite
      (fun _ => inOrder_raiseCond (s := closeGate _ _) h.same (c := .feedTimeout) (by decide) nofun)
      fun _ => h)
  | reportTimerExpiry => exact inOrder_reportTimerExpiry h he
  | lineIdle => exact inOrder_finish he (inOrder_ite (fun _ => h) fun _ => h.same)
  | attemptStart => exact inOrder_finish he (inOrder_ite (fun _ => inOrder_beginAttempt h) fun _ => h)
  | arbitrationLost => exact inOrder_finish he (inOrder_ite (fun _ => h.same) fun _ => h)
  | transmitError =>
    exact inOrder_finish he
      (inOrder_ite (fun _ => inOrder_countError (s := retryAttempt s) h.same) fun _ => h)
  | sentWhole =>
    exact inOrder_finish he (inOrder_ite
      (fun _ => inOrder_lapseCond (s := attemptSent s) h.same (by decide)) fun _ => h)
  | muteTimerExpiry => exact inOrder_finish he (inOrder_ite (fun _ => h.same) fun _ => h)
  | busyLineTimerExpiry =>
    exact inOrder_finish he (inOrder_ite (fun _ => inOrder_countError h.same) fun _ => h)
  | haltLoopSensedAsserted => exact inOrder_haltLoopSensedAsserted h he
  | haltLoopSensedReleased => exact inOrder_haltLoopSensedReleased h he
  | clearPendingTimerExpiry => exact inOrder_clearPendingTimerExpiry h he
  | supplyLow => exact inOrder_supplyLow h he
  | supplyRecovery => exact inOrder_supplyRecovery h he
  | inhibitAsserted => exact inOrder_inhibitAsserted h he
  | inhibitReleased => exact inOrder_inhibitReleased h he
  | crystalStopped => exact inOrder_crystalStopped h he
  | crystalCycleSeen =>
    exact inOrder_finish he
      (inOrder_ite (fun _ => ⟨{ h.faults with }, h.idle, h.joins⟩) fun _ => h)
  | crystalRunTimerExpiry => exact inOrder_crystalRunTimerExpiry h he
  | lineNotIdle => exact inOrder_finish he h.same

theorem inOrder_passTime (h : LatchesInOrder s) : LatchesInOrder (passTime s) := by
  obtain ⟨busy, e, -⟩ := followBusyLine_cases { s with now := s.now + 1 }
  rw [passTime, e]
  exact h.same

theorem inOrder_step (h : Sound s) (he : step s = .next t) : LatchesInOrder t := by
  unfold step at he
  split at he
  · unfold idleStep at he
    split at he
    · exact inOrder_exec (h.commandGround s.pending) he
    · exact Host.Outcome.next.inj he ▸ inOrder_passTime h.latchesInOrder
  · exact inOrder_exec (h.commandGround _) he

end

/-- Settles O15: the laws of the latches hold in a sound state and every command, event and millisecond keeps
them. -/
theorem stepKeepsLatchesAndDrive : Obligations.StepKeepsLatchesAndDrive := by
  intro s t hs he
  obtain ⟨laws, -⟩ := latchesInOrder_iff.mp (inOrder_step hs he)
  exact laws

end Sys2Proof.Machine
end

section
/-! PROOFS. How a property of the station comes to hold after every command: `Moves` gathers what modes, pauses,
latches and conditions ask of the property, `Steering` and `Keeps` what the commands ask of it, and
`Keeps.answers` says that a property with these holds in the state that a command's close starts from. Every
law that steps keep is proved through them. -/

namespace Sys2Proof.Machine

-- In order, so that the proofs waiting on one another do not hold a stack each.
set_option Elab.async false

/-- A command other than a reset answers the close of a state with the property. -/
def Answers (P : State → Prop) (i : Instr) (s : State) : Prop :=
  ∃ u, exec i s = .next (settled s u) ∧ P u

/-! ### Modes, pauses, latches and conditions -/

/-- What a property must stand for modes, pauses and the conditions in `C` to keep it. -/
structure Moves (P : State → Prop) (C : Cond → Bool) : Prop where
  enter : ∀ (m : Mode) (s : State), P s → s.ctl.mode.takesCommands = true →
    m.takesCommands = true → P (enterMode m s)
  pause : ∀ (p : PauseSet) (s : State), P s → P { s with ctl.pause := p }
  latch : ∀ (c : Cond) (s : State), C c = true → P s → s.latching c = true → P (latch c s)
  appear : ∀ (c : Cond) (s : State), C c = true → P s → s.isPresent c = false →
    P { s with sup.present := s.sup.present ++ [c] }
  vanish : ∀ (c : Cond) (s : State), C c = true → P s →
    P { s with sup.present := s.sup.present.filter (· != c) }

/-- What the parts of a latch ask of a property, and the comings and goings of the conditions in `C`. -/
structure LatchParts (P : State → Prop) (C : Cond → Bool := fun _ => true) : Prop where
  enter : ∀ (m : Mode) (s : State), P s → s.ctl.mode.takesCommands = true →
    m.takesCommands = true → P (enterMode m s)
  cut : ∀ s : State, P s → P (cutExtensions s) := by exact fun _ h => h
  entry : ∀ (c : Cond) (s : State), P s → s.latching c = true → P (joinLatched c s) := by
    exact fun _ _ h _ => h
  stop : ∀ s : State, P s → s.ctl.mode = .reduced → (s.ctl.returnMode.getD .reduced).works = true →
    P { s with ctl.returnMode := some .stopped, ctl.pause := .empty } := by exact fun _ h _ _ => h
  pull : ∀ s : State, P s → P { s with sup.drive := true } := by exact fun _ h => h
  keep : ∀ (b : Bool) (s : State), P s → P (keepChange b s) := by exact fun _ _ h => h
  pause : ∀ (p : PauseSet) (s : State), P s → P { s with ctl.pause := p } := by exact fun _ _ h => h
  appear : ∀ (c : Cond) (s : State), C c = true → P s → s.isPresent c = false →
    P { s with sup.present := s.sup.present ++ [c] } := by exact fun _ _ _ h _ => h
  vanish : ∀ (c : Cond) (s : State), C c = true → P s →
    P { s with sup.present := s.sup.present.filter (· != c) } := by exact fun _ _ _ h => h

section
variable {P : State → Prop} {C : Cond → Bool} {s : State}

theorem Mode.takesCommands_of_works {m : Mode} (h : m.works = true) : m.takesCommands = true := by
  revert h
  cases m <;> decide

theorem Mode.takesCommands_of_climbs {m : Mode} (h : m.climbs = true) : m.takesCommands = true :=
  Mode.takesCommands_of_works (Mode.works_of_climbs h)

theorem LatchParts.latchMode (L : LatchParts P C) (h : P s) : P (latchMode s) := by
  rcases latchMode_cases s with ⟨hm, e⟩ | ⟨hm, hr, e⟩ | ⟨-, -, e⟩ <;> rw [e]
  · exact L.enter _ s h (Mode.takesCommands_of_works hm) rfl
  · exact L.keep true _ (L.stop s h hm hr)
  · exact h

theorem LatchParts.latch (L : LatchParts P C) (c : Cond) (h : P s) (hl : s.latching c = true) :
    P (latch c s) := by
  rcases latch_cases c s with ⟨-, e⟩ | ⟨-, e⟩ <;> rw [e]
  · exact h
  · have cut := L.cut _ (L.latchMode (L.entry c s h hl))
    refine L.keep true _ ?_
    rcases pullForTrip_cases c (cutExtensions (Machine.latchMode (joinLatched c s))) with
      ⟨-, e⟩ | ⟨-, e⟩ <;> rw [e]
    · exact L.pull _ cut
    · exact cut

theorem LatchParts.moves (L : LatchParts P C) : Moves P C where
  enter := L.enter
  pause := L.pause
  latch c _ _ := L.latch c
  appear := L.appear
  vanish := L.vanish

theorem Moves.addPause (M : Moves P C) (f : PauseSet → PauseSet) (h : P s) : P (addPause f s) := by
  rcases addPause_cases f s with ⟨hm, e⟩ | ⟨-, e⟩ | ⟨-, -, e⟩ <;> rw [e]
  · exact M.enter _ _ (M.pause _ s h) (by simp [hm, Mode.takesCommands]) rfl
  · exact M.pause _ s h
  · exact h

theorem Moves.dropPause (M : Moves P C) (f : PauseSet → PauseSet) (h : P s) : P (dropPause f s) := by
  rcases dropPause_cases f s with ⟨-, e⟩ | ⟨-, hm, -, e⟩ | ⟨-, -, e⟩ <;> rw [e]
  · exact h
  · exact M.enter _ _ (M.pause _ s h) (by simp [hm, Mode.takesCommands]) rfl
  · exact M.pause _ s h

theorem Moves.followHold (M : Moves P C) (before : Bool) (h : P s) : P (followHold before s) := by
  rcases followHold_cases before s with ⟨-, e⟩ | ⟨-, -, e⟩ | ⟨-, -, e⟩ <;> rw [e]
  · exact h
  · exact M.dropPause _ h
  · exact M.addPause _ h

theorem Moves.raise (M : Moves P C) (c : Cond) (hc : C c = true) (h : P s) : P (raiseCond c s) := by
  rcases raiseCond_cases c s with ⟨-, e⟩ | ⟨hp, hl, e⟩ | ⟨hp, -, e⟩ <;> rw [e]
  · exact h
  · exact M.followHold _ (M.latch c _ hc (M.appear c s hc h hp) hl)
  · exact M.followHold _ (M.appear c s hc h hp)

theorem Moves.lapse (M : Moves P C) (c : Cond) (hc : C c = true) (h : P s) : P (lapseCond c s) := by
  rcases lapseCond_cases c s with ⟨-, e⟩ | ⟨-, e⟩ <;> rw [e]
  · exact h
  · exact M.followHold _ (M.vanish c s hc h)

theorem Moves.judge (M : Moves P C) (c : Cond) (hc : C c = true) (b : Bool) (h : P s) :
    P (judgeCond c b s) := by
  cases b
  · exact M.lapse c hc h
  · exact M.raise c hc h

theorem Moves.judgePeers (M : Moves P C) (h : P s) (hn : C .neighbourLost = true := by rfl)
    (hp : C .peerSilent = true := by rfl) :
    P (judgePeers s) :=
  M.judge _ hp _ (M.judge _ hn _ h)

theorem Moves.judgeTilt (M : Moves P C) (h : P s) (ht : C .tilt = true := by rfl) :
    P (judgeTilt s) :=
  M.judge _ ht _ h

theorem Moves.judgeSpread (M : Moves P C) (h : P s) (hj : C .jackSpread = true := by rfl) :
    P (judgeSpread s) :=
  M.judge _ hj _ h

theorem Moves.checkRejoin (M : Moves P C) (h : P s) : P (checkRejoin s) := by
  rcases checkRejoin_cases s with ⟨-, -, e⟩ | ⟨-, e⟩ <;> rw [e]
  · exact M.dropPause _ h
  · exact h

theorem Moves.segmentCheck (M : Moves P C) (h : P s) : P (segmentCheck s) := by
  rcases segmentCheck_cases s with ⟨-, -, -, e⟩ | ⟨-, e⟩ <;> rw [e]
  · exact M.addPause _ h
  · exact h

theorem Moves.creditChecks (M : Moves P C) (h : P s) : P (creditChecks s) := by
  rcases creditChecks_cases s with ⟨hm, -, e⟩ | ⟨-, e⟩ <;> rw [e]
  · exact M.enter _ s h (Mode.takesCommands_of_works hm) rfl
  · exact M.segmentCheck h

/-- A credit keeps what its height and removal keep. -/
theorem Moves.credit (M : Moves P C) {c : Ch} (h : P (keepChange true (creditHeight c s)))
    (ht : C .tilt = true := by rfl) (hj : C .jackSpread = true := by rfl) : P (credit c s) :=
  M.judgeSpread (M.judgeTilt (M.creditChecks h) ht) hj

theorem creditStrokes_keeps {before : State}
    (hc : ∀ (c : Ch) (t : State), (before.chan c).inStroke = true → P t → P (credit c t)) (h : P s) :
    P (creditStrokes before s) := by
  unfold creditStrokes
  generalize Ch.all = chs
  induction chs generalizing s with
  | nil => exact h
  | cons c rest ih =>
    rw [List.foldl_cons]
    split
    · exact ih (hc c s ‹_› h)
    · exact ih h

end

/-! ### The commands -/

/-- The conditions that no item of the station and no law stands for: their onsets and ends are told apart by
no law but those of the modes and of the latches. -/
def Cond.isPlain : Cond → Bool
  | .extendTimeout _ | .retractTimeout _ | .transducer _ => true
  | .jackSpread | .tilt | .probe | .line | .feedTimeout => true
  | _ => false

/-- What the deck commands and the plain conditions ask of a property (chapter 1, R182). -/
structure Steering (P : State → Prop) : Prop where
  start : ∀ s : State, P s → s.ctl.mode = .standing → startRefusal s = none →
    P (enterMode .climbing { s with ctl.refusal := none })
  stop : ∀ s : State, P s → s.ctl.mode.climbs = true → P (enterMode .standing s)
  pause : ∀ s : State, P s → s.ctl.mode.climbs = true →
    P (addPause (fun p => { p with operator := true }) s)
  resume : ∀ s : State, P s → s.ctl.mode.takesCommands = true →
    P (dropPause (fun p => { p with operator := false }) s)
  segment : ∀ (k : Nat) (s : State), P s → s.ctl.mode.takesCommands = true → 2 ≤ k → k ≤ 8 →
    s.ctl.pause.segment = some k →
    P (segmentCheck (dropPause (fun p => { p with segment := none }) (releaseHeld k s)))
  raise : ∀ (c : Cond) (s : State), c.isPlain = true → P s → P (raiseCond c s)
  lapse : ∀ (c : Cond) (s : State), c.isPlain = true → P s → P (lapseCond c s)

theorem Moves.steering {P : State → Prop} {C : Cond → Bool} (M : Moves P C)
    (hC : ∀ c : Cond, c.isPlain = true → C c = true := by exact fun _ _ => rfl)
    (refusal : ∀ (r : Option RefusalCause) (s : State), P s → P { s with ctl.refusal := r } := by
      exact fun _ _ h => h)
    (release : ∀ (k : Nat) (s : State), P s → P (releaseHeld k s) := by exact fun _ _ h => h) :
    Steering P where
  start s h hm _ := M.enter _ _ (refusal none s h) (by simp [hm, Mode.takesCommands]) rfl
  stop s h hm := M.enter _ s h (Mode.takesCommands_of_climbs hm) rfl
  pause _ h _ := M.addPause _ h
  resume _ h _ := M.dropPause _ h
  segment k s h _ _ _ _ := M.segmentCheck (M.dropPause _ (release k s h))
  raise c _ hc h := M.raise c (hC c hc) h
  lapse c _ hc h := M.lapse c (hC c hc) h

/-- What the cycle and the jack channels ask of a property (chapter 5), the plan event only where `plans`. -/
structure JackKeeps (P : State → Prop) (plans : Prop) : Prop where
  plan : plans → ∀ s : State, P s → s.ctl.mode.climbs = true → allAtRest s = true → P (planEvent s)
  hold : ∀ s : State, P s → s.ctl.mode.climbs = true →
    P { s with seq.cycleTimer := none, seq.expiryHeld := true } := by exact fun _ h _ => h
  bankB : ∀ s : State, P s → bankBDue s = true → P (startBank (fun c => !c.bankA) s)
  opening : ∀ (ch : Ch) (d : Nat) (s : State), P s → (s.chan ch).deferred = some d → d ≤ s.now →
    P (updateCh ch (Channel.openDeferred s.setup s.now) s)
  read : ∀ (ch : Ch) (reading : SensorReading) (s : State), P s → (s.chan ch).isActive = true →
    P (readChannel ch reading s)
  extendEnd : ∀ (ch : Ch) (s : State), P s → (s.chan ch).state = .extend →
    P (raiseCond (.extendTimeout ch) (updateCh ch (Channel.toHold s.setup s.now) s))
  holdEnd : ∀ (ch : Ch) (s : State), P s → (s.chan ch).state = .hold →
    P (credit ch (updateCh ch (Channel.endHold s.setup s.now) s))
  retractEnd : ∀ (ch : Ch) (s : State), P s → (s.chan ch).state = .retract →
    P (lapseCond (.retractTimeout ch)
      (raiseCond (.retractTimeout ch) (updateCh ch (Channel.halt .fault s.now) s)))
  blindHeld : ∀ (ch : Ch) (s : State), P s → (s.chan ch).state = .retract →
    P (updateCh ch (Channel.halt .fault s.now) s)
  blindFree : ∀ (ch : Ch) (s : State), P s → (s.chan ch).state = .retract →
    P (updateCh ch (Channel.leaveFault s.setup s.now s.inhibitInput (s.ctl.mode == .reduced)) s)
  inhibitOn : ∀ s : State, P s → s.inhibitInput = false →
    P (raiseCond .inhibit
      (creditStrokes s (updateAll (Channel.inhibit s.now) { s with inhibitInput := true })))
  inhibitOff : ∀ s : State, P s → s.inhibitInput = true →
    P (lapseCond .inhibit (updateAll (Channel.release s.setup s.now (s.ctl.mode == .reduced))
      { s with inhibitInput := false }))

/-- What the cure integrator and the feed controller ask of a property (chapters 4 and 6). -/
structure ConcreteKeeps (P : State → Prop) : Prop where
  feedHold : ∀ (b : Bool) (s : State), P s → s.ctl.mode.takesCommands = true →
    P (rejudgeFeed (feedAllowed s) { s with ctl.feedHold := b })
  cureRead : ∀ (raw : Int) (s : State), P s → -400 ≤ raw ∧ raw ≤ 1000 →
    P (judgeTemperature true (applyCure (temperatureRead raw (tickCure s))))
  cureMissed : ∀ s : State, P s → P (judgeTemperature false (applyCure (temperatureMissed (tickCure s))))
  probeTick : ∀ s : State, P s → P (tickProbe s) := by exact fun _ h => h
  probeGood : ∀ (d : Nat) (s : State), P s → s.ctl.mode ≠ .reduced → d ≤ s.setup.formHeight →
    P (probeGood d s)
  probeBad : ∀ s : State, P s → P (probeBad s)
  blankEnd : ∀ s : State, P s → P { s with feed.blankTimer := none } := by exact fun _ h => h
  settle : ∀ s : State, P s → s.feed.settleTimer.isSome = true →
    P (admitIfSettled { s with feed.settleTimer := none, feed.settled := true })
  feedEnd : ∀ s : State, P s → s.feed.feedTimer.isSome = true →
    P (raiseCond .feedTimeout (closeGate .idle s))

/-- What the line interface asks of a property (chapter 8). -/
structure LineKeeps (P : State → Prop) : Prop where
  level : ∀ (b : Bool) (s : State), P s → (b = true → attempting s = false) →
    P { s with line.idle := b } := by exact fun _ _ h _ => h
  attempt : ∀ s : State, P s → mayAttempt s = true → P (beginAttempt s)
  lost : ∀ s : State, P s → attempting s = true → P (retryAttempt s) := by exact fun _ h _ => h
  error : ∀ s : State, P s → attempting s = true → P (countError (retryAttempt s))
  sent : ∀ s : State, P s → attempting s = true → P (lapseCond .line (attemptSent s))
  muteEnd : ∀ s : State, P s → P { s with line.muted := false, line.muteTimer := none } := by
    exact fun _ h => h
  busyEnd : ∀ s : State, P s → P (countError { s with line.busyTimer := none })

/-- What the peer table asks of a property (chapter 7). -/
structure PeerKeeps (P : State → Prop) : Prop where
  duplicate : ∀ s : State, P s → P (ownNumberHeard s)
  arrival : ∀ (n payload : Nat) (r : Report) (s : State), P s → decodeReport payload = some r →
    P (handArrival n { s with peers.records := enterReport n r s.peers.records })
  sweep : ∀ s : State, P s → P (ageSweep (requestReport .periodic
    { s with line.reportTimer := some (s.now + s.setup.reportPeriod) }))

/-- What setup and the join ask of a property (chapter 9); a good commit leaves `Q` of it. -/
structure SetupKeeps (P : State → Prop) (Q : State → Prop := P) : Prop where
  stage : ∀ (id : Nat) (v : Int) (s : State), P s → s.ctl.mode = .setup → itemListed id = true →
    P (stageItem id v s) := by exact fun _ _ _ h _ _ => h
  refuseCommit : ∀ (c : CommitResult) (s : State), P s → s.ctl.mode = .setup → P (refuseCommit c s) := by
    exact fun _ _ h _ => h
  commit : ∀ (check : Nat) (s : State), P s → s.ctl.mode = .setup → judgeCommit check s = none →
    Q (goodCommit s)
  request : ∀ s : State, P s → s.join.requestTimer.isSome = true →
    P (requestSetup { s with join.requestTimer := some (s.now + Config.requestPeriod) }) := by
      exact fun _ h _ => h
  window : ∀ s : State, P s → s.join.windowTimer.isSome = true → P (lockStation
    { s with join.stage := .closed, join.windowTimer := none, join.requestTimer := none })
  listen : ∀ s : State, P s → s.join.listenTimer.isSome = true → P (decideJoin s)

/-- What the supervisor asks of a property, the field supply apart (chapter 10), the unlatching of entries only
where `clears`. -/
structure GuardKeeps (P : State → Prop) (clears : Prop) : Prop where
  clear : clears → ∀ s : State, P s → s.ctl.mode.takesCommands = true → P (clearFaults s)
  loopAsserted : ∀ s : State, P s → s.sup.loopSensed = false →
    P (raiseCond .haltLoop { s with sup.loopSensed := true })
  loopReleased : clears → ∀ s t : State, P s → s.sup.loopSensed = true →
    t = lapseCond .haltLoop { s with sup.loopSensed := false } →
    P (if t.sup.clearPending then closeClear t (unlatchHalt t) else t)
  clearLapse : ∀ s : State, P s → P { s with sup.clearPending := false, sup.clearTimer := none } := by
    exact fun _ h => h
  crystalIdle : ∀ s : State, P s → s.sup.onCrystal = false →
    P { s with sup.crystalTimer := none } := by exact fun _ h _ => h
  crystalStops : ∀ s : State, P s → s.sup.onCrystal = true →
    P (raiseCond .clockFallback { s with sup.crystalTimer := none, sup.onCrystal := false })
  crystalRuns : ∀ (d : Timer) (s : State), P s → s.sup.onCrystal = false →
    P { s with sup.crystalTimer := d } := by exact fun _ _ h _ => h
  crystalBack : ∀ s : State, P s →
    P (lapseCond .clockFallback { s with sup.crystalTimer := none, sup.onCrystal := true })

/-- What the field supply asks of a property (R17, R194). -/
structure SupplyKeeps (P : State → Prop) : Prop where
  supplyLow : ∀ s t : State, P s → s.sup.supplyLow = false →
    t = raiseCond .supplyLow { s with sup.supplyLow := true } →
    P (if t.ctl.mode = .reduced then t
      else creditStrokes t (updateAll (Channel.reduce t.now) (enterReduced t)))
  supplyRecovery : ∀ s t : State, P s → s.sup.supplyLow = true →
    t = lapseCond .supplyLow { s with sup.supplyLow := false } →
    P (if t.ctl.mode = .reduced then
        enterMode (returnTo t) (updateAll (Channel.recover t.setup t.now) { t with plan.ramp := 0 })
      else t)

/-- What the commands ask of a property, family by family. A part that leaves the property's items alone is
filled in by computation. A property that need not outlast a plan event, or that entries are unlatched, is asked
nothing of them: `plans` and `clears` are what says so. One that need not outlast a commit leaves `Q` there. -/
structure Keeps (P : State → Prop) (plans clears : Prop := True) (Q : State → Prop := P) : Prop where
  steer : Steering P
  expire : ∀ (d : Timer) (s : State), P s → P (expireAt d s) := by exact fun _ _ h => h
  refuse : ∀ (c : RefusalCause) (s : State), P s → P (refuseStart c s) := by exact fun _ _ h => h
  scale : ∀ (r : Nat) (s : State), r ≤ Config.rateScaleMax → P s → P { s with ctl.rateScale := r } := by
    exact fun _ _ _ h => h
  jacks : JackKeeps P plans
  concrete : ConcreteKeeps P
  line : LineKeeps P
  peers : PeerKeeps P
  setup : SetupKeeps P Q
  guards : GuardKeeps P clears
  supply : SupplyKeeps P

/-- The events that raise a plan event (R85, R86). -/
def mayPlan : Instr → Bool
  | .cycleTimerExpiry | .cycleCompletion => true
  | _ => false

/-- The commands and the event that unlatch entries (R190, R193). -/
def mayUnlatch : Instr → Bool
  | .clear _ _ _ | .localClear _ | .haltLoopSensedReleased => true
  | _ => false

/-- The command that may bring a record into force (R167). -/
def mayCommit : Instr → Bool
  | .setupCommit _ _ _ => true
  | _ => false

section
variable {P Q : State → Prop} {plans clears : Prop} {s : State}

theorem ite_keeps {p : Prop} [Decidable p] {t u : State} (ht : p → P t) (hu : ¬p → P u) :
    P (if p then t else u) := by
  split
  · exact ht ‹_›
  · exact hu ‹_›

theorem Keeps.startStation (K : Keeps P plans clears Q) (h : P s) : P (startStation s) := by
  cases hm : s.ctl.mode with
  | standing =>
    cases hc : startRefusal s with
    | some c =>
      rw [startStation_refused hm hc]
      exact K.refuse c s h
    | none =>
      rw [startStation_taken hm hc]
      exact K.steer.start s h hm hc
  | climbing | paused | stopped | topped =>
    rw [startStation_idle (by simp [hm])]
    exact h
  | setup | locked | joining | reduced =>
    rw [startStation_notReady (by simp [hm])]
    exact K.refuse _ s h

theorem Keeps.resumeStation (K : Keeps P plans clears Q) (h : P s) (k : Nat) : P (resumeStation k s) := by
  refine ite_keeps (fun _ => h) fun ht => ?_
  have takes : s.ctl.mode.takesCommands = true := by simpa using ht
  refine ite_keeps (fun _ => K.steer.resume s h takes) fun _ => ite_keeps (fun hk => ?_) fun _ => h
  exact ite_keeps (fun hs => K.steer.segment k s h takes hk.1 hk.2 hs) fun _ => h

theorem Keeps.sortReport (K : Keeps P plans clears Q) (h : P s) (n payload : Nat) :
    P (sortReport n (decodeReport payload) s) := by
  refine ite_keeps (fun _ => K.peers.duplicate s h) fun _ => ?_
  cases hr : decodeReport payload with
  | none => exact h
  | some r => exact ite_keeps (fun _ => K.peers.arrival n payload r s h hr) fun _ => h

theorem Keeps.setupCommit (K : Keeps P plans clears Q) (hq : ∀ u : State, Q u → P u) (h : P s)
    (hm : s.ctl.mode = .setup) (check : Nat) :
    P (match judgeCommit check s with
      | some c => Machine.refuseCommit c s
      | none => goodCommit s) := by
  split
  · exact K.setup.refuseCommit _ s h hm
  · exact hq _ (K.setup.commit check s h hm ‹_›)

theorem Keeps.cureSample (K : Keeps P plans clears Q) (h : P s) (reading : SensorReading) :
    P (judgeTemperature (cureReading (tickCure s) reading).isSome
      (applyCure
        (match cureReading (tickCure s) reading with
        | some raw => temperatureRead raw (tickCure s)
        | none => temperatureMissed (tickCure s)))) := by
  cases hr : cureReading (tickCure s) reading with
  | none => exact K.concrete.cureMissed s h
  | some raw =>
    refine K.concrete.cureRead raw s h ?_
    unfold cureReading temperatureValue at hr
    split at hr
    · cases hr
    · split at hr
      · cases hr
      · split at hr
        · cases hr; assumption
        · cases hr

theorem probeValue_le {form d : Nat} {reading : SensorReading} (h : probeValue form reading = some d) :
    d ≤ form := by
  unfold probeValue at h
  split at h
  · cases h
  · split at h
    · cases h
      omega
    · cases h

theorem Keeps.probeSample (K : Keeps P plans clears Q) (h : P s) (hm : s.ctl.mode ≠ .reduced)
    (reading : SensorReading) :
    P (match probeValue s.setup.formHeight reading with
      | some depth => Machine.probeGood depth s
      | none => Machine.probeBad s) := by
  split
  · exact K.concrete.probeGood _ s h hm (probeValue_le ‹_›)
  · exact K.concrete.probeBad s h

/-- Every command but a reset answers the close of a state with a property that its parts keep. -/
theorem Keeps.answers (K : Keeps P plans clears Q) (h : P s) {i : Instr} (hi : i.isReset = false)
    (hp : mayPlan i = true → plans := by exact fun _ => trivial)
    (hu : mayUnlatch i = true → clears := by exact fun _ => trivial)
    (hq : mayCommit i = true → ∀ u : State, Q u → P u := by exact fun _ _ k => k) : Answers P i s := by
  cases i with
  | start => exact ⟨_, rfl, ite_keeps (fun _ => K.startStation h) fun _ => h⟩
  | stop =>
    exact ⟨_, rfl, ite_keeps (fun _ => ite_keeps (fun hm => K.steer.stop s h hm) fun _ => h) fun _ => h⟩
  | pause =>
    exact ⟨_, rfl, ite_keeps (fun _ => ite_keeps (fun hm => K.steer.pause s h hm) fun _ => h) fun _ => h⟩
  | resume => exact ⟨_, rfl, ite_keeps (fun _ => K.resumeStation h _) fun _ => h⟩
  | clear =>
    exact ⟨_, rfl, ite_keeps (fun _ => ite_keeps (fun hm => K.guards.clear (hu rfl) s h hm) fun _ => h) fun _ => h⟩
  | localClear =>
    exact ⟨_, rfl, ite_keeps (fun _ => ite_keeps (fun hm => K.guards.clear (hu rfl) s h hm) fun _ => h) fun _ => h⟩
  | rateScale =>
    exact ⟨_, rfl, ite_keeps
      (fun _ => ite_keeps (fun _ => K.scale _ s (Nat.min_le_left _ _) h) fun _ => h) fun _ => h⟩
  | feedHold =>
    exact ⟨_, rfl, ite_keeps (fun _ => ite_keeps
      (fun hm => K.concrete.feedHold _ s h (Bool.and_eq_true_iff.mp hm).1) fun _ => h) fun _ => h⟩
  | report => exact ⟨_, rfl, K.sortReport h _ _⟩
  | setupData =>
    exact ⟨_, rfl, ite_keeps (fun hm => K.setup.stage _ _ s h hm.1 hm.2.2) fun _ => h⟩
  | setupCommit => exact ⟨_, rfl, ite_keeps (fun hm => K.setupCommit (hq rfl) h hm.1 _) fun _ => h⟩
  | peerSetupRequest => exact ⟨_, rfl, h⟩
  | frameDiscarded => exact ⟨_, rfl, h⟩
  | powerOnReset => cases hi
  | brownOutReset => cases hi
  | setupRequestTimerExpiry =>
    exact ⟨_, rfl, ite_keeps (fun ht => K.setup.request _ (K.expire _ s h) ht) fun _ => h⟩
  | windowExpiry => exact ⟨_, rfl, ite_keeps (fun ht => K.setup.window _ (K.expire _ s h) ht) fun _ => h⟩
  | joinListenExpiry => exact ⟨_, rfl, ite_keeps (fun ht => K.setup.listen _ (K.expire _ s h) ht) fun _ => h⟩
  | cycleTimerExpiry =>
    refine ⟨_, rfl, ite_keeps (fun ht => ?_) fun _ => h⟩
    obtain ⟨-, hm⟩ := Bool.and_eq_true_iff.mp ht
    have expired := K.expire s.seq.cycleTimer s h
    exact ite_keeps (fun hr => K.jacks.plan (hp rfl) _ expired hm hr) fun _ => K.jacks.hold _ expired hm
  | cycleCompletion =>
    refine ⟨_, rfl, ite_keeps (fun ht => ?_) fun _ => h⟩
    obtain ⟨hm, hr⟩ := Bool.and_eq_true_iff.mp ht
    exact K.jacks.plan (hp rfl) s h (Bool.and_eq_true_iff.mp hm).2 hr
  | bankBStart => exact ⟨_, rfl, ite_keeps (fun ht => K.jacks.bankB s h ht) fun _ => h⟩
  | deferredValveOpening ch =>
    refine ⟨_, rfl, ite_keeps (fun ht => ?_) fun _ => h⟩
    obtain ⟨d, hd⟩ := Option.isSome_iff_exists.mp ht
    exact K.jacks.opening ch d _ (K.expire _ s h) hd (by simp [hd])
  | transducerReading => exact ⟨_, rfl, ite_keeps (fun ht => K.jacks.read _ _ s h ht) fun _ => h⟩
  | tExtExpiry ch =>
    refine ⟨_, rfl, ite_keeps (fun ht => ?_) fun _ => h⟩
    exact K.jacks.extendEnd ch _ (K.expire _ s h) (beq_iff_eq.mp (Bool.and_eq_true_iff.mp ht).1)
  | holdEnd ch =>
    refine ⟨_, rfl, ite_keeps (fun ht => ?_) fun _ => h⟩
    exact K.jacks.holdEnd ch _ (K.expire _ s h) (beq_iff_eq.mp (Bool.and_eq_true_iff.mp ht).1)
  | tRetExpiry ch =>
    refine ⟨_, rfl, ite_keeps (fun ht => ?_) fun _ => h⟩
    simp only [Bool.and_eq_true, beq_iff_eq] at ht
    exact K.jacks.retractEnd ch _ (K.expire _ s h) ht.1.1
  | blindRetractionEnd ch =>
    refine ⟨_, rfl, ite_keeps (fun ht => ?_) fun _ => h⟩
    simp only [Bool.and_eq_true, beq_iff_eq] at ht
    have expired := K.expire (s.chan ch).strokeTimer s h
    exact ite_keeps (fun _ => K.jacks.blindHeld ch _ expired ht.1.1) fun _ => K.jacks.blindFree ch _ expired ht.1.1
  | cureSampleEvent => exact ⟨_, rfl, K.cureSample h _⟩
  | probeSample =>
    refine ⟨_, rfl, ite_keeps (fun _ => K.concrete.probeTick s h) fun hm => ?_⟩
    exact K.probeSample (K.concrete.probeTick s h) (fun e => hm (.inl e)) _
  | blankTimerExpiry => exact ⟨_, rfl, K.concrete.blankEnd _ (K.expire _ s h)⟩
  | settleTimerExpiry => exact ⟨_, rfl, ite_keeps (fun ht => K.concrete.settle _ (K.expire _ s h) ht) fun _ => h⟩
  | feedTimerExpiry => exact ⟨_, rfl, ite_keeps (fun ht => K.concrete.feedEnd _ (K.expire _ s h) ht) fun _ => h⟩
  | reportTimerExpiry => exact ⟨_, rfl, K.peers.sweep _ (K.expire _ s h)⟩
  | lineIdle =>
    exact ⟨_, rfl, ite_keeps (fun _ => h) fun ht => K.line.level true s h fun _ => by simpa using ht⟩
  | attemptStart => exact ⟨_, rfl, ite_keeps (fun ht => K.line.attempt s h ht) fun _ => h⟩
  | arbitrationLost => exact ⟨_, rfl, ite_keeps (fun ht => K.line.lost s h ht) fun _ => h⟩
  | transmitError => exact ⟨_, rfl, ite_keeps (fun ht => K.line.error s h ht) fun _ => h⟩
  | sentWhole => exact ⟨_, rfl, ite_keeps (fun ht => K.line.sent s h ht) fun _ => h⟩
  | muteTimerExpiry => exact ⟨_, rfl, ite_keeps (fun _ => K.line.muteEnd _ (K.expire _ s h)) fun _ => h⟩
  | busyLineTimerExpiry => exact ⟨_, rfl, ite_keeps (fun _ => K.line.busyEnd _ (K.expire _ s h)) fun _ => h⟩
  | haltLoopSensedAsserted =>
    exact ⟨_, rfl, ite_keeps (fun _ => h) fun ht => K.guards.loopAsserted s h (Bool.eq_false_iff.mpr ht)⟩
  | haltLoopSensedReleased =>
    exact ⟨_, rfl, ite_keeps (fun ht => K.guards.loopReleased (hu rfl) s _ h ht rfl) fun _ => h⟩
  | clearPendingTimerExpiry =>
    exact ⟨_, rfl, ite_keeps (fun _ => K.guards.clearLapse _ (K.expire _ s h)) fun _ => h⟩
  | supplyLow =>
    exact ⟨_, rfl, ite_keeps (fun _ => h) fun ht => K.supply.supplyLow s _ h (Bool.eq_false_iff.mpr ht) rfl⟩
  | supplyRecovery => exact ⟨_, rfl, ite_keeps (fun ht => K.supply.supplyRecovery s _ h ht rfl) fun _ => h⟩
  | inhibitAsserted =>
    exact ⟨_, rfl, ite_keeps (fun _ => h) fun ht => K.jacks.inhibitOn s h (Bool.eq_false_iff.mpr ht)⟩
  | inhibitReleased => exact ⟨_, rfl, ite_keeps (fun ht => K.jacks.inhibitOff s h ht) fun _ => h⟩
  | crystalStopped =>
    exact ⟨_, rfl, ite_keeps (fun ht => K.guards.crystalStops s h ht) fun ht =>
      K.guards.crystalIdle s h (Bool.eq_false_iff.mpr ht)⟩
  | crystalCycleSeen =>
    refine ⟨_, rfl, ite_keeps (fun ht => ?_) fun _ => h⟩
    exact K.guards.crystalRuns _ s h (by simpa using (Bool.and_eq_true_iff.mp ht).1)
  | crystalRunTimerExpiry =>
    exact ⟨_, rfl, ite_keeps (fun _ => K.guards.crystalBack _ (K.expire _ s h)) fun _ => h⟩
  | lineNotIdle => exact ⟨_, rfl, K.line.level false s h nofun⟩

end

end Sys2Proof.Machine
end

section
/-! PROOFS. The commands of each family from their parts: what a property keeps of the parts of the feed, of a
CLEAR, of an arrival, of a commit, of a join's end and of the supply's changes it keeps of the whole. -/

namespace Sys2Proof.Machine

-- In order, so that the proofs waiting on one another do not hold a stack each.
set_option Elab.async false

/-! ### The feed -/

/-- The changes of the feed state with what each finds. -/
structure FeedParts (P : State → Prop) : Prop where
  ask : ∀ s : State, P s → s.feed.state = .idle → feedAllowed s = true → P (enterAsking s) := by
    exact fun _ h _ _ => h
  leave : ∀ s : State, P s → s.feed.state = .asking → P (leaveAsking s) := by exact fun _ h _ => h
  close : ∀ (n : FeedState) (s : State), P s → s.feed.state = .opened → n ≠ .opened →
    P (closeGate n s) := by exact fun _ _ h _ _ => h
  opens : ∀ s : State, P s → s.feed.state = .asking → P (openGate s) := by exact fun _ h _ => h

section
variable {P : State → Prop} {C : Cond → Bool} {s : State}

theorem FeedParts.askIfShort (F : FeedParts P) (h : P s) : P (askIfShort s) := by
  rcases askIfShort_cases s with ⟨hi, ha, -, e⟩ | ⟨-, e⟩ <;> rw [e]
  · exact F.ask s h hi ha
  · exact h

theorem FeedParts.rejudge (F : FeedParts P) (was : Bool) (h : P s) : P (rejudgeFeed was s) := by
  rcases rejudgeFeed_cases was s with ⟨-, -, e⟩ | ⟨-, -, e⟩ | ⟨-, -, e⟩ | ⟨-, hf, e⟩ | ⟨-, hf, e⟩ <;>
    rw [e]
  · exact h
  · exact F.askIfShort h
  · exact h
  · exact F.leave s h hf
  · exact F.close .idle s h hf nofun

/-- An entry to a mode from the mode taken and the feed. -/
theorem FeedParts.enter (F : FeedParts P) {m : Mode}
    (h : P (takeMode (settle m (entryPause m s) s).1 (settle m (entryPause m s) s).2
      (if m = .climbing then { s with plan.ramp := 0 } else s))) : P (enterMode m s) := by
  rw [enterMode_eq]
  exact F.rejudge _ h

theorem FeedParts.admitIfSettled (F : FeedParts P) (h : P s) : P (admitIfSettled s) :=
  ite_keeps (fun hs => ite_keeps (fun _ => F.opens s h hs.1) fun _ => h) fun _ => h

theorem FeedParts.arrival (F : FeedParts P) (h : P s) : P (feedArrival s) := by
  unfold feedArrival
  split
  · exact h
  · exact F.admitIfSettled h
  · exact ite_keeps (fun hs => F.close .asking s h hs.1 nofun) fun _ => h

theorem FeedParts.sampleDecision (F : FeedParts P) (M : Moves P C) (depth : Nat) (h : P s)
    (hc : C .feedTimeout = true := by rfl) : P (sampleDecision depth s) := by
  unfold Machine.sampleDecision
  split
  · exact F.askIfShort h
  · exact ite_keeps (fun _ => F.leave s h ‹_›) fun _ => h
  · exact ite_keeps (fun _ => M.lapse _ hc (F.close .idle s h ‹_› nofun)) fun _ => h

theorem FeedParts.probeGood (F : FeedParts P) (M : Moves P C) (depth : Nat)
    (taken : P { s with feed.depth := some depth, feed.probeValid := true })
    (sampled : ∀ t : State, P t → t.setup = s.setup → t.heightSet = true → P (stackSample depth t) := by
      exact fun _ k _ _ => k)
    (hp : C .probe = true := by rfl) (hc : C .feedTimeout = true := by rfl) : P (probeGood depth s) := by
  have lapsed := M.lapse _ hp taken
  have inForce : (lapseCond .probe { s with feed.depth := some depth, feed.probeValid := true }).setup = s.setup :=
    (aside_lapseCond _ _).setup
  exact F.sampleDecision M depth (ite_keeps (fun k => sampled _ lapsed inForce k) fun _ => lapsed) hc

theorem FeedParts.probeBad (F : FeedParts P) (M : Moves P C)
    (lost : P { s with feed.probeValid := false }) (hp : C .probe = true := by rfl) :
    P (probeBad s) :=
  M.raise _ hp (F.rejudge _ lost)

/-! ### CLEAR (R190) -/

theorem Moves.closeClear (M : Moves P C) (before : State) (h : P s)
    (keep : ∀ (b : Bool) (t : State), P t → P (keepChange b t) := by exact fun _ _ k => k) :
    P (Machine.closeClear before s) := by
  refine keep _ _ (ite_keeps (fun hm => ?_) fun _ => h)
  exact M.enter _ s h (by simp [hm.2.2, Mode.takesCommands]) rfl

theorem withdrawSpread_keeps (lapse : ∀ t : State, P t → P (lapseCond .jackSpread t)) (h : P s) :
    P (withdrawSpread s) := by
  unfold withdrawSpread
  split
  case h_4 => exact h
  all_goals exact lapse s h

theorem clearHalt_keeps (h : P s)
    (wait : ∀ (d : Timer) (t : State), P t → P { t with sup.clearPending := true, sup.clearTimer := d } := by
      exact fun _ _ k => k)
    (leave : ∀ t : State, P t → P (unlatchHalt t) := by exact fun _ k => k) : P (clearHalt s) :=
  ite_keeps (fun _ => ite_keeps (fun _ => wait _ s h) fun _ => leave s h) fun _ => h

theorem releaseDrive_keeps (h : P s)
    (drop : ∀ t : State, P t → P { t with sup.drive := false } := by exact fun _ k => k) :
    P (releaseDrive s) :=
  ite_keeps (fun _ => h) fun _ => drop s h

/-- A CLEAR keeps what its seven steps keep. -/
theorem Moves.clear (M : Moves P C) (h : P s)
    (unlatch : ∀ t : State, P t → P (unlatchAbsent t) := by exact fun _ k => k)
    (drop : ∀ t : State, P t → P { t with sup.drive := false } := by exact fun _ k => k)
    (wait : ∀ (d : Timer) (t : State), P t → P { t with sup.clearPending := true, sup.clearTimer := d } := by
      exact fun _ _ k => k)
    (leave : ∀ t : State, P t → P (unlatchHalt t) := by exact fun _ k => k)
    (free : ∀ before t : State, P t → P (freeChannels before t) := by exact fun _ _ k => k)
    (keep : ∀ (b : Bool) (t : State), P t → P (keepChange b t) := by exact fun _ _ k => k)
    (hj : C .jackSpread = true := by rfl) : P (clearFaults s) := by
  have withdrawn := withdrawSpread_keeps (fun _ k => M.lapse _ hj k) h
  have cleared := clearHalt_keeps (releaseDrive_keeps (unlatch _ withdrawn) drop) wait leave
  exact M.closeClear _ (free _ _ cleared) keep

/-! ### The peer table (chapter 7) -/

theorem joinIfWaiting_keeps (h : P s)
    (decide : s.join.state = .waitingForLink → P (decideJoin s)) : P (joinIfWaiting s) :=
  ite_keeps decide fun _ => h

theorem Moves.duplicate (M : Moves P C) (h : P s)
    (heard : ∀ t : State, P t → P { t with peers.dupMiss := 0, peers.dupHeard := true } := by
      exact fun _ k => k)
    (hd : C .duplicateNumber = true := by rfl) : P (ownNumberHeard s) :=
  M.raise _ hd (heard s h)

/-- An arrival keeps what its receivers keep, from the record entered. -/
theorem Moves.handArrival (M : Moves P C) (n : Nat) (h : P s)
    (feed : ∀ t : State, P t → P (feedArrival t))
    (join : ∀ t : State, P t → t.join.state = .waitingForLink → P (decideJoin t))
    (hn : C .neighbourLost = true := by rfl) (hp : C .peerSilent = true := by rfl)
    (ht : C .tilt = true := by rfl) : P (Machine.handArrival n s) := by
  have judged := M.judgePeers (feed s h) hn hp
  have checked := M.checkRejoin
    (ite_keeps (p := (Machine.judgePeers (feedArrival s)).peers.links.contains n = true)
      (fun _ => M.judgeTilt judged ht) fun _ => judged)
  exact joinIfWaiting_keeps checked (join _ checked)

theorem Moves.ageDuplicate (M : Moves P C) (h : P s)
    (hear : ∀ t : State, P t → P { t with peers.dupHeard := false } := by exact fun _ k => k)
    (miss : ∀ t : State, P t → P { t with peers.dupMiss := t.peers.dupMiss + 1 } := by exact fun _ k => k)
    (hd : C .duplicateNumber = true := by rfl) : P (Machine.ageDuplicate s) :=
  ite_keeps (fun _ => ite_keeps (fun _ => hear s h) fun _ =>
    ite_keeps (fun _ => M.lapse _ hd (miss s h)) fun _ => miss s h) fun _ => h

/-- A sweep keeps what its receivers keep, from the records aged. -/
theorem Moves.ageSweep (M : Moves P C)
    (aged : P (Machine.ageDuplicate { s with peers.records := s.peers.records.map (Peer.age s.setup.missLimit) }))
    (feed : ∀ t : State, P t → P (admitIfSettled t))
    (join : ∀ t : State, P t → t.join.state = .waitingForLink → P (decideJoin t))
    (hn : C .neighbourLost = true := by rfl) (hp : C .peerSilent = true := by rfl) :
    P (Machine.ageSweep s) := by
  have checked := M.checkRejoin (feed _ (M.judgePeers aged hn hp))
  exact joinIfWaiting_keeps checked (join _ checked)

/-! ### Setup and the join (chapter 9) -/

theorem Moves.commit (M : Moves P C) (h : P s)
    (take : P s → P (takeCommit s) := by exact fun k => k)
    (joining : ∀ t : State, P t → P (enterMode .joining t))
    (bring : ∀ t : State, P t → t.ctl.mode = .joining → P (bringIntoForce t) := by exact fun _ k _ => k)
    (hn : C .neighbourLost = true := by rfl) (hp : C .peerSilent = true := by rfl) :
    P (goodCommit s) := by
  refine M.judgePeers (bring _ (joining _ (take h)) ?_) hn hp
  rw [enterMode_mode]
  rfl

theorem lockStation_keeps (h : P s)
    (enter : s.ctl.mode = .setup → P (enterMode .locked s))
    (back : P s → s.ctl.mode = .reduced → P { s with
        ctl.returnMode := some .locked
        line.setupRequest := s.line.setupRequest.leaveSetup } := by exact fun k _ => k) :
    P (lockStation s) := by
  unfold lockStation
  split
  · exact enter ‹_›
  · exact ite_keeps (fun _ => back h ‹_›) fun _ => h
  · exact h

/-- What the parts of a join's end ask of a property. -/
structure JoinParts (P : State → Prop) : Prop where
  wait : ∀ s : State, P s → P { s with join.state := .waitingForLink, join.listenTimer := none } := by
    exact fun _ h => h
  fresh : ∀ s : State, P s →
    P { setHeights s.setup.programStart s with seq.strokeCount := 0, stack.layers := [] } := by
    exact fun _ h => h
  adopt : ∀ s : State, P s → P (removeExited
    (adoptStack (adoptedHeight s) (adoptedMaturity s) (setHeights (adoptedHeight s) s)))
  report : ∀ s : State, P s → P (requestReport .urgent s) := by exact fun _ h => h
  arm : ∀ s : State, P s → P { s with join.state := .done, join.listenTimer := none, sup.armed := true } := by
    exact fun _ h => h
  leave : ∀ (m : Mode) (s : State), P s → m.takesCommands = true → s.ctl.mode ≠ .reduced →
    P (enterMode m s)
  back : ∀ (m : Mode) (p : PauseSet) (s : State), P s → m.takesCommands = true →
    s.ctl.mode = .reduced → P (keepChange true { s with ctl.returnMode := some m, ctl.pause := p }) := by
    exact fun _ _ _ h _ _ => h

theorem Moves.armOne (M : Moves P C) (c : Cond) (hc : C c = true) (h : P s) : P (armOne c s) :=
  ite_keeps (fun k => M.latch c s hc h (Bool.and_eq_true_iff.mp k).2) fun _ => h

theorem outcomeMode_takesCommands (o : JoinOutcome) (s : State) :
    (outcomeMode o s).takesCommands = true := by
  have either : ∀ m : Mode, m.takesCommands = true →
      (if s.noneLatched = true then m else .stopped).takesCommands = true := by
    intro m hm
    split
    · exact hm
    · rfl
  unfold outcomeMode
  split
  · exact either _ rfl
  · exact either _ rfl
  · split
    · rfl
    · rfl
    · exact either _ rfl
    · exact either _ rfl

theorem JoinParts.decide (J : JoinParts P) (M : Moves P C) (h : P s)
    (hj : C .jackSpread = true := by rfl) (hn : C .neighbourLost = true := by rfl)
    (hp : C .peerSilent = true := by rfl) (ht : C .tilt = true := by rfl) : P (decideJoin s) := by
  have applied : ∀ o : JoinOutcome, P (applyOutcome o s) := by
    intro o
    cases o with
    | fresh => exact M.judgeSpread (J.fresh s h) hj
    | adoption => exact J.report _ (M.judgeSpread (J.adopt s h) hj)
    | restore => exact h
  have armed : ∀ o : JoinOutcome, P (armDeck (applyOutcome o s)) := fun o =>
    M.armOne _ ht (M.armOne _ hp (M.armOne _ hn (J.arm _ (applied o))))
  unfold decideJoin
  split
  · rename_i o _
    unfold endJoin takeOutcome
    dsimp only
    split
    · exact M.checkRejoin (J.back _ _ _ (armed o) (outcomeMode_takesCommands o _) ‹_›)
    · refine M.checkRejoin (J.leave _ _ (M.pause _ _ (armed o)) (outcomeMode_takesCommands o _) ?_)
      assumption
  · exact J.wait s h

/-! ### The deck line, the supervisor and the field supply -/

theorem countError_keeps (raise : ∀ t : State, P t → P (raiseCond .line t)) (h : P s)
    (count : ∀ (n : Nat) (t : State), P t → n ≤ Config.errorLimit → P { t with line.errors := n } := by
      exact fun _ _ k _ => k)
    (mute : ∀ (d : Nat) (t : State), P t → P { t with line.muted := true, line.muteTimer := some d } := by
      exact fun _ _ k => k) : P (countError s) := by
  have counted := count (min Config.errorLimit (s.line.errors + 1)) s h (Nat.min_le_left _ _)
  exact ite_keeps (fun _ => raise _ (mute _ _ counted)) fun _ => counted

theorem beginAttempt_keeps (h : P s)
    (report : ∀ p : Prio, P s → s.line.report = .pending p → P { s with
      line.report := .sending p none, line.idle := false, line.frame := some (reportFrame p s) } := by
        exact fun _ k _ => k)
    (request : P s → s.line.setupRequest = .pending → P { s with
      line.setupRequest := .sending, line.idle := false, line.frame := some (requestFrame s) } := by
        exact fun k _ => k) : P (beginAttempt s) := by
  unfold beginAttempt
  split
  · exact report _ h ‹_›
  · exact request h ‹_›
  · exact h

theorem Moves.loopAsserted (M : Moves P C) (h : P s)
    (sense : ∀ t : State, P t → P { t with sup.loopSensed := true } := by exact fun _ k => k)
    (hc : C .haltLoop = true := by rfl) : P (raiseCond .haltLoop { s with sup.loopSensed := true }) :=
  M.raise _ hc (sense s h)

theorem Moves.loopReleased (M : Moves P C) {t : State} (h : P s)
    (e : t = lapseCond .haltLoop { s with sup.loopSensed := false })
    (sense : ∀ t : State, P t → P { t with sup.loopSensed := false } := by exact fun _ k => k)
    (leave : ∀ t : State, P t → P (unlatchHalt t) := by exact fun _ k => k)
    (keep : ∀ (b : Bool) (t : State), P t → P (keepChange b t) := by exact fun _ _ k => k)
    (hc : C .haltLoop = true := by rfl) :
    P (if t.sup.clearPending then Machine.closeClear t (unlatchHalt t) else t) := by
  have released : P t := e ▸ M.lapse _ hc (sense s h)
  exact ite_keeps (fun _ => M.closeClear _ (leave _ released) keep) fun _ => released

/-- The entry to REDUCED before the permission to feed is judged again. -/
def toReduced (s : State) : State :=
  requestReport .urgent
    { s with
      ctl.returnMode := some s.ctl.mode
      ctl.mode := .reduced
      plan.last := .blank
      seq.cycleTimer := none
      seq.expiryHeld := false }

/-- The attempt under way is cut at the entry to REDUCED (R159), which station mode `m` was in. -/
def cutAttempt (m : Mode) (s : State) : State :=
  { s with
    line.report := s.line.report.retry
    line.setupRequest :=
      match s.line.setupRequest with
      | .sending => if m = .setup then .pending else .empty
      | r => r
    line.frame := none }

theorem enterReduced_eq (s : State) :
    enterReduced s = cutAttempt s.ctl.mode (rejudgeFeed (feedAllowed s) (toReduced s)) := rfl

theorem aside_enterReduced (s : State) : Aside s (enterReduced s) := by
  have fallen : Aside s (toReduced s) := ⟨rfl, rfl, rfl, rfl, rfl, ⟨_, _, rfl⟩, rfl⟩
  have judged := fallen.trans (aside_rejudgeFeed (feedAllowed s) (toReduced s))
  rw [enterReduced_eq]
  exact judged.trans ⟨rfl, rfl, rfl, rfl, rfl, ⟨_, _, rfl⟩, rfl⟩

theorem FeedParts.enterReduced (F : FeedParts P) (h : P s)
    (fall : P s → P (toReduced s) := by exact fun k => k)
    (cut : ∀ t : State, P t → P (cutAttempt s.ctl.mode t) := by exact fun _ k => k) :
    P (enterReduced s) := by
  rw [enterReduced_eq]
  exact cut _ (F.rejudge _ (fall h))

/-! ### Whole families, for a property that is about other items -/

/-- The ramp count up to date at a plan event (R29). -/
def ramped (s : State) : State :=
  { s with plan.ramp := if s.ctl.mode = .climbing then min 255 (s.plan.ramp + 1) else s.plan.ramp }

theorem raiseRamp_eq (s : State) : raiseRamp s = ramped s := by
  unfold raiseRamp ramped
  split <;> rfl

/-- The state in which the starts of a plan event fall due (R23, R46, R85, R87). -/
def planned (s : State) : State :=
  let t := ramped s
  let p := planOf t
  { t with
    plan.last := p
    seq.strokeCount := if 0 < p.rise then (t.seq.strokeCount + 1) % 65536 else t.seq.strokeCount
    seq.expiryHeld := false
    seq.cycleTimer := some (t.now + t.setup.cycleTime * 1000)
    seq.chans := PerChannel.ofFn fun c => (t.chan c).takeTarget (p.targets.get c) }

theorem planEvent_eq (s : State) :
    planEvent s = startStrokes (keepChange (decide (0 < (planOf (ramped s)).rise)) (planned s)) := by
  unfold planEvent
  rw [raiseRamp_eq]
  rfl

theorem startStrokes_keeps (bank : ∀ (pick : Ch → Bool) (t : State), P t → P (startBank pick t))
    (h : P s) : P (startStrokes s) :=
  ite_keeps (fun _ => ite_keeps (fun _ => bank _ _ (bank _ _ h)) fun _ => bank _ _ h) fun _ => bank _ _ h

/-- What the commands do to a channel of station `s`, one operation at a time, with what each finds; the
operations on every channel at once, which come with a change of the station itself, only where `sweeps`. -/
inductive MovedBy (sweeps : Bool) (s : State) : Channel → Channel → Prop where
  | same (c : Channel) : MovedBy sweeps s c c
  | cut (c : Channel) : MovedBy sweeps s c (Channel.cut s.setup s.now c)
  | startDue (c : Channel) (hs : c.state = .rest) (hp : c.startPending = true) :
      MovedBy sweeps s c (c.startDue s.setup s.now)
  | opened (c : Channel) (d : Nat) (hd : c.deferred = some d) (hn : d ≤ s.now) :
      MovedBy sweeps s c (c.openDeferred s.setup s.now)
  | valid (c : Channel) (v : Nat) (hv : v ≤ 320) :
      MovedBy sweeps s c ((c.takeReading v).actOnValid s.setup s.now (s.ctl.mode == .reduced) v)
  | invalid (c : Channel) :
      MovedBy sweeps s c
        { c.actOnInvalid s.setup s.now (s.ctl.mode == .reduced) with readingValid := false }
  | extended (c : Channel) (hs : c.state = .extend) : MovedBy sweeps s c (c.toHold s.setup s.now)
  | held (c : Channel) (hs : c.state = .hold) : MovedBy sweeps s c (c.endHold s.setup s.now)
  | failed (c : Channel) (hs : c.state = .retract) : MovedBy sweeps s c (c.halt .fault s.now)
  | freed (c : Channel) (hs : c.state = .retract ∨ c.state = .fault) :
      MovedBy sweeps s c (c.leaveFault s.setup s.now s.inhibitInput (s.ctl.mode == .reduced))
  | inhibited (c : Channel) (hw : sweeps = true) : MovedBy sweeps s c (c.inhibit s.now)
  | released (c : Channel) (hw : sweeps = true) :
      MovedBy sweeps s c (c.release s.setup s.now (s.ctl.mode == .reduced))
  | reduced (c : Channel) (hw : sweeps = true) : MovedBy sweeps s c (c.reduce s.now)
  | recovered (c : Channel) (hw : sweeps = true) : MovedBy sweeps s c (c.recover s.setup s.now)

/-- Any operation of a command on a channel. -/
abbrev Moved (s : State) : Channel → Channel → Prop := MovedBy true s

theorem transducerValue_le {reading : SensorReading} {v : Nat} (h : transducerValue reading = some v) :
    v ≤ 320 := by
  unfold transducerValue at h
  split at h
  · cases h
  · split at h
    · rename_i k
      cases h
      have := k.2
      simp only [Config.transducerTop] at this
      omega
    · cases h

/-- What the channels' records ask of a property that keeps with every operation on a channel. A stroke is
credited only in a join state that is `ready`. -/
structure MovedParts (P : State → Prop) (plans : Prop) (sweeps : Bool := true)
    (ready : JoinState → Prop := fun _ => True) : Prop where
  moved : ∀ (q : PerChannel Channel) (s : State), P s →
    (∀ ch : Ch, MovedBy sweeps s (s.chan ch) (q.get ch)) → P { s with seq.chans := q }
  credited : ∀ (c : Ch) (s : State), P s → ready s.join.state → P (keepChange true (creditHeight c s))
  planned : plans → ∀ (b : Bool) (s : State), P s → s.ctl.mode.climbs = true → allAtRest s = true →
    P (keepChange b (planned s))
  hold : ∀ s : State, P s → s.ctl.mode.climbs = true →
    P { s with seq.cycleTimer := none, seq.expiryHeld := true } := by exact fun _ h _ => h

section
variable {plans : Prop} {sweeps : Bool} {ready : JoinState → Prop}

/-- One channel is moved and the others stand. -/
theorem MovedParts.one (H : MovedParts P plans sweeps ready) {ch : Ch} {f : Channel → Channel} (h : P s)
    (hf : MovedBy sweeps s (s.chan ch) (f (s.chan ch))) : P (updateCh ch f s) := by
  refine H.moved _ s h fun d => ?_
  rw [PerChannel.get_set]
  split
  · rename_i e
    exact e ▸ hf
  · exact .same _

theorem MovedParts.all (H : MovedParts P plans sweeps ready) {f : Channel → Channel} (h : P s)
    (hf : ∀ c : Channel, MovedBy sweeps s c (f c)) : P (updateAll f s) := by
  refine H.moved _ s h fun d => ?_
  rw [PerChannel.get_map]
  exact hf _

theorem MovedParts.cut (H : MovedParts P plans sweeps ready) (h : P s) : P (cutExtensions s) := H.all h .cut

theorem MovedParts.startBank (H : MovedParts P plans sweeps ready) (pick : Ch → Bool) (h : P s) :
    P (startBank pick s) := by
  refine H.moved _ s h fun d => ?_
  rw [PerChannel.get_ofFn]
  split
  · unfold Channel.startIfDue
    split
    · rename_i k
      exact .startDue _ k.1 k.2
    · exact .same _
  · exact .same _

theorem MovedParts.free (H : MovedParts P plans sweeps ready) (before : State) (h : P s) :
    P (freeChannels before s) := by
  refine H.moved _ s h fun d => ?_
  rw [PerChannel.get_ofFn]
  split
  · rename_i k
    exact .freed _ (.inr (beq_iff_eq.mp (Bool.and_eq_true_iff.mp k).2))
  · exact .same _

theorem MovedParts.credit (H : MovedParts P plans sweeps ready) (M : Moves P C) (c : Ch) (h : P s)
    (hr : ready s.join.state) (ht : C .tilt = true := by rfl) (hj : C .jackSpread = true := by rfl) :
    P (credit c s) :=
  M.credit (H.credited c s h hr) ht hj

/-- The strokes under way in `before`, which stood at the same join state, are credited. -/
theorem MovedParts.creditStrokes (H : MovedParts P plans sweeps ready) (M : Moves P C) {before : State}
    (hb : ∀ ch : Ch, (before.chan ch).inStroke = true → ready before.join.state)
    (he : s.join.state = before.join.state) (h : P s)
    (ht : C .tilt = true := by rfl) (hj : C .jackSpread = true := by rfl) :
    P (creditStrokes before s) := by
  have both : P (Machine.creditStrokes before s)
      ∧ (Machine.creditStrokes before s).join.state = before.join.state :=
    creditStrokes_keeps (P := fun t => P t ∧ t.join.state = before.join.state)
      (fun c t hs k => ⟨H.credit M c k.1 (k.2 ▸ hb c hs) ht hj, (aside_credit c t).join_state.trans k.2⟩) ⟨h, he⟩
  exact both.1

theorem Channel.inStroke_of_hold {c : Channel} (h : c.state = .hold) : c.inStroke = true := by
  rw [Channel.inStroke, h]
  rfl

/-- The channel commands but for those of the inhibit input. -/
theorem MovedParts.jacksApart (H : MovedParts P plans sweeps ready) (M : Moves P C)
    (inhibitOn : ∀ s : State, P s → s.inhibitInput = false → P (raiseCond .inhibit
      (Machine.creditStrokes s (updateAll (Channel.inhibit s.now) { s with inhibitInput := true }))))
    (inhibitOff : ∀ s : State, P s → s.inhibitInput = true → P (lapseCond .inhibit
      (updateAll (Channel.release s.setup s.now (s.ctl.mode == .reduced)) { s with inhibitInput := false })))
    (stroking : ∀ (s : State) (ch : Ch), P s → (s.chan ch).inStroke = true → ready s.join.state := by
      exact fun _ _ _ _ => trivial)
    (hC : ∀ c : Cond, c.isPlain = true → C c = true := by exact fun _ _ => rfl) : JackKeeps P plans where
  plan hp s h hm hr := by
    rw [planEvent_eq]
    exact startStrokes_keeps (fun _ _ k => H.startBank _ k) (H.planned hp _ s h hm hr)
  hold := H.hold
  bankB _ h _ := H.startBank _ h
  opening _ d _ h hd hn := H.one h (.opened _ d hd hn)
  read ch reading s h _ := by
    unfold readChannel
    split
    · exact M.lapse _ (hC _ rfl) (H.one h (.valid _ _ (transducerValue_le ‹_›)))
    · exact M.raise _ (hC _ rfl) (H.one h (.invalid _))
  extendEnd _ _ h hs := M.raise _ (hC _ rfl) (H.one h (.extended _ hs))
  holdEnd ch s h hs := H.credit M ch (H.one h (.held _ hs)) (stroking s ch h (Channel.inStroke_of_hold hs))
    (hC _ rfl) (hC _ rfl)
  retractEnd _ _ h hs := M.lapse _ (hC _ rfl) (M.raise _ (hC _ rfl) (H.one h (.failed _ hs)))
  blindHeld _ _ h hs := H.one h (.failed _ hs)
  blindFree _ _ h hs := H.one h (.freed _ (.inl hs))
  inhibitOn := inhibitOn
  inhibitOff := inhibitOff

theorem MovedParts.jacksWith (H : MovedParts P plans sweeps ready) (M : Moves P C)
    (inhibitOn : ∀ s : State, P s → s.inhibitInput = false →
      P (updateAll (Channel.inhibit s.now) { s with inhibitInput := true }))
    (inhibitOff : ∀ s : State, P s → s.inhibitInput = true →
      P (updateAll (Channel.release s.setup s.now (s.ctl.mode == .reduced)) { s with inhibitInput := false }))
    (stroking : ∀ (s : State) (ch : Ch), P s → (s.chan ch).inStroke = true → ready s.join.state := by
      exact fun _ _ _ _ => trivial)
    (hC : ∀ c : Cond, c.isPlain = true → C c = true := by exact fun _ _ => rfl)
    (hi : C .inhibit = true := by rfl) : JackKeeps P plans :=
  H.jacksApart M
    (fun s h hs => M.raise _ hi
      (H.creditStrokes M (fun ch k => stroking s ch h k) rfl (inhibitOn s h hs) (hC _ rfl) (hC _ rfl)))
    (fun s h hs => M.lapse _ hi (inhibitOff s h hs)) stroking hC

theorem MovedParts.jacks (H : MovedParts P plans true ready) (M : Moves P C)
    (inhibit : ∀ (b : Bool) (s : State), P s → P { s with inhibitInput := b } := by exact fun _ _ h => h)
    (stroking : ∀ (s : State) (ch : Ch), P s → (s.chan ch).inStroke = true → ready s.join.state := by
      exact fun _ _ _ _ => trivial)
    (hC : ∀ c : Cond, c.isPlain = true → C c = true := by exact fun _ _ => rfl)
    (hi : C .inhibit = true := by rfl) : JackKeeps P plans :=
  H.jacksWith M
    (fun s h _ => H.all (s := { s with inhibitInput := true }) (inhibit true s h) fun c => .inhibited c rfl)
    (fun s h _ => H.all (s := { s with inhibitInput := false }) (inhibit false s h) fun c => .released c rfl)
    stroking hC hi

end

/-- What the channels' records ask of a property that no law ties to them. -/
structure ChannelParts (P : State → Prop) : Prop where
  chans : ∀ (q : PerChannel Channel) (s : State), P s → P { s with seq.chans := q } := by
    exact fun _ _ h => h
  keep : ∀ (b : Bool) (s : State), P s → P (keepChange b s) := by exact fun _ _ h => h
  height : ∀ (h : Nat) (s : State), P s → P { s with seq.height := h } := by exact fun _ _ h => h
  remove : ∀ s : State, P s → P (removeExited s) := by exact fun _ h => h
  planned : ∀ s : State, P s → s.ctl.mode.climbs = true → P (planned s) := by exact fun _ h _ => h
  hold : ∀ s : State, P s → s.ctl.mode.climbs = true →
    P { s with seq.cycleTimer := none, seq.expiryHeld := true } := by exact fun _ h _ => h

theorem ChannelParts.movedParts (H : ChannelParts P) : MovedParts P True where
  moved q s h _ := H.chans q s h
  credited _ s h _ := H.keep _ _ (H.remove _ (H.height _ _ (H.chans _ s h)))
  planned _ _ s h hm _ := H.keep _ _ (H.planned s h hm)
  hold := H.hold

theorem FeedParts.concrete (F : FeedParts P) (M : Moves P C)
    (hold : ∀ (b : Bool) (s : State), P s → P { s with ctl.feedHold := b } := by exact fun _ _ h => h)
    (tick : ∀ s : State, P s → P (tickCure s) := by exact fun _ h => h)
    (read : ∀ (raw : Int) (s : State), P s → P (temperatureRead raw s) := by exact fun _ _ h => h)
    (missed : ∀ s : State, P s → P (temperatureMissed s) := by exact fun _ h => h)
    (apply : ∀ s : State, P s → P (applyCure s) := by exact fun _ h => h)
    (probeTick : ∀ s : State, P s → P (tickProbe s) := by exact fun _ h => h)
    (depth : ∀ (d : Nat) (s : State), P s → d ≤ s.setup.formHeight →
      P { s with feed.depth := some d, feed.probeValid := true } := by exact fun _ _ h _ => h)
    (sampled : ∀ (d : Nat) (s : State), P s → d ≤ s.setup.formHeight → s.heightSet = true → P (stackSample d s) := by
      exact fun _ _ h _ _ => h)
    (invalid : ∀ s : State, P s → P { s with feed.probeValid := false } := by exact fun _ h => h)
    (blankEnd : ∀ s : State, P s → P { s with feed.blankTimer := none } := by exact fun _ h => h)
    (settle : ∀ s : State, P s → P { s with feed.settleTimer := none, feed.settled := true } := by
      exact fun _ h => h)
    (close : ∀ s : State, P s → P (closeGate .idle s) := by exact fun _ h => h)
    (hC : ∀ c : Cond, c.isPlain = true → C c = true := by exact fun _ _ => rfl)
    (ht : C .temperature = true := by rfl) : ConcreteKeeps P where
  feedHold b s h _ := F.rejudge _ (hold b s h)
  cureRead raw s h _ := M.lapse _ ht (apply _ (read raw _ (tick s h)))
  cureMissed s h := by
    have applied := apply _ (missed _ (tick s h))
    exact ite_keeps (fun k => absurd k nofun) fun _ =>
      ite_keeps (fun _ => M.raise _ ht applied) fun _ => applied
  probeTick := probeTick
  probeGood d s h _ hd := F.probeGood M d (depth d s h hd)
    (fun t k e => sampled d t k (e ▸ hd)) (hC _ rfl) (hC _ rfl)
  probeBad s h := M.raise _ (hC _ rfl) (F.rejudge _ (invalid s h))
  blankEnd := blankEnd
  settle s h _ := F.admitIfSettled (settle s h)
  feedEnd s h _ := M.raise _ (hC _ rfl) (close s h)

theorem Moves.line (M : Moves P C)
    (hl : C .line = true := by rfl)
    (level : ∀ (b : Bool) (s : State), P s → P { s with line.idle := b } := by exact fun _ _ h => h)
    (report : ∀ (p : Prio) (s : State), P s → P { s with
      line.report := .sending p none, line.idle := false, line.frame := some (reportFrame p s) } := by
        exact fun _ _ k => k)
    (request : ∀ s : State, P s → P { s with
      line.setupRequest := .sending, line.idle := false, line.frame := some (requestFrame s) } := by
        exact fun _ k => k)
    (retry : ∀ s : State, P s → P (retryAttempt s) := by exact fun _ h => h)
    (sent : ∀ s : State, P s → P (attemptSent s) := by exact fun _ h => h)
    (errors : ∀ (n : Nat) (s : State), P s → P { s with line.errors := n } := by exact fun _ _ h => h)
    (mute : ∀ (b : Bool) (d : Timer) (s : State), P s →
      P { s with line.muted := b, line.muteTimer := d } := by exact fun _ _ _ h => h)
    (busy : ∀ s : State, P s → P { s with line.busyTimer := none } := by exact fun _ h => h) :
    LineKeeps P where
  level b s h _ := level b s h
  attempt s h _ := beginAttempt_keeps h (fun p k _ => report p s k) fun k _ => request s k
  lost s h _ := retry s h
  error s h _ := countError_keeps (fun _ => M.raise _ hl) (retry s h)
    (fun n t k _ => errors n t k) fun _ t k => mute true _ t k
  sent s h _ := M.lapse _ hl (sent s h)
  muteEnd s h := mute false none s h
  busyEnd s h := countError_keeps (fun _ => M.raise _ hl) (busy s h)
    (fun n t k _ => errors n t k) fun _ t k => mute true _ t k

theorem Moves.peers (M : Moves P C) (F : FeedParts P)
    (join : ∀ s : State, P s → s.join.state = .waitingForLink → P (decideJoin s))
    (records : ∀ (ps : List Peer) (s : State), P s → P { s with peers.records := ps } := by
      exact fun _ _ h => h)
    (heard : ∀ (n : Nat) (b : Bool) (s : State), P s →
      P { s with peers.dupMiss := n, peers.dupHeard := b } := by exact fun _ _ _ h => h)
    (report : ∀ (d : Timer) (s : State), P s →
      P (requestReport .periodic { s with line.reportTimer := d }) := by exact fun _ _ h => h)
    (hd : C .duplicateNumber = true := by rfl) (hn : C .neighbourLost = true := by rfl)
    (hp : C .peerSilent = true := by rfl) (ht : C .tilt = true := by rfl) : PeerKeeps P where
  duplicate _ h := M.duplicate h (fun t k => heard 0 true t k) hd
  arrival n _ _ s h _ := M.handArrival n (records _ s h) (fun _ => F.arrival) join hn hp ht
  sweep s h := M.ageSweep
    (M.ageDuplicate (records _ _ (report _ s h)) (fun t k => heard t.peers.dupMiss false t k)
      (fun t k => heard _ t.peers.dupHeard t k) hd)
    (fun _ => F.admitIfSettled) join hn hp

theorem Moves.guards (M : Moves P C)
    (unlatch : ∀ t : State, P t → P (unlatchAbsent t) := by exact fun _ k => k)
    (drive : ∀ t : State, P t → P { t with sup.drive := false } := by exact fun _ k => k)
    (pending : ∀ (b : Bool) (d : Timer) (t : State), P t →
      P { t with sup.clearPending := b, sup.clearTimer := d } := by exact fun _ _ _ k => k)
    (leave : ∀ t : State, P t → P (unlatchHalt t) := by exact fun _ k => k)
    (free : ∀ before t : State, P t → P (freeChannels before t) := by exact fun _ _ k => k)
    (keep : ∀ (b : Bool) (t : State), P t → P (keepChange b t) := by exact fun _ _ k => k)
    (loop : ∀ (b : Bool) (t : State), P t → P { t with sup.loopSensed := b } := by exact fun _ _ k => k)
    (base : ∀ (b : Bool) (d : Timer) (t : State), P t →
      P { t with sup.crystalTimer := d, sup.onCrystal := b } := by exact fun _ _ _ k => k)
    (hj : C .jackSpread = true := by rfl) (hl : C .haltLoop = true := by rfl)
    (hc : C .clockFallback = true := by rfl) : GuardKeeps P True where
  clear _ _ h _ := M.clear h unlatch drive (pending true) leave free keep hj
  loopAsserted _ h _ := M.loopAsserted h (loop true) hl
  loopReleased _ _ _ h _ e := M.loopReleased h e (loop false) leave keep hl
  clearLapse s h := pending false none s h
  crystalIdle s h _ := base s.sup.onCrystal none s h
  crystalStops s h _ := M.raise _ hc (base false none s h)
  crystalRuns d s h _ := base s.sup.onCrystal d s h
  crystalBack s h := M.lapse _ hc (base true none s h)

theorem Moves.setup (M : Moves P C) (J : JoinParts P)
    (enter : ∀ (m : Mode) (s : State), P s → P (enterMode m s))
    (stage : ∀ (id : Nat) (v : Int) (s : State), P s → P (stageItem id v s) := by exact fun _ _ _ h => h)
    (refuse : ∀ (c : CommitResult) (s : State), P s → P (refuseCommit c s) := by exact fun _ _ h => h)
    (take : ∀ s : State, P s → P (takeCommit s) := by exact fun _ k => k)
    (bring : ∀ t : State, P t → t.ctl.mode = .joining → P (bringIntoForce t) := by exact fun _ k _ => k)
    (request : ∀ (d : Timer) (s : State), P s →
      P (requestSetup { s with join.requestTimer := d }) := by exact fun _ _ h => h)
    (close : ∀ s : State, P s →
      P { s with join.stage := .closed, join.windowTimer := none, join.requestTimer := none } := by
        exact fun _ h => h)
    (back : ∀ s : State, P s → P { s with
        ctl.returnMode := some .locked
        line.setupRequest := s.line.setupRequest.leaveSetup } := by exact fun _ k => k)
    (hj : C .jackSpread = true := by rfl) (hn : C .neighbourLost = true := by rfl)
    (hp : C .peerSilent = true := by rfl) (ht : C .tilt = true := by rfl) : SetupKeeps P where
  stage id v s h _ _ := stage id v s h
  refuseCommit c s h _ := refuse c s h
  commit _ s h _ _ := M.commit h (take s) (enter .joining) bring hn hp
  request s h _ := request _ s h
  window s h _ := lockStation_keeps (close s h) (fun _ => enter .locked _ (close s h))
    fun k _ => back _ k
  listen _ h _ := J.decide M h hj hn hp ht

theorem FeedParts.supply {plans : Prop} {ready : JoinState → Prop} (F : FeedParts P) (M : Moves P C)
    (H : MovedParts P plans true ready)
    (enter : ∀ (m : Mode) (s : State), P s → s.ctl.mode = .reduced → m = returnTo s →
      P (enterMode m s))
    (low : ∀ (b : Bool) (t : State), P t → P { t with sup.supplyLow := b } := by exact fun _ _ k => k)
    (ramp : ∀ t : State, P t → P { t with plan.ramp := 0 } := by exact fun _ k => k)
    (fall : ∀ t : State, P t → t.ctl.mode ≠ .reduced → P (toReduced t) := by exact fun _ k _ => k)
    (cut : ∀ (m : Mode) (t : State), P t → P (cutAttempt m t) := by exact fun _ _ k => k)
    (stroking : ∀ (s : State) (ch : Ch), P s → (s.chan ch).inStroke = true → ready s.join.state := by
      exact fun _ _ _ _ => trivial)
    (hs : C .supplyLow = true := by rfl) (ht : C .tilt = true := by rfl)
    (hj : C .jackSpread = true := by rfl) : SupplyKeeps P where
  supplyLow s t h _ e := by
    have raised : P t := e ▸ M.raise _ hs (low true s h)
    refine ite_keeps (fun _ => raised) fun hm => ?_
    have later := aside_enterReduced t
    exact H.creditStrokes M (fun ch k => stroking t ch raised k) later.join_state
      (H.all (F.enterReduced raised (fun k => fall t k hm) fun t k => cut _ t k)
        fun c => later.now ▸ MovedBy.reduced c rfl) ht hj
  supplyRecovery s t h _ e := by
    have lapsed : P t := e ▸ M.lapse _ hs (low false s h)
    exact ite_keeps (fun hm => enter _ _ (H.all (ramp t lapsed) fun c => .recovered c rfl) hm rfl) fun _ => lapsed

end

end Sys2Proof.Machine
end

section
/-! PROOFS. The resets (R162, R163, R173): the state of each course, written out, and how a property of the
station comes to hold after every step. -/

namespace Sys2Proof.Machine

-- In order, so that the proofs waiting on one another do not hold a stack each.
set_option Elab.async false

/-! ### Conditions of a station that neither climbs nor returns to climbing -/

/-- Nothing climbs, in REDUCED by the return mode, and nothing is paused. -/
structure Quiet (s : State) : Prop where
  mode : s.ctl.mode.works = false
  upright : s.ctl.mode ≠ .reduced
  pause : s.ctl.pause = .empty

section
variable {s : State}

theorem Mode.climbs_of_not_works {m : Mode} (h : m.works = false) : m.climbs = false := by
  cases hc : m.climbs
  · rfl
  · rw [Mode.works_of_climbs hc] at h
    cases h

theorem Quiet.addPause (h : Quiet s) (f : PauseSet → PauseSet) : addPause f s = s := by
  have hc := Mode.climbs_of_not_works h.mode
  rcases addPause_cases f s with ⟨hm, -⟩ | ⟨hm | ⟨hm, -⟩, -⟩ | ⟨-, -, e⟩
  · simp [hm, Mode.climbs] at hc
  · simp [hm, Mode.climbs] at hc
  · exact absurd hm h.upright
  · exact e

/-- FAULT HOLD is no member of a station that does not climb. -/
theorem Quiet.followHold (h : Quiet s) (before : Bool) : followHold before s = s := by
  rcases followHold_cases before s with ⟨-, e⟩ | ⟨-, -, e⟩ | ⟨-, -, e⟩
  · exact e
  · rw [e, dropPause, if_pos (by rw [h.pause]; rfl)]
  · rw [e, h.addPause]

theorem Quiet.withSup (h : Quiet s) (p : Supervisor) : Quiet { s with sup := p } :=
  ⟨h.mode, h.upright, h.pause⟩

theorem Quiet.latchMode (h : Quiet s) : latchMode s = s := by
  rcases latchMode_cases s with ⟨hm, -⟩ | ⟨hm, -, -⟩ | ⟨-, -, e⟩
  · rw [h.mode] at hm
    cases hm
  · exact absurd hm h.upright
  · exact e

theorem Quiet.lapseCond (h : Quiet s) (c : Cond) :
    lapseCond c s = { s with sup.present := s.sup.present.filter (· != c) } := by
  rcases lapseCond_cases c s with ⟨hc, e⟩ | ⟨-, e⟩
  · have absent : s.sup.present.filter (· != c) = s.sup.present :=
      List.filter_eq_self.mpr fun e he => by
        simp only [bne_iff_ne]
        rintro rfl
        simp [State.isPresent, he] at hc
    rw [e, absent]
  · exact e.trans ((h.withSup _).followHold _)

/-- A condition that does not latch becomes present and does nothing else. -/
theorem Quiet.raiseCond (h : Quiet s) {c : Cond} (hp : s.isPresent c = false)
    (hl : s.latching c = false) :
    raiseCond c s = { s with sup.present := s.sup.present ++ [c] } := by
  rcases raiseCond_cases c s with ⟨hc, -⟩ | ⟨-, hc, -⟩ | ⟨-, -, e⟩
  · rw [hp] at hc
    cases hc
  · rw [hl] at hc
    cases hc
  · exact e.trans ((h.withSup _).followHold _)

/-- Nothing moves, no start is pending and no record is kept: a latch is the supervisor's alone. -/
theorem Quiet.latch (h : Quiet s) (hk : recordable s = false)
    (hc : s.seq.chans.map (Channel.cut s.setup s.now) = s.seq.chans) (c : Cond) :
    latch c s = if s.isLatched c = true then s else { s with sup := s.sup.withEntry s.setup c } := by
  rcases latch_cases c s with ⟨hl, e⟩ | ⟨hl, e⟩ <;> rw [e, hl]
  · rfl
  · have joined : Quiet (joinLatched c s) := ⟨h.mode, h.upright, h.pause⟩
    have cut : cutExtensions (joinLatched c s) = joinLatched c s := by
      show { joinLatched c s with
        seq.chans := s.seq.chans.map (Channel.cut s.setup s.now) } = _
      rw [hc]
      rfl
    rw [joined.latchMode, cut, keepChange_idle (.inr ?_)]
    · rcases pullForTrip_cases c (joinLatched c s) with ⟨k, e⟩ | ⟨k, e⟩ <;> rw [e]
      · have k : s.classOf c = .trip := k
        have k : s.setup.classOf c = .trip := k
        simp [joinLatched, Supervisor.withEntry, k]
      · have k : s.setup.classOf c ≠ .trip := k
        simp [joinLatched, Supervisor.withEntry, beq_eq_false_iff_ne.mpr k]
    · rcases pullForTrip_cases c (joinLatched c s) with ⟨-, e⟩ | ⟨-, e⟩ <;> rw [e] <;> exact hk

end

/-! ### The courses -/

/-- The members shown change where a condition enters that was neither present nor latched. -/
theorem faultView_appear_ne {s t : State} {c : Cond} (hc : c ∈ Cond.all)
    (hs : s.isPresent c = false ∧ s.isLatched c = false) (ht : t.isPresent c = true) :
    faultView t ≠ faultView s := by
  intro e
  have shown : c ∈ (faultView t).shown := List.mem_filter.mpr ⟨hc, by simp [ht]⟩
  rw [e] at shown
  have hidden := (List.mem_filter.mp shown).2
  simp [hs.1, hs.2] at hidden

theorem Cond.mem_all (c : Cond) : c ∈ Cond.all := by
  cases c with
  | extendTimeout ch | retractTimeout ch | transducer ch => cases ch <;> decide
  | _ => decide

/-- The inhibit input found asserted adds INHIBIT and the urgent report of it (R189, R197). -/
theorem inhibitAtReset_eq {s : State} (h : Quiet s) (hp : s.isPresent .inhibit = false)
    (hl : s.isLatched .inhibit = false) :
    inhibitAtReset s
      = if s.inhibitInput = true then
          { s with
            sup.present := s.sup.present ++ [.inhibit]
            line.report := s.line.report.request .urgent }
        else s := by
  unfold inhibitAtReset
  split
  · rw [h.raiseCond hp rfl]
    rcases reportFaults_cases s { s with sup.present := s.sup.present ++ [.inhibit] } with
      ⟨k, -⟩ | ⟨-, e⟩
    · exact absurd k (faultView_appear_ne (Cond.mem_all _) ⟨hp, hl⟩ (by simp [State.isPresent]))
    · rw [e]
      rfl
  · rfl

/-- What an asserted inhibit input adds at the end of a reset. -/
def withInhibit (inhibit : Bool) (s : State) : State :=
  { s with
    sup.present := if inhibit then s.sup.present ++ [.inhibit] else s.sup.present
    line.report := if inhibit then s.line.report.request .urgent else s.line.report }

theorem lockedCourse_eq (strap : BitVec 6) (inhibit : Bool) (a b : Option Image) (s : State) :
    lockedCourse strap inhibit a b s
      = withInhibit inhibit (resetAll strap inhibit .locked defaultRecord a b s) := by
  rw [lockedCourse, inhibitAtReset_eq ⟨rfl, (by decide : Mode.locked ≠ .reduced), rfl⟩ rfl rfl]
  cases inhibit <;> rfl

/-- The setup course before the inhibit input is read (R163). -/
def setupReset (strap : BitVec 6) (inhibit : Bool) (s : State) : State :=
  let t := resetAll strap inhibit .setup defaultRecord none none s
  { t with
    join.stage := .waiting
    join.requestTimer := some Config.requestPeriod
    line.setupRequest := .pending }

theorem setupCourse_eq (strap : BitVec 6) (inhibit : Bool) (s : State) :
    setupCourse strap inhibit s = withInhibit inhibit (setupReset strap inhibit s) := by
  rw [setupCourse]
  dsimp only
  rw [inhibitAtReset_eq ⟨rfl, (by decide : Mode.setup ≠ .reduced), rfl⟩ rfl rfl]
  cases inhibit <;> rfl

/-- The restore of an image before the supervisor judges it (R64, R173). -/
def restoreReset (strap : BitVec 6) (inhibit : Bool) (a b : Option Image) (k : Kept) (s : State) :
    State :=
  let t := resetAll strap inhibit .joining k.setup a b s
  removeExited (workHeight
    { t with
      ctl.released := k.released
      seq.chans := PerChannel.ofFn fun c =>
        restoreChannel inhibit (k.setup.active c) (k.climbed.get c)
      seq.strokeCount := k.strokeCount
      stack.layers := k.layers.map fun l => { l with placed := 0 }
      stack.nextSeq := restoredSequence k.layers
      peers.links := linkList (strapNumber strap) k.setup
      join.stage := .committed
      join.committed := some k.setup
      join.kind := .afterRestore
      join.state := .listening
      join.listenTimer := some k.setup.listenLength
      join.restoredMode := some k.mode })

theorem restoreCourse_eq (strap : BitVec 6) (inhibit : Bool) (a b : Option Image) (k : Kept)
    (s : State) :
    restoreCourse strap inhibit a b k s
      = (let v := restoreLatched k.latched (restoreReset strap inhibit a b k s)
        inhibitAtReset (judgePeers (reportFaults v (judgeSpread v)))) := rfl

/-- A channel of a restore neither moves nor has a start pending. -/
theorem restoreChannel_cut (r : SetupRecord) (now : Nat) (inhibit active : Bool) (climbed : Nat) :
    Channel.cut r now (restoreChannel inhibit active climbed)
      = restoreChannel inhibit active climbed := by
  cases active <;> cases inhibit <;> rfl

/-- A state is a restore of `k` but for what the supervisor and the REPORT slot hold. -/
structure Restored (strap : BitVec 6) (inhibit : Bool) (a b : Option Image) (k : Kept) (s t : State) :
    Prop where
  eq : ∃ (p : Supervisor) (q : ReportSlot),
    t = { restoreReset strap inhibit a b k s with sup := p, line.report := q }
  armed : t.sup.armed = false

section
variable {strap : BitVec 6} {inhibit : Bool} {a b : Option Image} {k : Kept} {s t : State}

theorem Restored.quiet (h : Restored strap inhibit a b k s t) : Quiet t := by
  obtain ⟨⟨p, q, rfl⟩, -⟩ := h
  exact ⟨rfl, (by decide : Mode.joining ≠ .reduced), rfl⟩

theorem Restored.latched (h : Restored strap inhibit a b k s t) (c : Cond) :
    latch c t = if t.isLatched c = true then t else { t with sup := t.sup.withEntry k.setup c } := by
  have quiet := h.quiet
  obtain ⟨⟨p, q, rfl⟩, -⟩ := h
  refine quiet.latch rfl ?_ c
  simp [restoreReset, PerChannel.map, PerChannel.ofFn, restoreChannel_cut]

/-- A condition judged in a restore changes the supervisor alone: its presence, and where it latches its
entry. -/
theorem Restored.judgeCond (h : Restored strap inhibit a b k s t) (c : Cond) (present : Bool) :
    judgeCond c present t
      = { t with sup :=
            if present = true ∧ t.isPresent c = false then
              (if t.latching c = true ∧ t.isLatched c = false then
                ({ t.sup with present := t.sup.present ++ [c] } : Supervisor).withEntry k.setup c
              else { t.sup with present := t.sup.present ++ [c] })
            else if present = true then t.sup
            else { t.sup with present := t.sup.present.filter (· != c) } } := by
  cases present
  · simp only [Machine.judgeCond, Bool.false_eq_true, false_and, if_false]
    exact h.quiet.lapseCond c
  · simp only [Machine.judgeCond, true_and, if_true]
    rcases raiseCond_cases c t with ⟨hc, e⟩ | ⟨hc, hl, e⟩ | ⟨hc, hl, e⟩ <;> rw [e, hc]
    · rfl
    · have shown : Restored strap inhibit a b k s { t with sup.present := t.sup.present ++ [c] } := by
        obtain ⟨⟨p, q, rfl⟩, ha⟩ := h
        exact ⟨⟨{ p with present := p.present ++ [c] }, q, rfl⟩, ha⟩
      have fresh : ({ t with sup.present := t.sup.present ++ [c] } : State).isLatched c
        = t.isLatched c := rfl
      rw [shown.latched, fresh]
      cases t.isLatched c
      · refine ((h.quiet.withSup _).followHold _).trans ?_
        simp [hl]
      · refine ((h.quiet.withSup _).followHold _).trans ?_
        simp
    · refine ((h.quiet.withSup _).followHold _).trans ?_
      simp [hl]

theorem Restored.judged (h : Restored strap inhibit a b k s t) (c : Cond) (present : Bool) :
    Restored strap inhibit a b k s (Machine.judgeCond c present t) := by
  rw [h.judgeCond]
  obtain ⟨⟨p, q, rfl⟩, ha⟩ := h
  refine ⟨⟨_, q, rfl⟩, ?_⟩
  have ha : p.armed = false := ha
  dsimp only
  split
  · split <;> exact ha
  · split <;> exact ha

theorem Restored.reported (h : Restored strap inhibit a b k s t) (before : State) :
    Restored strap inhibit a b k s (reportFaults before t) := by
  rcases reportFaults_cases before t with ⟨-, e⟩ | ⟨-, e⟩ <;> rw [e]
  · exact h
  · obtain ⟨⟨p, q, rfl⟩, ha⟩ := h
    exact ⟨⟨p, _, rfl⟩, ha⟩

theorem restored_restoreLatched (ls : List Cond) :
    Restored strap inhibit a b k s (restoreLatched ls (restoreReset strap inhibit a b k s)) :=
  ⟨⟨_, _, rfl⟩, rfl⟩

theorem Restored.judgedSpread (h : Restored strap inhibit a b k s t) :
    Restored strap inhibit a b k s (judgeSpread t) := h.judged .jackSpread _

theorem Restored.judgedPeers (h : Restored strap inhibit a b k s t) :
    Restored strap inhibit a b k s (judgePeers t) :=
  (h.judged .neighbourLost _).judged .peerSilent _

theorem Restored.inhibited (h : Restored strap inhibit a b k s t) :
    Restored strap inhibit a b k s (inhibitAtReset t) :=
  ite_keeps (fun _ => (h.judged .inhibit true).reported t) fun _ => h

theorem restored_restoreCourse : Restored strap inhibit a b k s (restoreCourse strap inhibit a b k s) := by
  rw [restoreCourse_eq]
  exact ((restored_restoreLatched k.latched).judgedSpread.reported _).judgedPeers.inhibited

end

/-! ### What a reset answers -/

theorem strapNumber_good {strap : BitVec 6} (h : strapGood strap = true) :
    strapNumber strap = strap.toNat := by
  simp only [strapGood, Bool.and_eq_true, decide_eq_true_eq] at h
  simp [strapNumber, h.2]

theorem strapNumber_bad {strap : BitVec 6} (h : strapGood strap = false) : strapNumber strap = 0 := by
  simp only [strapGood, Bool.and_eq_false_iff, decide_eq_false_iff_not] at h
  unfold strapNumber
  split <;> omega

/-- A reset takes one of three courses: LOCKED, SETUP, or the restore of the image in use (R162, R163, R173). -/
theorem exec_reset_cases {i : Instr} {s t : State} (hi : i.isReset = true) (he : exec i s = .next t) :
    (∃ strap inhibit a b, strapGood strap = false ∧ t = lockedCourse strap inhibit a b s
        ∧ (a = none ∧ b = none ∨ ∃ cut, imagesFound cut s = (a, b)))
      ∨ (∃ strap inhibit, strapGood strap = true ∧ t = setupCourse strap inhibit s)
      ∨ ∃ strap inhibit cut a b image, strapGood strap = true ∧ imagesFound cut s = (a, b)
        ∧ usedImage s.join.imageA s.join.imageB = some image ∧ image.kept.number = strap.toNat
        ∧ t = restoreCourse strap inhibit a b image.kept s := by
  cases i with
  | powerOnReset strap inhibit =>
    have he := Host.Outcome.next.inj he
    cases hs : strapGood strap
    · rw [hs, if_neg nofun] at he
      exact .inl ⟨strap, inhibit, none, none, hs, he.symm, .inl ⟨rfl, rfl⟩⟩
    · rw [hs, if_pos rfl] at he
      exact .inr (.inl ⟨strap, inhibit, hs, he.symm⟩)
  | brownOutReset strap inhibit cut =>
    have he := Host.Outcome.next.inj he
    cases hs : strapGood strap
    · rw [hs, if_neg nofun] at he
      exact .inl ⟨strap, inhibit, _, _, hs, he.symm, .inr ⟨cut, rfl⟩⟩
    · rw [hs, if_pos rfl] at he
      split at he
      · rename_i image hu
        split at he
        · exact .inr (.inr ⟨strap, inhibit, cut, _, _, image, hs, rfl,
            (usedImage_imagesFound cut s).symm.trans hu, ‹_›, he.symm⟩)
        · exact .inr (.inl ⟨strap, inhibit, hs, he.symm⟩)
      · exact .inr (.inl ⟨strap, inhibit, hs, he.symm⟩)
  | _ => cases hi

/-- A reset answers a next state. -/
theorem exec_reset_next {i : Instr} (hi : i.isReset = true) (s : State) :
    ∃ t, exec i s = .next t := by
  cases i with
  | powerOnReset => exact ⟨_, rfl⟩
  | brownOutReset => exact ⟨_, rfl⟩
  | _ => cases hi

/-! ### Every step -/

theorem earliest_mem {es : List (Nat × Instr)} {e : Nat × Instr} (h : earliest es = some e) : e ∈ es := by
  induction es generalizing e with
  | nil => cases h
  | cons d rest ih =>
    unfold earliest at h
    split at h
    · rename_i f hf
      split at h <;> cases h
      · exact List.mem_cons_of_mem _ (ih hf)
      · exact List.mem_cons_self
    · cases h
      exact List.mem_cons_self

theorem mem_timed {t : Timer} {i : Instr} {e : Nat × Instr} (h : e ∈ timed t i) : e.2 = i := by
  simp only [timed, Option.mem_toList, Option.map_eq_some_iff] at h
  obtain ⟨_, -, rfl⟩ := h
  rfl

/-- The station brings about no reset itself. -/
theorem ownEvents_not_reset {s : State} {e : Nat × Instr} (h : e ∈ ownEvents s) : e.2.isReset = false := by
  have single : ∀ {p : Bool} {d : Nat} {i : Instr}, e ∈ (if p then [(d, i)] else []) → e.2 = i := by
    intro p d i h
    cases p
    · cases h
    · exact List.mem_singleton.mp h ▸ rfl
  have channel : ∀ {ch : Ch}, e ∈ channelEvents s ch → e.2.isReset = false := by
    intro ch h
    rcases List.mem_append.mp h with h | h
    · rw [mem_timed h]; rfl
    · unfold strokeEvent at h
      split at h
      · rw [mem_timed h]; rfl
      · rw [mem_timed h]; rfl
      · rw [mem_timed h]; split <;> rfl
      · cases h
  simp only [ownEvents, List.mem_append, List.mem_flatMap, or_assoc] at h
  rcases h with h | h | h | ⟨ch, -, h⟩ | h | h | h | h | h | h | h | h | h | h | h | h
  case inr.inr.inr.inl => exact channel h
  case inr.inr.inr.inr.inl => rw [single h]; rfl
  case inr.inr.inr.inr.inr.inl => rw [single h]; rfl
  case inr.inr.inr.inr.inr.inr.inr.inr.inr.inr.inr.inr.inr.inr.inr => rw [single h]; rfl
  all_goals rw [mem_timed h]; rfl

theorem dueEvent_not_reset {s : State} {i : Instr} (h : dueEvent s = some i) : i.isReset = false := by
  unfold dueEvent at h
  obtain ⟨e, he, rfl⟩ := Option.map_eq_some_iff.mp h
  exact ownEvents_not_reset (List.mem_of_mem_filter (earliest_mem he))

/-- A step is a reset from the queue, another command or event, or a millisecond. -/
theorem step_cases {s t : State} (he : step s = .next t) :
    (∃ i rest, s.pending = i :: rest ∧ i.isReset = true ∧ exec i { s with pending := rest } = .next t)
      ∨ (∃ i rest, i.isReset = false ∧ exec i { s with pending := rest } = .next t
        ∧ ((s.pending = [] ∧ rest = []) ∨ s.pending = i :: rest))
      ∨ (s.pending = [] ∧ t = passTime s) := by
  unfold step at he
  split at he
  · rename_i hq
    unfold idleStep at he
    split at he
    · rename_i i hd
      refine .inr (.inl ⟨i, [], dueEvent_not_reset hd, ?_, .inl ⟨hq, rfl⟩⟩)
      rw [← hq]
      exact he
    · exact .inr (.inr ⟨hq, (Host.Outcome.next.inj he).symm⟩)
  · rename_i i rest hq
    cases hi : i.isReset
    · exact .inr (.inl ⟨i, rest, hi, he, .inr hq⟩)
    · exact .inl ⟨i, rest, hq, hi, he⟩

/-- How a law comes to hold after every step: from a property of the commands' answers, by their close, by a
millisecond and by each course of a reset. -/
theorem step_answers {P L : State → Prop} {s t : State} (he : step s = .next t)
    (answers : ∀ (q : List Instr) (i : Instr), i.isReset = false → Answers P i { s with pending := q })
    (close : ∀ v u : State, P u → L (settled v u))
    (pass : L (passTime s))
    (locked : ∀ strap inhibit a b q, strapGood strap = false →
      (a = none ∧ b = none ∨ ∃ cut, imagesFound cut s = (a, b)) →
      L (withInhibit inhibit
        (resetAll strap inhibit .locked defaultRecord a b { s with pending := q })))
    (setup : ∀ strap inhibit q, strapGood strap = true →
      L (withInhibit inhibit (setupReset strap inhibit { s with pending := q })))
    (restore : ∀ strap inhibit cut a b image q, strapGood strap = true → imagesFound cut s = (a, b) →
      usedImage s.join.imageA s.join.imageB = some image → image.kept.number = strap.toNat →
      L (restoreCourse strap inhibit a b image.kept { s with pending := q })) :
    L t := by
  rcases step_cases he with ⟨i, q, -, hi, hx⟩ | ⟨i, q, hi, hx, -⟩ | ⟨-, rfl⟩
  · rcases exec_reset_cases hi hx with
      ⟨strap, inhibit, a, b, hs, rfl, hab⟩ | ⟨strap, inhibit, hs, rfl⟩
        | ⟨strap, inhibit, cut, a, b, image, hs, hab, hu, hn, rfl⟩
    · rw [lockedCourse_eq]
      exact locked strap inhibit a b q hs hab
    · rw [setupCourse_eq]
      exact setup strap inhibit q hs
    · exact restore strap inhibit cut a b image q hs hab hu hn
  · obtain ⟨u, hu, hp⟩ := answers q i hi
    rw [hu] at hx
    cases hx
    exact close _ u hp
  · exact pass

/-- A property that the commands keep, and a law that follows from it at a command's close and after a reset. -/
theorem step_keeps {P L : State → Prop} {s t : State} (K : Keeps P) (he : step s = .next t)
    (h : ∀ q, P { s with pending := q })
    (close : ∀ v u : State, P u → L (settled v u))
    (pass : L (passTime s))
    (locked : ∀ strap inhibit a b q, strapGood strap = false →
      (a = none ∧ b = none ∨ ∃ cut, imagesFound cut s = (a, b)) →
      L (withInhibit inhibit
        (resetAll strap inhibit .locked defaultRecord a b { s with pending := q })))
    (setup : ∀ strap inhibit q, strapGood strap = true →
      L (withInhibit inhibit (setupReset strap inhibit { s with pending := q })))
    (restore : ∀ strap inhibit cut a b image q, strapGood strap = true → imagesFound cut s = (a, b) →
      usedImage s.join.imageA s.join.imageB = some image → image.kept.number = strap.toNat →
      L (restoreCourse strap inhibit a b image.kept { s with pending := q })) :
    L t :=
  step_answers he (fun q _ hi => K.answers (h q) hi) close pass locked setup restore

end Sys2Proof.Machine
end

section
/-! PROOFS. The gate (R110, R111): every change of the feed state keeps its timers and its gate, and every
change of the permission is judged at once. -/

namespace Sys2Proof.Machine

-- In order, so that the proofs waiting on one another do not hold a stack each.
set_option Elab.async false

/-- The gate law without its permission: what the changes of the permission leave. -/
abbrev GateShape (s : State) : Prop :=
  s.feed.gate = (s.feed.state == .opened)
    ∧ (s.feed.settled = true → s.feed.state = .asking)
    ∧ s.feed.settleTimer.isSome = (s.feed.state == .asking && !s.feed.settled)
    ∧ s.feed.feedTimer.isSome = (s.feed.state == .opened)

section
variable {s : State}

theorem GateLaw.shape (h : GateLaw s) : GateShape s := by
  obtain ⟨hg, -, hs, ht, hf⟩ := h
  exact ⟨hg, hs, ht, hf⟩

/-- A station in IDLE with its gate shut and its timers stopped keeps the gate law whatever is allowed. -/
theorem gateLaw_of_idle (h : GateShape s) (hi : s.feed.state = .idle) : GateLaw s := by
  obtain ⟨hg, hs, ht, hf⟩ := h
  exact ⟨hg, fun k => absurd hi k, hs, ht, hf⟩

theorem gateLaw_of_allowed (h : GateShape s) (ha : feedAllowed s = true) : GateLaw s := by
  obtain ⟨hg, hs, ht, hf⟩ := h
  exact ⟨hg, fun _ => ha, hs, ht, hf⟩

theorem gateLaw_enterAsking (ha : feedAllowed s = true) (h : GateShape s) (hi : s.feed.state = .idle) :
    GateLaw (enterAsking s) := by
  obtain ⟨hg, -, -, hf⟩ := h
  rw [hi] at hg hf
  exact ⟨hg, fun _ => ha, fun _ => rfl, rfl, hf⟩

theorem gateLaw_leaveAsking (h : GateShape s) (hs : s.feed.state = .asking) :
    GateLaw (leaveAsking s) := by
  obtain ⟨hg, -, -, hf⟩ := h
  rw [hs] at hg hf
  exact ⟨hg, fun k => absurd rfl k, nofun, rfl, hf⟩

theorem gateLaw_closeGate_idle : GateLaw (closeGate .idle s) :=
  ⟨rfl, fun k => absurd rfl k, nofun, rfl, rfl⟩

/-- The judgement of the permission brings the law about (R110). -/
theorem gateLaw_rejudgeFeed (was : Bool) (h : GateShape s) : GateLaw (rejudgeFeed was s) := by
  rcases rejudgeFeed_cases was s with
    ⟨ha, -, e⟩ | ⟨ha, -, e⟩ | ⟨-, hi, e⟩ | ⟨-, hs, e⟩ | ⟨-, -, e⟩ <;> rw [e]
  · exact gateLaw_of_allowed h ha
  · rcases askIfShort_cases s with ⟨hi, -, -, e⟩ | ⟨-, e⟩ <;> rw [e]
    · exact gateLaw_enterAsking ha h hi
    · exact gateLaw_of_allowed h ha
  · exact gateLaw_of_idle h hi
  · exact gateLaw_leaveAsking h hs
  · exact gateLaw_closeGate_idle

theorem gateLaw_enterMode (m : Mode) (h : GateShape s) : GateLaw (enterMode m s) := by
  rw [enterMode_eq]
  refine gateLaw_rejudgeFeed _ ?_
  split <;> exact h

theorem feedParts_gateLaw : FeedParts GateLaw where
  ask _ h hi ha := gateLaw_enterAsking ha h.shape hi
  leave _ h hs := gateLaw_leaveAsking h.shape hs
  close n s h ho hn := by
    obtain ⟨-, hallowed, -⟩ := h
    have allowed : feedAllowed s = true := hallowed (by simp [ho])
    cases n with
    | idle => exact gateLaw_closeGate_idle
    | asking => exact ⟨rfl, fun _ => allowed, nofun, rfl, rfl⟩
    | opened => exact absurd rfl hn
  opens s h hs := by
    obtain ⟨-, hallowed, -⟩ := h
    exact ⟨rfl, fun _ => hallowed (by simp [hs]), nofun, rfl, rfl⟩

/-- Out of STANDING, CLIMBING and PAUSED a station rests in IDLE (R110). -/
theorem idle_of_not_works (h : GateLaw s) (hm : s.ctl.mode.works = false) : s.feed.state = .idle := by
  by_contra hi
  obtain ⟨-, hallowed, -⟩ := h
  simpa [feedAllowed, hm] using hallowed hi

theorem latchParts_gateLaw : LatchParts GateLaw where
  enter m _ h _ _ := gateLaw_enterMode m h.shape
  stop _ h hm _ := gateLaw_of_idle h.shape (idle_of_not_works h (by rw [hm]; rfl))

theorem moves_gateLaw : Moves GateLaw fun _ => true := latchParts_gateLaw.moves

theorem joinParts_gateLaw : JoinParts GateLaw where
  adopt s h := by
    unfold adoptStack
    split <;> exact h
  leave m _ h _ _ := gateLaw_enterMode m h.shape

theorem gateLaw_probeTaken (d : Nat) (h : GateLaw s) :
    GateLaw { s with feed.depth := some d, feed.probeValid := true } := by
  obtain ⟨hg, hallowed, hs, ht, hf⟩ := h
  refine ⟨hg, fun k => ?_, hs, ht, hf⟩
  have := hallowed k
  simp only [feedAllowed, Bool.and_eq_true] at this ⊢
  exact ⟨this.1, trivial⟩

/-- A probe reading that becomes invalid ends the permission (R109, R110). -/
theorem gateLaw_probeBad (h : GateLaw s) : GateLaw (probeBad s) :=
  moves_gateLaw.raise _ rfl (gateLaw_rejudgeFeed (s := { s with feed.probeValid := false }) _ h.shape)

theorem gateLaw_settle (h : GateLaw s) (ht : s.feed.settleTimer.isSome = true) :
    GateLaw { s with feed.settleTimer := none, feed.settled := true } := by
  obtain ⟨hg, hallowed, -, hsettle, hf⟩ := h
  rw [ht, eq_comm, Bool.and_eq_true, beq_iff_eq] at hsettle
  exact ⟨hg, hallowed, fun _ => hsettle.1, by simp, hf⟩

theorem channelParts_gateLaw : ChannelParts GateLaw where

theorem concreteKeeps_gateLaw : ConcreteKeeps GateLaw where
  feedHold b s h _ := gateLaw_rejudgeFeed (s := { s with ctl.feedHold := b }) _ h.shape
  cureRead _ _ h _ := moves_gateLaw.lapse (s := applyCure _) _ rfl h
  cureMissed _ h := ite_keeps (fun k => absurd k nofun) fun _ =>
    ite_keeps (fun _ => moves_gateLaw.raise (s := applyCure _) _ rfl h) fun _ => h
  probeGood d _ h _ _ := feedParts_gateLaw.probeGood moves_gateLaw d (gateLaw_probeTaken d h)
  probeBad _ h := gateLaw_probeBad h
  settle _ h ht := feedParts_gateLaw.admitIfSettled (gateLaw_settle h ht)
  feedEnd _ _ _ := moves_gateLaw.raise _ rfl gateLaw_closeGate_idle

theorem supplyKeeps_gateLaw : SupplyKeeps GateLaw where
  supplyLow s t h _ e := by
    have raised : GateLaw t := e ▸ moves_gateLaw.raise (s := { s with sup.supplyLow := true }) _ rfl h
    have rejudged := gateLaw_rejudgeFeed (s := toReduced t) (feedAllowed t) raised.shape
    exact ite_keeps (fun _ => raised) fun _ =>
      channelParts_gateLaw.movedParts.creditStrokes moves_gateLaw (fun _ _ => trivial)
        (aside_enterReduced t).join_state rejudged
  supplyRecovery s t h _ e := by
    have lapsed : GateLaw t := e ▸ moves_gateLaw.lapse (s := { s with sup.supplyLow := false }) _ rfl h
    exact ite_keeps (fun _ => gateLaw_enterMode (s := updateAll _ { t with plan.ramp := 0 }) _ lapsed.shape)
      fun _ => lapsed

theorem keeps_gateLaw : Keeps GateLaw where
  steer := moves_gateLaw.steering
  jacks := channelParts_gateLaw.movedParts.jacks moves_gateLaw
  concrete := concreteKeeps_gateLaw
  line := moves_gateLaw.line
  peers := moves_gateLaw.peers feedParts_gateLaw fun _ k _ => joinParts_gateLaw.decide moves_gateLaw k
  setup := moves_gateLaw.setup joinParts_gateLaw (fun m _ h => gateLaw_enterMode m h.shape)
    (bring := fun t k hm => gateLaw_of_idle (s := bringIntoForce t) k.shape
      (idle_of_not_works (s := t) k (by rw [hm]; rfl)))
  guards := moves_gateLaw.guards
  supply := supplyKeeps_gateLaw

theorem gateLaw_settled (before : State) (h : GateLaw s) : GateLaw (settled before s) := by
  obtain ⟨busy, e⟩ := settled_spec before s
  rw [e]
  exact h

end

/-- Settles O11: every change of the permission to feed is judged at once, so that the gate stands open only
in OPEN and the station asks only while it may feed. -/
theorem stepKeepsGateLaw : Obligations.StepKeepsGateLaw := by
  intro s t h he
  refine step_keeps keeps_gateLaw he (fun _ => h) (fun v _ k => gateLaw_settled v k) ?_ ?_ ?_ ?_
  · obtain ⟨busy, e, -⟩ := followBusyLine_cases { s with now := s.now + 1 }
    rw [passTime, e]
    exact h
  · exact fun _ _ _ _ _ _ _ => ⟨rfl, fun k => absurd rfl k, nofun, rfl, rfl⟩
  · exact fun _ _ _ _ => ⟨rfl, fun k => absurd rfl k, nofun, rfl, rfl⟩
  · intro strap inhibit cut a b image q _ _ _ _
    obtain ⟨⟨p, r, e⟩, -⟩ := restored_restoreCourse (strap := strap) (inhibit := inhibit) (a := a) (b := b)
      (k := image.kept) (s := { s with pending := q })
    rw [e]
    exact ⟨rfl, fun k => absurd rfl k, nofun, rfl, rfl⟩

end Sys2Proof.Machine
end

section
/-! PROOFS. What only some commands change: the queue, the latched set, the targets and the plan record; and what
every reset sets (R22, R80, R87, R190, R193, R198). -/

namespace Sys2Proof.Machine

-- In order, so that the proofs waiting on one another do not hold a stack each.
set_option Elab.async false

/-! ### The queue -/

/-- Every update of the model leaves the queue. -/
theorem keeps_pending (q : List Instr) : Keeps fun s => s.pending = q := by
  have F : FeedParts fun s => s.pending = q := {}
  have enter : ∀ (m : Mode) (s : State), s.pending = q → (enterMode m s).pending = q :=
    fun m s h => (aside_enterMode m s).pending.trans h
  have L : LatchParts fun s => s.pending = q := { enter := fun m s h _ _ => enter m s h }
  have M := L.moves
  have H : ChannelParts fun s => s.pending = q := {}
  have J : JoinParts fun s => s.pending = q :=
    { adopt := fun s h => by unfold adoptStack; split <;> exact h
      leave := fun m s h _ _ => enter m s h }
  exact
    { steer := M.steering
      jacks := H.movedParts.jacks M
      concrete := F.concrete M
      line := M.line
      peers := M.peers F fun _ k _ => J.decide M k
      setup := M.setup J enter
      guards := M.guards
      supply := F.supply M H.movedParts fun m s h _ _ => enter m s h }

theorem settled_pending (s t : State) : (settled s t).pending = t.pending := by
  obtain ⟨busy, e⟩ := settled_spec s t
  rw [e]

/-- Every command answers a next state with the queue as it was. -/
theorem exec_next_pending (i : Instr) (s : State) : ∃ t, exec i s = .next t ∧ t.pending = s.pending := by
  cases hi : i.isReset
  · obtain ⟨u, hu, hq⟩ := (keeps_pending s.pending).answers (s := s) rfl hi
    exact ⟨_, hu, (settled_pending s u).trans hq⟩
  · obtain ⟨t, ht⟩ := exec_reset_next hi s
    refine ⟨t, ht, ?_⟩
    rcases exec_reset_cases hi ht with
      ⟨strap, inhibit, a, b, -, rfl, -⟩ | ⟨strap, inhibit, -, rfl⟩ | ⟨_, _, _, _, _, _, -, -, -, -, rfl⟩
    · rw [lockedCourse_eq]
      rfl
    · rw [setupCourse_eq]
      rfl
    · obtain ⟨⟨p, r, e⟩, -⟩ := restored_restoreCourse
      rw [e]
      rfl

/-- Settles O1: a queued command is run on the rest of the queue, and no command fails to answer. -/
theorem stepRunsFrontCommand : Obligations.StepRunsFrontCommand := by
  intro c s rest
  refine ⟨rfl, exec_next_pending c s, ?_⟩
  have idle : step { s with pending := [] } = idleStep { s with pending := [] } := rfl
  rw [idle]
  unfold idleStep
  split
  · obtain ⟨t, ht, hq⟩ := exec_next_pending _ { s with pending := [] }
    exact ⟨t, ht, hq⟩
  · refine ⟨_, rfl, ?_⟩
    obtain ⟨busy, e, -⟩ := followBusyLine_cases { s with now := s.now + 1, pending := [] }
    rw [passTime, e]

/-! ### The latched set -/

/-- An entry stays latched through every command that unlatches nothing. -/
theorem keeps_latched (e : Cond) : Keeps (fun s => e ∈ s.sup.latched) True False := by
  have F : FeedParts fun s => e ∈ s.sup.latched := {}
  have enter : ∀ (m : Mode) (s : State), e ∈ s.sup.latched → e ∈ (enterMode m s).sup.latched :=
    fun m s h => by rwa [enterMode_sup]
  have L : LatchParts fun s => e ∈ s.sup.latched :=
    { enter := fun m s h _ _ => enter m s h
      entry := fun c s h _ => by
        rw [joinLatched_sup_latched]
        exact List.mem_append_left _ h }
  have M := L.moves
  have H : ChannelParts fun s => e ∈ s.sup.latched := {}
  have J : JoinParts fun s => e ∈ s.sup.latched :=
    { adopt := fun s h => by unfold adoptStack; split <;> exact h
      leave := fun m s h _ _ => enter m s h }
  exact
    { steer := M.steering
      jacks := H.movedParts.jacks M
      concrete := F.concrete M
      line := M.line
      peers := M.peers F fun _ k _ => J.decide M k
      setup := M.setup J enter
      guards :=
        { clear := nofun
          loopAsserted := fun _ h _ => M.loopAsserted h
          loopReleased := nofun
          crystalStops := fun s h _ => M.raise
            (s := { s with sup.crystalTimer := none, sup.onCrystal := false }) _ rfl h
          crystalBack := fun s h => M.lapse
            (s := { s with sup.crystalTimer := none, sup.onCrystal := true }) _ rfl h }
      supply := F.supply M H.movedParts fun m s h _ _ => enter m s h }

theorem settled_latched (s t : State) : (settled s t).sup.latched = t.sup.latched := by
  obtain ⟨busy, e⟩ := settled_spec s t
  rw [e]

@[simp] theorem closeClear_latched (before s : State) : (closeClear before s).sup.latched = s.sup.latched := by
  unfold closeClear latchedEmptied
  rw [keepChange_sup]
  split
  · rw [enterMode_sup]
  · rfl

/-- The release of the loop unlatches a HALT LOOP that was clear pending, and nothing else (R193). -/
theorem haltLoopSensedReleased_latched {s : State} {e : Cond} (h : e ∈ s.sup.latched) :
    ∃ t, exec .haltLoopSensedReleased s = .next t
      ∧ (e ∈ t.sup.latched ∨ (e = .haltLoop ∧ s.sup.clearPending = true)) := by
  refine ⟨_, rfl, ?_⟩
  rw [settled_latched]
  split
  · dsimp only
    split
    · rename_i k
      rw [lapseCond_sup] at k
      rw [closeClear_latched, unlatchHalt_sup_latched, lapseCond_latched]
      by_cases he : e = .haltLoop
      · exact .inr ⟨he, k⟩
      · exact .inl (List.mem_filter.mpr ⟨h, by simpa using he⟩)
    · rw [lapseCond_latched]
      exact .inl h
  · exact .inl h

/-- Settles O19: an entry stays latched through every other command, and the release of the loop unlatches
HALT LOOP alone. -/
theorem onlyClearUnlatches : Obligations.OnlyClearUnlatches := by
  intro c s hc hclear hlocal
  by_cases hr : c = .haltLoopSensedReleased
  · subst hr
    refine ⟨_, rfl, fun e he => ?_⟩
    obtain ⟨t, ht, h⟩ := haltLoopSensedReleased_latched he
    cases ht
    exact h.imp_right fun k => ⟨k.1, rfl, k.2⟩
  · have keeps : mayUnlatch c = false := by
      cases c with
      | clear a b d => exact absurd rfl (hclear a b d)
      | localClear low => exact absurd rfl (hlocal low)
      | haltLoopSensedReleased => exact absurd rfl hr
      | _ => rfl
    obtain ⟨t, ht, -⟩ := exec_next_pending c s
    refine ⟨t, ht, fun e he => .inl ?_⟩
    obtain ⟨u, hu, h⟩ := (keeps_latched e).answers he hc (hu := by simp [keeps])
    rw [ht] at hu
    cases hu
    rwa [settled_latched]

end Sys2Proof.Machine
end

section
/-! PROOFS. What no command takes back: a channel's climbed height and its target between plan events (R87, R93),
and the plan record, which is cleared whole or stays (R22). -/

namespace Sys2Proof.Machine

-- In order, so that the proofs waiting on one another do not hold a stack each.
set_option Elab.async false

/-! ### One channel -/

/-- The climbed height and the target stand. -/
structure Channel.Onward (c d : Channel) : Prop where
  climbed : d.climbed = c.climbed
  target : d.target = c.target

section
variable {r : SetupRecord} {now : Nat} {c d : Channel}

theorem Channel.Onward.of_eq (hc : d.climbed = c.climbed) (ht : d.target = c.target) : c.Onward d :=
  ⟨hc, ht⟩

theorem Channel.Onward.refl (c : Channel) : c.Onward c := .of_eq rfl rfl

theorem Channel.Onward.trans {e : Channel} (h : c.Onward d) (k : d.Onward e) : c.Onward e :=
  ⟨k.climbed.trans h.climbed, k.target.trans h.target⟩

/-- A further change of other items. -/
theorem Channel.Onward.then {e : Channel} (h : c.Onward d) (hc : e.climbed = d.climbed := by rfl)
    (ht : e.target = d.target := by rfl) : c.Onward e :=
  h.trans (.of_eq hc ht)

/-- A change of other items before. -/
theorem Channel.Onward.after {e : Channel} (h : d.Onward e) (hc : d.climbed = c.climbed := by rfl)
    (ht : d.target = c.target := by rfl) : c.Onward e :=
  (Channel.Onward.of_eq hc ht).trans h

theorem Channel.onward_shut : c.Onward (c.shut now) := by
  rw [Channel.shut_eq]
  exact .of_eq rfl rfl

theorem Channel.onward_stand (st : ChState) : c.Onward (c.stand st now) :=
  (c.onward_shut (now := now)).then

theorem Channel.onward_halt (st : ChState) : c.Onward (c.halt st now) :=
  (c.onward_stand (now := now) st).then

theorem Channel.onward_toHold : c.Onward (c.toHold r now) :=
  (c.onward_shut (now := now)).then

theorem Channel.onward_toRetract (b : Bool) : c.Onward (c.toRetract r now b) := by
  rw [Channel.toRetract_eq]
  dsimp only
  split <;> exact (c.onward_shut (now := now)).then

theorem Channel.onward_toExtend : c.Onward (c.toExtend r now) := by
  rw [Channel.toExtend_eq]
  dsimp only
  split <;> exact .of_eq rfl rfl

theorem Channel.onward_decideHome : c.Onward (c.decideHome r now) := by
  unfold Channel.decideHome
  split
  · exact c.onward_toRetract true
  · split
    · exact c.onward_toRetract false
    · exact c.onward_stand .rest

theorem Channel.onward_startDue : c.Onward (c.startDue r now) := by
  unfold Channel.startDue
  split
  · exact c.onward_halt .fault
  · split
    · exact .of_eq rfl rfl
    · exact c.onward_toExtend

theorem Channel.onward_openDeferred : c.Onward (c.openDeferred r now) := by
  unfold Channel.openDeferred
  split <;> exact .of_eq rfl rfl

theorem Channel.onward_actOnValid (reduced : Bool) (v : Nat) : c.Onward (c.actOnValid r now reduced v) := by
  unfold Channel.actOnValid
  split
  · split
    · exact c.onward_toHold
    · exact .refl c
  · split
    · exact c.onward_stand .rest
    · exact .refl c
  · split
    · exact .refl c
    · split
      · exact c.onward_toRetract false
      · exact .of_eq rfl rfl
  · exact .refl c

theorem Channel.onward_actOnInvalid (reduced : Bool) : c.Onward (c.actOnInvalid r now reduced) := by
  unfold Channel.actOnInvalid
  split
  · split
    · split
      · exact .of_eq rfl rfl
      · exact c.onward_toRetract true
    · exact c.onward_halt .fault
  · exact (c.onward_toHold (r := r) (now := now)).then
  · exact .of_eq rfl rfl
  · exact .of_eq rfl rfl
  · exact .refl c

theorem Channel.onward_leaveFault (inhibit reduced : Bool) :
    c.Onward (c.leaveFault r now inhibit reduced) := by
  unfold Channel.leaveFault
  split
  · exact c.onward_halt _
  · split
    · exact c.onward_halt _
    · split
      · exact c.onward_halt _
      · split
        · exact (c.onward_halt _).trans (Channel.onward_toRetract _)
        · exact c.onward_halt _

/-- No operation of a command lowers a climbed height or changes a target. -/
theorem MovedBy.onward {sweeps : Bool} {s : State} (h : MovedBy sweeps s c d) : c.Onward d := by
  cases h with
  | same => exact .refl c
  | cut =>
    unfold Channel.cut
    dsimp only
    split
    · exact (Channel.onward_toHold (c := { c with startPending := false })).after
    · exact .of_eq rfl rfl
  | startDue => exact c.onward_startDue
  | opened => exact c.onward_openDeferred
  | valid v => exact (Channel.onward_actOnValid (c := c.takeReading v) _ v).after
  | invalid => exact (c.onward_actOnInvalid (r := s.setup) (now := s.now) _).then
  | extended => exact c.onward_toHold
  | held => exact c.onward_toRetract _
  | failed => exact c.onward_halt _
  | freed => exact c.onward_leaveFault _ _
  | inhibited =>
    unfold Channel.inhibit
    split
    · exact .refl c
    · exact c.onward_halt _
  | released =>
    unfold Channel.release
    split
    · split
      · exact c.onward_stand _
      · exact c.onward_decideHome
    · exact .refl c
  | reduced =>
    unfold Channel.reduce
    split
    · exact .refl c
    · exact (c.onward_shut (now := s.now)).then
  | recovered =>
    unfold Channel.recover
    split
    · exact c.onward_decideHome
    · exact .refl c

end

/-! ### The targets and the plan record -/

/-- The targets stand as in `s₀`, and the plan record as there or cleared. -/
abbrev PlanStands (s₀ s : State) : Prop :=
  (∀ ch : Ch, (s.chan ch).target = (s₀.chan ch).target)
    ∧ (s.plan.last = s₀.plan.last ∨ s.plan.last = .blank)

section
variable {s₀ s : State}

theorem PlanStands.chans (h : PlanStands s₀ s) {q : PerChannel Channel}
    (hq : ∀ ch : Ch, (q.get ch).target = (s.chan ch).target) :
    PlanStands s₀ { s with seq.chans := q } :=
  ⟨fun ch => (hq ch).trans (h.1 ch), h.2⟩

theorem planStands_enterMode (m : Mode) (h : PlanStands s₀ s) : PlanStands s₀ (enterMode m s) := by
  refine ⟨fun ch => ?_, ?_⟩
  · rw [State.chan, enterMode_chans]
    exact h.1 ch
  · rw [enterMode_eq, rejudgeFeed_plan, takeMode_plan_last]
    split
    · split <;> exact h.2
    · exact .inr rfl

theorem movedParts_planStands : MovedParts (PlanStands s₀) False where
  moved q s h hq := h.chans fun ch => (hq ch).onward.target
  credited c s h _ := by
    refine (h.chans (q := (creditHeight c s).seq.chans) fun ch => ?_)
    show ((updateCh c (Channel.credited s.setup) s).chan ch).target = _
    rw [updateCh_chan]
    split
    · rename_i e
      exact e ▸ rfl
    · rfl
  planned := nofun

theorem latchParts_planStands : LatchParts (PlanStands s₀) where
  enter m _ h _ _ := planStands_enterMode m h
  cut _ h := movedParts_planStands.cut h

theorem planStands_bringIntoForce (h : PlanStands s₀ s) : PlanStands s₀ (bringIntoForce s) := by
  refine ⟨fun ch => ?_, h.2⟩
  refine Eq.trans ?_ (h.1 ch)
  show ((PerChannel.ofFn _ : PerChannel Channel).get ch).target = _
  rw [PerChannel.get_ofFn]
  split
  · unfold commitChannel
    split <;> rfl
  · rfl

theorem setHeights_chan (h : Nat) (s : State) (ch : Ch) :
    (setHeights h s).chan ch
      = if (s.chan ch).isActive = true then { s.chan ch with climbed := h } else s.chan ch := by
  cases ch <;> rfl

theorem setHeights_target (h : Nat) (s : State) (ch : Ch) :
    ((setHeights h s).chan ch).target = (s.chan ch).target := by
  rw [setHeights_chan]
  split <;> rfl

@[simp] theorem adoptStack_seq (h m : Nat) (s : State) : (adoptStack h m s).seq = s.seq := by
  unfold adoptStack
  split <;> rfl

@[simp] theorem adoptStack_plan (h m : Nat) (s : State) : (adoptStack h m s).plan = s.plan := by
  unfold adoptStack
  split <;> rfl

theorem joinParts_planStands : JoinParts (PlanStands s₀) where
  fresh s h := ⟨fun ch => (setHeights_target _ s ch).trans (h.1 ch), h.2⟩
  adopt s h := by
    refine ⟨fun ch => ?_, ?_⟩
    · rw [State.chan, removeExited_seq, adoptStack_seq]
      exact (setHeights_target _ s ch).trans (h.1 ch)
    · rw [removeExited_plan, adoptStack_plan]
      exact h.2
  leave m _ h _ _ := planStands_enterMode m h

theorem keeps_planStands : Keeps (PlanStands s₀) False True :=
  have F : FeedParts (PlanStands s₀) := {}
  have M := latchParts_planStands.moves
  { steer := M.steering
    jacks := movedParts_planStands.jacks M
    concrete := F.concrete M
    line := M.line
    peers := M.peers F fun _ k _ => joinParts_planStands.decide M k
    setup := M.setup joinParts_planStands (fun m _ => planStands_enterMode m)
      (bring := fun _ k _ => planStands_bringIntoForce k)
    guards := M.guards (free := fun b _ k => movedParts_planStands.free b k)
    supply := F.supply M movedParts_planStands (fun m _ h _ _ => planStands_enterMode m h)
      (fall := fun _ k _ => ⟨k.1, .inr rfl⟩) }

end

/-- Settles O20: only a plan event writes targets and a plan record, and leaving CLIMBING and PAUSED clears the
record. -/
theorem planHoldsThroughCycle : Obligations.PlanHoldsThroughCycle := by
  intro c s hi he hc
  have idle : mayPlan c = false := by
    cases c with
    | cycleTimerExpiry => exact absurd rfl he
    | cycleCompletion => exact absurd rfl hc
    | _ => rfl
  have start : PlanStands s s := ⟨fun _ => rfl, .inl rfl⟩
  obtain ⟨u, hu, targets, last⟩ := keeps_planStands.answers start hi (hp := by simp [idle])
  obtain ⟨busy, e⟩ := settled_spec s u
  rw [e] at hu
  exact ⟨_, hu, targets, last⟩

end Sys2Proof.Machine
end

section
/-! PROOFS. A station whose join is done: the commands but a reset leave it so (R161, R179), and no channel's
climbed height falls (R93). -/

namespace Sys2Proof.Machine

-- In order, so that the proofs waiting on one another do not hold a stack each.
set_option Elab.async false

/-! ### The join done -/

/-- The join has ended and the station, in REDUCED by its return mode, is in a mode that takes commands. -/
abbrev JoinDone (s : State) : Prop :=
  s.join.state = .done ∧ s.join.listenTimer = none ∧ s.effectiveMode.takesCommands = true

theorem settle_takesCommands {m : Mode} (p : PauseSet) (s : State) (hm : m.takesCommands = true) :
    (settle m p s).1.takesCommands = true := by
  rcases settle_cases m p s with ⟨-, -, e⟩ | ⟨-, -, -, e⟩ | ⟨-, -, -, e⟩ | ⟨-, -, e⟩ <;> rw [e]
  · rfl
  · exact hm
  · rfl
  · exact hm

/-- A mode entered is the mode the entry checks lead to, also for what reads the return mode. -/
theorem enterMode_effectiveMode (m : Mode) (s : State) :
    (enterMode m s).effectiveMode = (settle m (entryPause m s) s).1 := by
  by_cases k : (enterMode m s).ctl.mode = .reduced
  · rw [effectiveMode_of_reduced k, enterMode_returnMode, ← enterMode_mode, k]
    rfl
  · rw [effectiveMode_of_ne_reduced k, enterMode_mode]

/-- The mode returned to from REDUCED takes commands where the return mode does. -/
theorem returnTo_takesCommands {s : State} (hm : s.ctl.mode = .reduced) (h : s.effectiveMode.takesCommands = true) :
    (returnTo s).takesCommands = true := by
  rw [effectiveMode_of_reduced hm] at h
  unfold returnTo
  dsimp only
  cases hr : s.ctl.returnMode with
  | none =>
    rw [hr] at h
    cases h
  | some m =>
    rw [hr] at h
    split
    · split <;> rfl
    · exact h

section
variable {s : State}

theorem joinDone_enterMode {m : Mode} (hm : m.takesCommands = true) (h : JoinDone s) :
    JoinDone (enterMode m s) := by
  obtain ⟨hs, hl, -⟩ := h
  have a := aside_enterMode m s
  obtain ⟨x, y, e⟩ := a.join
  refine ⟨a.join_state.trans hs, ?_, ?_⟩
  · rw [e]
    exact hl
  · rw [enterMode_effectiveMode]
    exact settle_takesCommands _ _ hm

theorem latchParts_joinDone : LatchParts JoinDone where
  enter _ _ h _ hm := joinDone_enterMode hm h
  stop s h hm _ := ⟨h.1, h.2.1, by rw [effectiveMode_of_reduced (by exact hm)]; rfl⟩

theorem moves_joinDone : Moves JoinDone fun _ => true := latchParts_joinDone.moves

theorem JoinDone.not_setup (h : JoinDone s) : s.ctl.mode ≠ .setup := by
  obtain ⟨-, -, ht⟩ := h
  intro hm
  rw [effectiveMode_of_ne_reduced (by simp [hm]), hm] at ht
  cases ht

/-- Nothing of setup and of the join is left to such a station: its commits, its window and its listen are
past. -/
theorem setupKeeps_of_joinDone {P : State → Prop} (done : ∀ t : State, P t → JoinDone t)
    (request : ∀ (d : Timer) (s : State), P s →
      P (requestSetup { s with join.requestTimer := d }) := by exact fun _ _ h => h)
    (close : ∀ s : State, P s →
      P { s with join.stage := .closed, join.windowTimer := none, join.requestTimer := none } := by
        exact fun _ h => h) : SetupKeeps P where
  stage _ _ _ h hm _ := absurd hm (done _ h).not_setup
  refuseCommit _ _ h hm := absurd hm (done _ h).not_setup
  commit _ _ h hm _ := absurd hm (done _ h).not_setup
  request s h _ := request _ s h
  window s h _ := by
    unfold lockStation
    split
    · exact absurd ‹_› (done s h).not_setup
    · rename_i hm
      split
      · rename_i hr
        obtain ⟨-, -, ht⟩ := done s h
        have hm' : s.ctl.mode = .reduced := hm
        rw [effectiveMode_of_reduced hm', show s.ctl.returnMode = some .setup from hr] at ht
        cases ht
      · exact close s h
    · exact close s h
  listen s h ht := by
    obtain ⟨-, hl, -⟩ := done s h
    rw [hl] at ht
    cases ht

theorem joinDone_toReduced (hm : s.ctl.mode ≠ .reduced) (h : JoinDone s) : JoinDone (toReduced s) := by
  obtain ⟨hs, hl, ht⟩ := h
  rw [effectiveMode_of_ne_reduced hm] at ht
  exact ⟨hs, hl, ht⟩

end

/-! ### The climbed heights -/

/-- The climbed heights are not below those of `s₀`, and the join is done. -/
abbrev Climbs (s₀ s : State) : Prop :=
  (∀ ch : Ch, (s₀.chan ch).climbed ≤ (s.chan ch).climbed) ∧ JoinDone s

section
variable {s₀ s : State}

theorem climbs_enterMode {m : Mode} (hm : m.takesCommands = true) (h : Climbs s₀ s) :
    Climbs s₀ (enterMode m s) := by
  refine ⟨fun ch => ?_, joinDone_enterMode hm h.2⟩
  show _ ≤ ((enterMode m s).seq.chans.get ch).climbed
  rw [enterMode_chans]
  exact h.1 ch

/-- A credit is at or above what the channel had climbed: the sum is held down at 200 m alone. -/
theorem climbs_creditHeight (hmax : ∀ ch : Ch, (s₀.chan ch).climbed ≤ Config.heightMax) (c : Ch)
    (h : Climbs s₀ s) : Climbs s₀ (creditHeight c s) := by
  refine ⟨fun ch => ?_, h.2⟩
  show _ ≤ ((updateCh c (Channel.credited s.setup) s).chan ch).climbed
  rw [updateCh_chan]
  split
  · rename_i e
    subst e
    rw [Channel.credited_climbed]
    have low := h.1 ch
    have high := hmax ch
    omega
  · exact h.1 ch

theorem movedParts_climbs (hmax : ∀ ch : Ch, (s₀.chan ch).climbed ≤ Config.heightMax) :
    MovedParts (Climbs s₀) True where
  moved q s h hq := ⟨fun ch => (h.1 ch).trans (hq ch).onward.climbed.ge, h.2⟩
  credited c s h _ := climbs_creditHeight hmax c h
  planned _ _ s h _ _ := by
    refine ⟨fun ch => (h.1 ch).trans ?_, h.2⟩
    show _ ≤ ((PerChannel.ofFn _ : PerChannel Channel).get ch).climbed
    rw [PerChannel.get_ofFn]
    unfold Channel.takeTarget
    split <;> exact le_rfl

theorem keeps_climbs (hmax : ∀ ch : Ch, (s₀.chan ch).climbed ≤ Config.heightMax) : Keeps (Climbs s₀) :=
  have F : FeedParts (Climbs s₀) := {}
  have H := movedParts_climbs hmax
  have L : LatchParts (Climbs s₀) :=
    { enter := fun m _ h _ hm => climbs_enterMode hm h
      cut := fun _ h => H.cut h
      stop := fun s h hm hr => ⟨h.1, latchParts_joinDone.stop s h.2 hm hr⟩ }
  have M := L.moves
  { steer := M.steering
    jacks := H.jacks M
    concrete := F.concrete M
    line := M.line
    peers := M.peers F fun s k hw => absurd (k.2.1.symm.trans hw) nofun
    setup := setupKeeps_of_joinDone fun _ h => h.2
    guards := M.guards (free := fun b _ k => H.free b k)
    supply := F.supply M H (fun _ _ h hm e => climbs_enterMode (e ▸ returnTo_takesCommands hm h.2.2.2) h)
      (fall := fun _ k hm => ⟨k.1, joinDone_toReduced hm k.2⟩) }

end

/-- In a sound state whose join is done the station is past setup. -/
theorem Sound.joinDone {s : State} (h : Sound s) (hd : s.join.state = .done) : JoinDone s := by
  obtain ⟨-, -, -, -, -, -, hlisten, -, -, -, hretain, -⟩ := h.join
  rw [hd] at hlisten hretain
  refine ⟨hd, ?_, hretain⟩
  rw [← Option.not_isSome_iff_eq_none, hlisten]
  decide

/-- Settles O18: a stroke adds to a channel's height, and only the end of a join sets it otherwise. -/
theorem climbedHeightNeverFalls : Obligations.ClimbedHeightNeverFalls := by
  intro c s hs hd hi
  have hmax : ∀ ch : Ch, (s.chan ch).climbed ≤ Config.heightMax := fun ch =>
    (hs.channels ch (Ch.mem_all ch)).2.1.1
  obtain ⟨u, hu, hc, -⟩ :=
    (keeps_climbs hmax).answers (s := s) ⟨fun _ => le_rfl, hs.joinDone hd⟩ hi
  obtain ⟨busy, e⟩ := settled_spec s u
  rw [e] at hu
  exact ⟨_, hu, hc⟩

end Sys2Proof.Machine
end

section
/-! PROOFS. The resets (R20, R22, R64, R80, R105, R124, R163, R173, R180, R198): what each course leaves. -/

namespace Sys2Proof.Machine

-- In order, so that the proofs waiting on one another do not hold a stack each.
set_option Elab.async false

/-! ### What a judgement leaves of the other conditions -/

theorem raiseCond_isPresent (c d : Cond) (s : State) :
    (raiseCond c s).isPresent d = (d == c || s.isPresent d) := by
  have shown := raiseCond_present c s
  cases hc : s.isPresent c <;> simp only [hc, if_true, Bool.false_eq_true, if_false] at shown
  · rw [State.isPresent, shown, List.contains_append, ← State.isPresent, Bool.or_comm]
    rw [List.contains_cons, List.contains_nil, Bool.or_false]
  · rw [State.isPresent, shown, ← State.isPresent]
    by_cases h : d = c
    · subst h
      simp [hc]
    · simp [h]

theorem lapseCond_isPresent (c d : Cond) (s : State) :
    (lapseCond c s).isPresent d = (d != c && s.isPresent d) := by
  have shown := lapseCond_present c s
  cases hc : s.isPresent c <;> simp only [hc, if_true, Bool.false_eq_true, if_false] at shown
  · rw [State.isPresent, shown, ← State.isPresent]
    by_cases h : d = c
    · subst h
      simp [hc]
    · simp [h]
  · rw [State.isPresent, shown]
    by_cases h : d = c <;> simp [State.isPresent, h]

theorem judgeCond_isPresent_of_ne {c d : Cond} (h : d ≠ c) (b : Bool) (s : State) :
    (judgeCond c b s).isPresent d = s.isPresent d := by
  cases b
  · exact (lapseCond_isPresent c d s).trans (by simp [h])
  · exact (raiseCond_isPresent c d s).trans (by simp [h])

@[simp] theorem reportFaults_sup (s t : State) : (reportFaults s t).sup = t.sup := by
  rcases reportFaults_cases s t with ⟨-, e⟩ | ⟨-, e⟩ <;> rw [e]
  rfl

theorem reportFaults_isPresent (s t : State) (c : Cond) :
    (reportFaults s t).isPresent c = t.isPresent c := by
  simp [State.isPresent]

/-! ### JACK SPREAD as a comparison of two channels (R187) -/

theorem lt_range_iff {hs : List Nat} {m : Nat} :
    m < hs.max?.getD 0 - hs.min?.getD 0 ↔ ∃ a ∈ hs, ∃ b ∈ hs, m < a - b := by
  cases hmax : hs.max? with
  | none =>
    rw [List.max?_eq_none_iff] at hmax
    simp [hmax]
  | some high =>
    cases hmin : hs.min? with
    | none =>
      rw [List.min?_eq_none_iff] at hmin
      simp [hmin] at hmax
    | some low =>
      obtain ⟨highMem, highMost⟩ := List.max?_eq_some_iff.mp hmax
      obtain ⟨lowMem, lowLeast⟩ := List.min?_eq_some_iff.mp hmin
      simp only [Option.getD_some]
      constructor
      · exact fun h => ⟨high, highMem, low, lowMem, h⟩
      · rintro ⟨a, ha, b, hb, h⟩
        have := highMost a ha
        have := lowLeast b hb
        omega

theorem PerChannel.mem_toList {α : Type} {q : PerChannel α} {x : α} :
    x ∈ q.toList ↔ ∃ ch ∈ Ch.all, q.get ch = x := by
  simp [PerChannel.toList, PerChannel.get, Ch.all, eq_comm]

theorem mem_activeHeights {q : PerChannel Channel} {h : Nat} :
    h ∈ activeHeights q ↔ ∃ ch ∈ Ch.all, (q.get ch).isActive = true ∧ (q.get ch).climbed = h := by
  simp only [activeHeights, List.mem_map, List.mem_filter, PerChannel.mem_toList]
  constructor
  · rintro ⟨c, ⟨⟨ch, hch, rfl⟩, ha⟩, rfl⟩
    exact ⟨ch, hch, ha, rfl⟩
  · rintro ⟨ch, hch, ha, rfl⟩
    exact ⟨_, ⟨⟨ch, hch, rfl⟩, ha⟩, rfl⟩

theorem lt_jackSpread_iff {q : PerChannel Channel} {m : Nat} :
    m < jackSpread q ↔ ∃ c ∈ Ch.all, ∃ d ∈ Ch.all, (q.get c).isActive = true ∧ (q.get d).isActive = true
      ∧ m < (q.get c).climbed - (q.get d).climbed := by
  rw [jackSpread, lt_range_iff]
  constructor
  · rintro ⟨a, ha, b, hb, h⟩
    obtain ⟨c, hc, hca, rfl⟩ := mem_activeHeights.mp ha
    obtain ⟨d, hd, hda, rfl⟩ := mem_activeHeights.mp hb
    exact ⟨c, hc, d, hd, hca, hda, h⟩
  · rintro ⟨c, hc, d, hd, hca, hda, h⟩
    exact ⟨_, mem_activeHeights.mpr ⟨c, hc, hca, rfl⟩, _, mem_activeHeights.mpr ⟨d, hd, hda, rfl⟩, h⟩

/-! ### The supervisor of a restore -/

section
variable {strap : BitVec 6} {inhibit : Bool} {a b : Option Image} {k : Kept} {s t : State}

/-- What stands in every state of a restore from the images' contents on. -/
structure RestoredFaults (k : Kept) (t : State) : Prop where
  entries : k.latched <+: t.sup.latched
  internal : t.sup.onCrystal = false

theorem Restored.faults_judgeCond (h : Restored strap inhibit a b k s t) (f : RestoredFaults k t)
    (c : Cond) (present : Bool) : RestoredFaults k (Machine.judgeCond c present t) := by
  obtain ⟨entries, internal⟩ := f
  rw [h.judgeCond]
  constructor
  · dsimp only
    split
    · split
      · exact entries.trans (List.prefix_append _ _)
      · exact entries
    · split <;> exact entries
  · dsimp only
    split
    · split <;> exact internal
    · split <;> exact internal

theorem RestoredFaults.reported (f : RestoredFaults k t) (before : State) :
    RestoredFaults k (reportFaults before t) := by
  constructor <;> rw [reportFaults_sup]
  · exact f.entries
  · exact f.internal

theorem Restored.faults_judgePeers (h : Restored strap inhibit a b k s t) (f : RestoredFaults k t) :
    RestoredFaults k (judgePeers t) :=
  (h.judged .neighbourLost _).faults_judgeCond (h.faults_judgeCond f .neighbourLost _) .peerSilent _

theorem Restored.faults_inhibitAtReset (h : Restored strap inhibit a b k s t) (f : RestoredFaults k t) :
    RestoredFaults k (inhibitAtReset t) := by
  unfold inhibitAtReset
  split
  · exact RestoredFaults.reported (h.faults_judgeCond f .inhibit true) t
  · exact f

theorem restoredFaults_restoreCourse : RestoredFaults k (restoreCourse strap inhibit a b k s) := by
  have latched : RestoredFaults k (restoreLatched k.latched (restoreReset strap inhibit a b k s)) :=
    ⟨List.prefix_rfl, rfl⟩
  have r := restored_restoreLatched (strap := strap) (inhibit := inhibit) (a := a) (b := b) (k := k)
    (s := s) k.latched
  have spread : RestoredFaults k (judgeSpread (restoreLatched k.latched (restoreReset strap inhibit a b k s))) :=
    r.faults_judgeCond latched _ _
  have reported := r.judgedSpread.reported (restoreLatched k.latched (restoreReset strap inhibit a b k s))
  have peers := reported.faults_judgePeers (spread.reported _)
  rw [restoreCourse_eq]
  exact reported.judgedPeers.faults_inhibitAtReset peers

/-- The conditions present after a restore: CLOCK FALLBACK and what the reset judges (R187, R189, R198). -/
theorem restoreCourse_isPresent {c : Cond} (hn : c ≠ .neighbourLost) (hp : c ≠ .peerSilent) :
    (restoreCourse strap inhibit a b k s).isPresent c
      = (c == .clockFallback || (c == .inhibit && inhibit)
          || (c == .jackSpread && decide (k.setup.spreadMax
            < jackSpread (restoreReset strap inhibit a b k s).seq.chans))) := by
  have first : (restoreLatched k.latched (restoreReset strap inhibit a b k s)).isPresent c
      = (c == .clockFallback) := by
    show ([Cond.clockFallback].contains c) = _
    rw [List.contains_cons, List.contains_nil, Bool.or_false]
  rw [restoreCourse_eq]
  dsimp only
  generalize hv : restoreLatched k.latched (restoreReset strap inhibit a b k s) = v at first
  have setup : v.setup = k.setup := by rw [← hv]; rfl
  have chans : v.seq.chans = (restoreReset strap inhibit a b k s).seq.chans := by rw [← hv]; rfl
  have spread : (reportFaults v (judgeSpread v)).isPresent c
      = (c == .clockFallback || (c == .jackSpread && decide (k.setup.spreadMax
          < jackSpread (restoreReset strap inhibit a b k s).seq.chans))) := by
    rw [reportFaults_isPresent, judgeSpread, setup, chans]
    by_cases h : c = .jackSpread
    · subst h
      rw [judgeCond_isPresent]
      rfl
    · rw [judgeCond_isPresent_of_ne h, first]
      simp [h]
  have peers : (judgePeers (reportFaults v (judgeSpread v))).isPresent c
      = (reportFaults v (judgeSpread v)).isPresent c := by
    unfold judgePeers
    dsimp only
    rw [judgeCond_isPresent_of_ne hp, judgeCond_isPresent_of_ne hn]
  have input : (judgePeers (reportFaults v (judgeSpread v))).inhibitInput = inhibit := by
    have held : Restored strap inhibit a b k s (judgePeers (reportFaults v (judgeSpread v))) := by
      rw [← hv]
      exact ((restored_restoreLatched k.latched).judgedSpread.reported _).judgedPeers
    obtain ⟨⟨p, q, e⟩, -⟩ := held
    rw [e]
    rfl
  unfold inhibitAtReset
  rw [input]
  cases inhibit
  · rw [if_neg nofun, peers, spread]
    simp
  · rw [if_pos rfl, reportFaults_isPresent, raiseCond_isPresent, peers, spread]
    rw [Bool.and_true, Bool.or_left_comm, Bool.or_assoc]

end

/-! ### Every reset (R22, R80, R124, R198) -/

theorem withInhibit_isPresent {inhibit : Bool} {s : State} {c : Cond} (h : c ≠ .inhibit) :
    (withInhibit inhibit s).isPresent c = s.isPresent c := by
  cases inhibit
  · rfl
  · simp [State.isPresent, withInhibit, h]

/-- Settles O5: no course writes the cure integrator, the feed controller, the plan or the time base after the
common part of the resets. -/
theorem everyResetClearsCureAndFeed : Obligations.EveryResetClearsCureAndFeed := by
  intro c s hc
  obtain ⟨t, ht⟩ := exec_reset_next hc s
  refine ⟨t, ht, ?_⟩
  rcases exec_reset_cases hc ht with
    ⟨strap, inhibit, a, b, -, rfl, -⟩ | ⟨strap, inhibit, -, rfl⟩
      | ⟨strap, inhibit, cut, a, b, image, -, -, -, -, rfl⟩
  · rw [lockedCourse_eq]
    refine ⟨rfl, rfl, rfl, rfl, ?_, ?_, ?_, rfl, ?_⟩ <;> rw [withInhibit_isPresent (by decide)] <;> rfl
  · rw [setupCourse_eq]
    refine ⟨rfl, rfl, rfl, rfl, ?_, ?_, ?_, rfl, ?_⟩ <;> rw [withInhibit_isPresent (by decide)] <;> rfl
  · have shown := fun c hn hp => restoreCourse_isPresent (strap := strap) (inhibit := inhibit) (a := a)
      (b := b) (k := image.kept) (s := s) (c := c) hn hp
    have internal := (restoredFaults_restoreCourse (strap := strap) (inhibit := inhibit) (a := a) (b := b)
      (k := image.kept) (s := s)).internal
    obtain ⟨⟨p, q, e⟩, -⟩ := restored_restoreCourse (strap := strap) (inhibit := inhibit) (a := a) (b := b)
      (k := image.kept) (s := s)
    refine ⟨?_, ?_, ?_, ?_, ?_, ?_, ?_, internal, ?_⟩
    · rw [e]; rfl
    · rw [e]; rfl
    · rw [e]; rfl
    · rw [e]; rfl
    · rw [shown .temperature (by decide) (by decide)]; rfl
    · rw [shown .probe (by decide) (by decide)]; rfl
    · rw [shown .feedTimeout (by decide) (by decide)]; rfl
    · rw [shown .clockFallback (by decide) (by decide)]; rfl

/-- Settles O2: each law is read off the reset values. -/
theorem resetIsSound : Obligations.ResetIsSound where
  mode := by decide
  pause := by decide
  entry := by decide
  plan := by decide
  valves := by decide
  channels := by decide
  height := by decide
  stack := by decide
  cure := by decide
  gate := by decide
  depth := by decide
  peers := by decide +kernel
  availability := by decide +kernel
  line := by decide
  join := by decide
  setup := by decide +kernel
  latch := by decide
  drive := by decide
  halt := by decide
  presence := by decide
  record := by decide

/-! ### The power-on reset -/

theorem defaultRecord_roster : defaultRecord.roster = 59 := by decide

theorem defaultRecord_reportPeriod : defaultRecord.reportPeriod = 500 := by decide

theorem freshRecords_eq (roster own : Nat) :
    freshRecords roster own = (rosterNumbers roster own).map State.resetPeer := rfl

/-- The setup course, with every item at its reset value (R163). -/
theorem setupCourse_reset {strap : BitVec 6} (hs : strapGood strap = true) (inhibit : Bool) (s : State) :
    setupCourse strap inhibit s
      = { State.reset with
          strap := strap
          inhibitInput := inhibit
          peers.records := (rosterNumbers 59 strap.toNat).map State.resetPeer
          line.sender := strap.toNat
          line.report := if inhibit then .pending .urgent else .empty
          join.ownNumber := strap.toNat
          sup.present := if inhibit then [.clockFallback, .inhibit] else [.clockFallback]
          pending := s.pending } := by
  rw [setupCourse_eq, setupReset]
  unfold resetAll resetJoin resetDeck
  rw [strapNumber_good hs, defaultRecord_roster, defaultRecord_reportPeriod, freshRecords_eq]
  cases inhibit <;> rfl

theorem exec_powerOnReset_good {strap : BitVec 6} (hs : strapGood strap = true) (inhibit : Bool) (s : State) :
    exec (.powerOnReset strap inhibit) s = .next (setupCourse strap inhibit s) := by
  show Host.Outcome.next _ = _
  rw [hs, if_pos rfl]

theorem exec_powerOnReset_bad {strap : BitVec 6} (hs : strapGood strap = false) (inhibit : Bool) (s : State) :
    exec (.powerOnReset strap inhibit) s = .next (lockedCourse strap inhibit none none s) := by
  show Host.Outcome.next _ = _
  rw [hs, if_neg nofun]

theorem exec_brownOutReset_bad {strap : BitVec 6} (hs : strapGood strap = false) (inhibit cut : Bool)
    (s : State) :
    exec (.brownOutReset strap inhibit cut) s
      = .next (lockedCourse strap inhibit (imagesFound cut s).1 (imagesFound cut s).2 s) := by
  show Host.Outcome.next _ = _
  rw [hs, if_neg nofun]

/-- A brown-out without an image of the strap's number takes the setup course (R172). -/
theorem exec_brownOutReset_other {strap : BitVec 6} (hs : strapGood strap = true) (inhibit cut : Bool)
    {s : State} (hi : ∀ i ∈ usedImage s.join.imageA s.join.imageB, i.kept.number ≠ strap.toNat) :
    exec (.brownOutReset strap inhibit cut) s = .next (setupCourse strap inhibit s) := by
  show Host.Outcome.next _ = _
  rw [hs, if_pos rfl, usedImage_imagesFound]
  split
  · rename_i i hu
    rw [if_neg (hi i hu)]
  · rfl

theorem exec_brownOutReset_restore {strap : BitVec 6} (hs : strapGood strap = true) (inhibit cut : Bool)
    {s : State} {i : Image} (hu : usedImage s.join.imageA s.join.imageB = some i)
    (hn : i.kept.number = strap.toNat) :
    exec (.brownOutReset strap inhibit cut) s
      = .next (restoreCourse strap inhibit (imagesFound cut s).1 (imagesFound cut s).2 i.kept s) := by
  show Host.Outcome.next _ = _
  rw [hs, if_pos rfl, usedImage_imagesFound, hu]
  exact congrArg _ (if_pos hn)

theorem strapGood_iff {strap : BitVec 6} : strapGood strap = true ↔ 1 ≤ strap.toNat ∧ strap.toNat ≤ 59 := by
  simp [strapGood]

theorem imagesFound_uncut (s : State) : imagesFound false s = (s.join.imageA, s.join.imageB) := rfl

/-- Settles O3: the two courses without a restore, item by item. -/
theorem resetTakesCourseByStrap : Obligations.ResetTakesCourseByStrap := by
  intro s strap inhibit cut
  constructor
  · intro low high
    have good := strapGood_iff.mpr ⟨low, high⟩
    rw [← setupCourse_reset good]
    exact ⟨exec_powerOnReset_good good inhibit s, exec_brownOutReset_other good inhibit cut⟩
  · intro h
    have bad : strapGood strap = false := by
      rw [← Bool.not_eq_true, strapGood_iff]
      omega
    refine ⟨_, _, exec_powerOnReset_bad bad inhibit s, exec_brownOutReset_bad bad inhibit cut s, ?_⟩
    rw [lockedCourse_eq, lockedCourse_eq]
    have zero := strapNumber_bad bad
    exact ⟨rfl, rfl, zero, zero, zero, zero, rfl, rfl, rfl, rfl, rfl, rfl, rfl, rfl, rfl, rfl,
      usedImage_imagesFound cut s, by rintro rfl; exact ⟨rfl, rfl⟩⟩

end Sys2Proof.Machine
end

section
/-! PROOFS. What a restore loads (R47, R64, R173, R187, R198). -/

namespace Sys2Proof.Machine

-- In order, so that the proofs waiting on one another do not hold a stack each.
set_option Elab.async false

section
variable {strap : BitVec 6} {inhibit : Bool} {a b : Option Image} {k : Kept} {s t : State}

theorem restoreChannel_climbed (inhibit active : Bool) (h : Nat) :
    (restoreChannel inhibit active h).climbed = h := by
  cases active <;> cases inhibit <;> rfl

theorem restoreChannel_isActive (inhibit active : Bool) (h : Nat) :
    (restoreChannel inhibit active h).isActive = active := by
  cases active <;> cases inhibit <;> rfl

/-- Every valve of a restore is closed and nothing waits (R105). -/
theorem restoreChannel_shut (inhibit active : Bool) (h : Nat) :
    StandsShut (if active = true then (if inhibit = true then .inhibited else .rest) else .off)
      (restoreChannel inhibit active h) := by
  cases active <;> cases inhibit <;> exact ⟨rfl, rfl, rfl, rfl, rfl⟩

theorem restoreReset_chan (ch : Ch) : (restoreReset strap inhibit a b k s).chan ch
    = restoreChannel inhibit (k.setup.active ch) (k.climbed.get ch) :=
  PerChannel.get_ofFn _ ch

theorem restoreReset_climbed :
    (restoreReset strap inhibit a b k s).seq.chans.map Channel.climbed = k.climbed := by
  show PerChannel.mk _ _ _ _ = _
  simp only [restoreReset, removeExited, workHeight, PerChannel.ofFn, restoreChannel_climbed]
  rfl

/-- The spread of a restore is the one of the image's heights (R187). -/
theorem lt_jackSpread_restoreReset {m : Nat} :
    m < jackSpread (restoreReset strap inhibit a b k s).seq.chans
      ↔ ∃ c ∈ Ch.all, ∃ d ∈ Ch.all, k.setup.active c = true ∧ k.setup.active d = true
        ∧ m < k.climbed.get c - k.climbed.get d := by
  rw [lt_jackSpread_iff]
  have get : ∀ ch, (restoreReset strap inhibit a b k s).seq.chans.get ch = _ := restoreReset_chan
  simp only [get, restoreChannel_isActive, restoreChannel_climbed]

theorem restoreReset_records {p : Peer} (h : p ∈ (restoreReset strap inhibit a b k s).peers.records) :
    p = State.resetPeer p.number := by
  obtain ⟨n, -, rfl⟩ := List.mem_map.mp h
  rfl

theorem Restored.chan (h : Restored strap inhibit a b k s t) (ch : Ch) :
    t.chan ch = restoreChannel inhibit (k.setup.active ch) (k.climbed.get ch) := by
  obtain ⟨⟨p, q, rfl⟩, -⟩ := h
  show (restoreReset strap inhibit a b k s).seq.chans.get ch = _
  exact restoreReset_chan ch

theorem Restored.climbed (h : Restored strap inhibit a b k s t) :
    t.seq.chans.map Channel.climbed = k.climbed := by
  obtain ⟨⟨p, q, rfl⟩, -⟩ := h
  exact restoreReset_climbed (strap := strap) (inhibit := inhibit) (a := a) (b := b) (k := k) (s := s)

theorem Restored.records (h : Restored strap inhibit a b k s t) :
    ∀ p ∈ t.peers.records, p = State.resetPeer p.number := by
  obtain ⟨⟨p, q, rfl⟩, -⟩ := h
  exact fun p => restoreReset_records (strap := strap) (inhibit := inhibit) (a := a) (b := b) (k := k) (s := s)

/-! ### The report of a restore -/

/-- An entry held already shows the same with its condition present. -/
theorem faultView_present_of_latched {c : Cond} (h : s.isLatched c = true) :
    faultView { s with sup.present := s.sup.present ++ [c] } = faultView s := by
  have shown : ∀ d : Cond,
      (State.isPresent { s with sup.present := s.sup.present ++ [c] } d || s.isLatched d)
        = (s.isPresent d || s.isLatched d) := by
    intro d
    by_cases e : d = c
    · subst e
      simp [h]
    · simp [State.isPresent, e]
  show FaultView.mk (Cond.all.filter fun d =>
    State.isPresent { s with sup.present := s.sup.present ++ [c] } d || s.isLatched d) _ _ _ _ = _
  simp only [shown]
  rfl

/-- The judgement of JACK SPREAD is reported where the condition comes in unlatched (R197). -/
theorem Restored.report_judgeSpread (h : Restored strap inhibit a b k s t)
    (hp : t.isPresent .jackSpread = false) :
    (reportFaults t (judgeSpread t)).line.report
      = if (judgeSpread t).isPresent .jackSpread = true ∧ t.isLatched .jackSpread = false then
          t.line.report.request .urgent
        else t.line.report := by
  have line : (judgeSpread t).line = t.line := by
    rw [judgeSpread, h.judgeCond]
  have presence := judgeCond_isPresent .jackSpread (decide (t.setup.spreadMax < jackSpread t.seq.chans)) t
  have same : ¬((judgeSpread t).isPresent .jackSpread = true ∧ t.isLatched .jackSpread = false) →
      faultView (judgeSpread t) = faultView t := by
    intro k
    rw [judgeSpread] at k ⊢
    rw [presence] at k
    cases hd : decide (t.setup.spreadMax < jackSpread t.seq.chans)
    · rcases lapseCond_cases .jackSpread t with ⟨-, e⟩ | ⟨e, -⟩
      · exact congrArg faultView e
      · rw [hp] at e
        cases e
    · have held : t.isLatched .jackSpread = true := by simpa [hd] using k
      rw [h.judgeCond, hp, held]
      simpa using faultView_present_of_latched held
  rcases reportFaults_cases t (judgeSpread t) with ⟨view, e⟩ | ⟨view, e⟩
  · rw [e, line, if_neg]
    rintro ⟨shown, unlatched⟩
    exact faultView_appear_ne (Cond.mem_all _) ⟨hp, unlatched⟩ shown view
  · have shown := Classical.not_not.mp fun k => view (same k)
    rw [e, if_pos shown, ← line]
    rfl

theorem Restored.line_judgePeers (h : Restored strap inhibit a b k s t) :
    (judgePeers t).line = t.line := by
  unfold judgePeers
  dsimp only
  rw [(h.judged .neighbourLost _).judgeCond, h.judgeCond]

/-- INHIBIT is of class HOLD and is never latched (R184, R189). -/
theorem LatchesInOrder.inhibit_unlatched (h : LatchesInOrder t) : t.isLatched .inhibit = false := by
  have entries := h.faults.entries.2
  by_contra k
  have held : Cond.inhibit ∈ t.sup.latched := by simpa [State.isLatched] using k
  rcases entries _ held with e | e <;> cases e

/-- The report of a restore (R160, R197). -/
theorem restoreCourse_report (hk : LatchedSet k.setup k.latched) :
    (restoreCourse strap inhibit a b k s).line.report
      = if inhibit = true ∨ ((restoreCourse strap inhibit a b k s).isPresent .jackSpread = true
            ∧ Cond.jackSpread ∉ k.latched) then .pending .urgent
        else .empty := by
  have presence : (restoreCourse strap inhibit a b k s).isPresent .jackSpread
      = decide (k.setup.spreadMax < jackSpread (restoreReset strap inhibit a b k s).seq.chans) := by
    rw [restoreCourse_isPresent (by decide) (by decide)]
    simp
  have reset := inOrder_resetAll strap inhibit .joining k.setup a b s
  have latches : LatchesInOrder (restoreLatched k.latched (restoreReset strap inhibit a b k s)) :=
    inOrder_restoreLatched ⟨reset.faults.commit k.setup, fun _ => rfl, fun _ => rfl⟩ rfl hk rfl rfl rfl
  have restored := restored_restoreLatched (strap := strap) (inhibit := inhibit) (a := a) (b := b) (k := k)
    (s := s) k.latched
  rw [presence, restoreCourse_eq]
  dsimp only
  generalize hv : restoreLatched k.latched (restoreReset strap inhibit a b k s) = v at latches restored
  have chans : v.seq.chans = (restoreReset strap inhibit a b k s).seq.chans := by rw [← hv]; rfl
  have setup : v.setup = k.setup := by rw [← hv]; rfl
  have absent : ∀ c : Cond, c ≠ .clockFallback → v.isPresent c = false := by
    intro c hc
    rw [← hv]
    show ([Cond.clockFallback].contains c) = false
    simp [hc]
  have empty : v.line.report = .empty := by rw [← hv]; rfl
  have latched : v.isLatched .jackSpread = decide (Cond.jackSpread ∈ k.latched) := by
    rw [← hv]
    exact List.contains_eq_mem ..
  have spread := restored.report_judgeSpread (absent _ (by decide))
  have reported := restored.judgedSpread.reported v
  have peers := reported.judgedPeers
  rw [inhibitAtReset_eq peers.quiet ?_ (inOrder_judgePeers (inOrder_reportFaults
    (inOrder_judgeSpread latches) v)).inhibit_unlatched]
  · have input : (judgePeers (reportFaults v (judgeSpread v))).inhibitInput = inhibit := by
      obtain ⟨⟨p, q, e⟩, -⟩ := peers
      rw [e]
      rfl
    have line : (judgePeers (reportFaults v (judgeSpread v))).line.report
        = if k.setup.spreadMax < jackSpread (restoreReset strap inhibit a b k s).seq.chans
            ∧ Cond.jackSpread ∉ k.latched then .pending .urgent else .empty := by
      rw [reported.line_judgePeers, spread, empty, judgeSpread, judgeCond_isPresent, latched, setup, chans]
      simp [ReportSlot.request]
    rw [input]
    cases inhibit
    · simp only [Bool.false_eq_true, if_false, false_or, decide_eq_true_eq]
      exact line
    · simp only [if_true, true_or]
      show (judgePeers (reportFaults v (judgeSpread v))).line.report.request .urgent = _
      rw [line]
      split <;> rfl
  · unfold judgePeers
    dsimp only
    rw [judgeCond_isPresent_of_ne (by decide), judgeCond_isPresent_of_ne (by decide),
      reportFaults_isPresent, judgeSpread, judgeCond_isPresent_of_ne (by decide)]
    exact absent _ (by decide)

/-- What a sound state's image in use keeps is in order. -/
theorem Sound.kept {i : Image} (h : Sound s) (hu : usedImage s.join.imageA s.join.imageB = some i) :
    KeptInOrder i := by
  obtain ⟨ha, hb, -⟩ := h.record
  rcases usedImage_eq_some hu with e | e
  · exact ha i e
  · exact hb i e

end

/-- Settles O4: the restore loads the image, and then the supervisor alone judges. -/
theorem restoreLoadsImage : Obligations.RestoreLoadsImage := by
  intro s strap inhibit cut i hs low high hu hn
  have good := strapGood_iff.mpr ⟨low, high⟩
  obtain ⟨-, -, -, -, -, -, -, -, latched, -⟩ := hs.kept hu
  refine ⟨_, exec_brownOutReset_restore good inhibit cut hu hn, ?_⟩
  have report := restoreCourse_report (strap := strap) (inhibit := inhibit) (a := (imagesFound cut s).1)
    (b := (imagesFound cut s).2) (s := s) latched
  have shown := fun c hn hp => restoreCourse_isPresent (strap := strap) (inhibit := inhibit)
    (a := (imagesFound cut s).1) (b := (imagesFound cut s).2) (k := i.kept) (s := s) (c := c) hn hp
  have entries := (restoredFaults_restoreCourse (strap := strap) (inhibit := inhibit)
    (a := (imagesFound cut s).1) (b := (imagesFound cut s).2) (k := i.kept) (s := s)).entries
  obtain ⟨-, drive, -⟩ := (latchesInOrder_iff.mp (inOrder_restoreCourse strap inhibit
    (imagesFound cut s).1 (imagesFound cut s).2 latched s)).1
  have restored := restored_restoreCourse (strap := strap) (inhibit := inhibit) (a := (imagesFound cut s).1)
    (b := (imagesFound cut s).2) (k := i.kept) (s := s)
  generalize restoreCourse strap inhibit (imagesFound cut s).1 (imagesFound cut s).2 i.kept s = t at *
  have presence := (shown .jackSpread (by decide) (by decide)).trans (by simp : _ = decide
    (i.kept.setup.spreadMax < jackSpread (restoreReset strap inhibit (imagesFound cut s).1
      (imagesFound cut s).2 i.kept s).seq.chans))
  have spread := (Bool.eq_iff_iff.mp presence).trans
    (decide_eq_true_iff.trans lt_jackSpread_restoreReset)
  have input : t.isPresent .inhibit = inhibit := by
    rw [shown .inhibit (by decide) (by decide)]
    exact Bool.or_false _
  have chan := restored.chan
  have climbed := restored.climbed
  have records := restored.records
  obtain ⟨⟨p, q, e⟩, armed⟩ := restored
  have links : t.peers.links = linkList strap.toNat i.kept.setup := by
    rw [e, ← strapNumber_good good]
    rfl
  have images : usedImage t.join.imageA t.join.imageB = some i := by
    rw [e]
    exact (usedImage_imagesFound cut s).trans hu
  have uncut : cut = false → t.join.imageA = s.join.imageA ∧ t.join.imageB = s.join.imageB := by
    rintro rfl
    rw [e]
    exact ⟨rfl, rfl⟩
  refine ⟨?_, ?_, ?_, ?_, ?_, ?_, ?_, climbed, ?_, ?_, ?_, ?_, fun ch => chan ch ▸ restoreChannel_shut _ _ _,
    ?_, ?_, ?_, ?_, ?_, ?_, ?_, ?_, ?_, ?_, uncut, images, links, records, entries, drive, spread, input,
    armed, ?_, report⟩ <;> rw [e] <;> rfl

end Sys2Proof.Machine
end

section
/-! PROOFS. The ground that the other laws stand on: the modes with the join unit (R17, R161 to R179), the
committed record (R165 to R169), the channels it makes active (R81, R105). -/

namespace Sys2Proof.Machine

-- In order, so that the proofs waiting on one another do not hold a stack each.
set_option Elab.async false

/-! ### Two properties at once -/

section
variable {P Q : State → Prop} {plans clears : Prop}

theorem Steering.and (a : Steering P) (b : Steering Q) : Steering fun s => P s ∧ Q s where
  start s h hm hr := ⟨a.start s h.1 hm hr, b.start s h.2 hm hr⟩
  stop s h hm := ⟨a.stop s h.1 hm, b.stop s h.2 hm⟩
  pause s h hm := ⟨a.pause s h.1 hm, b.pause s h.2 hm⟩
  resume s h hm := ⟨a.resume s h.1 hm, b.resume s h.2 hm⟩
  segment k s h hm h2 h8 hk := ⟨a.segment k s h.1 hm h2 h8 hk, b.segment k s h.2 hm h2 h8 hk⟩
  raise c s hc h := ⟨a.raise c s hc h.1, b.raise c s hc h.2⟩
  lapse c s hc h := ⟨a.lapse c s hc h.1, b.lapse c s hc h.2⟩

theorem JackKeeps.and (a : JackKeeps P plans) (b : JackKeeps Q plans) :
    JackKeeps (fun s => P s ∧ Q s) plans where
  plan hp s h hm hr := ⟨a.plan hp s h.1 hm hr, b.plan hp s h.2 hm hr⟩
  hold s h hm := ⟨a.hold s h.1 hm, b.hold s h.2 hm⟩
  bankB s h hb := ⟨a.bankB s h.1 hb, b.bankB s h.2 hb⟩
  opening ch d s h hd hn := ⟨a.opening ch d s h.1 hd hn, b.opening ch d s h.2 hd hn⟩
  read ch x s h ha := ⟨a.read ch x s h.1 ha, b.read ch x s h.2 ha⟩
  extendEnd ch s h hs := ⟨a.extendEnd ch s h.1 hs, b.extendEnd ch s h.2 hs⟩
  holdEnd ch s h hs := ⟨a.holdEnd ch s h.1 hs, b.holdEnd ch s h.2 hs⟩
  retractEnd ch s h hs := ⟨a.retractEnd ch s h.1 hs, b.retractEnd ch s h.2 hs⟩
  blindHeld ch s h hs := ⟨a.blindHeld ch s h.1 hs, b.blindHeld ch s h.2 hs⟩
  blindFree ch s h hs := ⟨a.blindFree ch s h.1 hs, b.blindFree ch s h.2 hs⟩
  inhibitOn s h hi := ⟨a.inhibitOn s h.1 hi, b.inhibitOn s h.2 hi⟩
  inhibitOff s h hi := ⟨a.inhibitOff s h.1 hi, b.inhibitOff s h.2 hi⟩

theorem ConcreteKeeps.and (a : ConcreteKeeps P) (b : ConcreteKeeps Q) :
    ConcreteKeeps fun s => P s ∧ Q s where
  feedHold x s h hm := ⟨a.feedHold x s h.1 hm, b.feedHold x s h.2 hm⟩
  cureRead x s h hr := ⟨a.cureRead x s h.1 hr, b.cureRead x s h.2 hr⟩
  cureMissed s h := ⟨a.cureMissed s h.1, b.cureMissed s h.2⟩
  probeTick s h := ⟨a.probeTick s h.1, b.probeTick s h.2⟩
  probeGood d s h hm hd := ⟨a.probeGood d s h.1 hm hd, b.probeGood d s h.2 hm hd⟩
  probeBad s h := ⟨a.probeBad s h.1, b.probeBad s h.2⟩
  blankEnd s h := ⟨a.blankEnd s h.1, b.blankEnd s h.2⟩
  settle s h ht := ⟨a.settle s h.1 ht, b.settle s h.2 ht⟩
  feedEnd s h ht := ⟨a.feedEnd s h.1 ht, b.feedEnd s h.2 ht⟩

theorem LineKeeps.and (a : LineKeeps P) (b : LineKeeps Q) : LineKeeps fun s => P s ∧ Q s where
  level x s h hx := ⟨a.level x s h.1 hx, b.level x s h.2 hx⟩
  attempt s h hm := ⟨a.attempt s h.1 hm, b.attempt s h.2 hm⟩
  lost s h ha := ⟨a.lost s h.1 ha, b.lost s h.2 ha⟩
  error s h ha := ⟨a.error s h.1 ha, b.error s h.2 ha⟩
  sent s h ha := ⟨a.sent s h.1 ha, b.sent s h.2 ha⟩
  muteEnd s h := ⟨a.muteEnd s h.1, b.muteEnd s h.2⟩
  busyEnd s h := ⟨a.busyEnd s h.1, b.busyEnd s h.2⟩

theorem PeerKeeps.and (a : PeerKeeps P) (b : PeerKeeps Q) : PeerKeeps fun s => P s ∧ Q s where
  duplicate s h := ⟨a.duplicate s h.1, b.duplicate s h.2⟩
  arrival n p r s h hr := ⟨a.arrival n p r s h.1 hr, b.arrival n p r s h.2 hr⟩
  sweep s h := ⟨a.sweep s h.1, b.sweep s h.2⟩

theorem GuardKeeps.and (a : GuardKeeps P clears) (b : GuardKeeps Q clears) :
    GuardKeeps (fun s => P s ∧ Q s) clears where
  clear hc s h hm := ⟨a.clear hc s h.1 hm, b.clear hc s h.2 hm⟩
  loopAsserted s h hl := ⟨a.loopAsserted s h.1 hl, b.loopAsserted s h.2 hl⟩
  loopReleased hc s t h hl e := ⟨a.loopReleased hc s t h.1 hl e, b.loopReleased hc s t h.2 hl e⟩
  clearLapse s h := ⟨a.clearLapse s h.1, b.clearLapse s h.2⟩
  crystalIdle s h hc := ⟨a.crystalIdle s h.1 hc, b.crystalIdle s h.2 hc⟩
  crystalStops s h hc := ⟨a.crystalStops s h.1 hc, b.crystalStops s h.2 hc⟩
  crystalRuns d s h hc := ⟨a.crystalRuns d s h.1 hc, b.crystalRuns d s h.2 hc⟩
  crystalBack s h := ⟨a.crystalBack s h.1, b.crystalBack s h.2⟩

theorem SupplyKeeps.and (a : SupplyKeeps P) (b : SupplyKeeps Q) : SupplyKeeps fun s => P s ∧ Q s where
  supplyLow s t h hl e := ⟨a.supplyLow s t h.1 hl e, b.supplyLow s t h.2 hl e⟩
  supplyRecovery s t h hl e := ⟨a.supplyRecovery s t h.1 hl e, b.supplyRecovery s t h.2 hl e⟩

end

/-! ### The close of a command and a millisecond -/

section
variable {P : State → Prop}

theorem settled_keeps (v : State) {u : State} (h : P u)
    (close : ∀ (cs : List Cond) (b d : Timer) (r : ReportSlot) (u : State), P u →
      P { u with sup.present := cs, feed.blankTimer := b, line.report := r, line.busyTimer := d } := by
        exact fun _ _ _ _ _ h => h) : P (settled v u) := by
  obtain ⟨busy, e⟩ := settled_spec v u
  rw [e]
  exact close _ _ _ _ u h

theorem passTime_keeps {s : State} (h : P s)
    (pass : ∀ (d : Timer) (u : State), P u → P { u with now := u.now + 1, line.busyTimer := d } := by
      exact fun _ _ h => h) : P (passTime s) := by
  obtain ⟨busy, e, -⟩ := followBusyLine_cases { s with now := s.now + 1 }
  rw [passTime, e]
  exact pass busy s h

end

/-! ### The end of a join in its phases -/

theorem joinDecision_restore {s : State} (h : joinDecision s = some .restore) : s.join.kind = .afterRestore := by
  by_contra hk
  simp only [joinDecision, hk, if_false] at h
  split at h
  · cases h
  · split at h
    · cases h
    · split at h <;> cases h

theorem joinDecision_adoption {s : State} (h : joinDecision s = some .adoption) : s.join.kind ≠ .afterRestore := by
  intro hk
  simp only [joinDecision, hk, if_true] at h
  split at h
  · cases h
  · split at h <;> cases h

/-- What the phases of a join's end ask: `S` where it is decided, `P` until the deck supervisions are armed, `Q`
until the mode is taken, `R` from there. -/
structure JoinPhases (S P Q R : State → Prop) : Prop where
  wait : ∀ s : State, S s → R { s with join.state := .waitingForLink, join.listenTimer := none }
  fresh : ∀ s : State, S s →
    P { setHeights s.setup.programStart s with seq.strokeCount := 0, stack.layers := [] } := by
    exact fun _ h => h
  adopt : ∀ s : State, S s → s.join.kind ≠ .afterRestore → P (removeExited
    (adoptStack (adoptedHeight s) (adoptedMaturity s) (setHeights (adoptedHeight s) s)))
  restore : ∀ s : State, S s → s.join.kind = .afterRestore → P s := by exact fun _ h _ => h
  report : ∀ s : State, P s → P (requestReport .urgent s) := by exact fun _ h => h
  arm : ∀ s : State, P s → Q { s with join.state := .done, join.listenTimer := none, sup.armed := true }
  entry : ∀ (c : Cond) (s : State), Q s → s.latching c = true → Q (latch c s)
  leave : ∀ (m : Mode) (p : PauseSet) (s : State), Q s → m.takesCommands = true → s.ctl.mode ≠ .reduced →
    R (enterMode m { s with ctl.pause := p })
  back : ∀ (m : Mode) (p : PauseSet) (s : State), Q s → m.takesCommands = true →
    s.ctl.mode = .reduced → R (keepChange true { s with ctl.returnMode := some m, ctl.pause := p })

theorem JoinPhases.decide {S P Q R : State → Prop} {C D : Cond → Bool} (J : JoinPhases S P Q R)
    (MP : Moves P C) (MR : Moves R D) {s : State} (h : S s)
    (hj : C .jackSpread = true := by rfl) : R (decideJoin s) := by
  have applied : ∀ o : JoinOutcome, joinDecision s = some o → P (applyOutcome o s) := by
    intro o ho
    cases o with
    | fresh => exact MP.judgeSpread (J.fresh s h) hj
    | adoption => exact J.report _ (MP.judgeSpread (J.adopt s h (joinDecision_adoption ho)) hj)
    | restore => exact J.restore s h (joinDecision_restore ho)
  unfold decideJoin
  split
  · rename_i o ho
    have one : ∀ (c : Cond) (t : State), Q t → Q (armOne c t) := fun c t k =>
      ite_keeps (fun hc => J.entry c t k (Bool.and_eq_true_iff.mp hc).2) fun _ => k
    have armed : Q (armDeck (applyOutcome o s)) :=
      one _ _ (one _ _ (one _ _ (J.arm _ (applied o ho))))
    unfold endJoin takeOutcome
    dsimp only
    split
    · exact MR.checkRejoin (J.back _ _ _ armed (outcomeMode_takesCommands o _) ‹_›)
    · refine MR.checkRejoin (J.leave _ _ _ armed (outcomeMode_takesCommands o _) ?_)
      assumption
  · exact J.wait s h

/-! ### Modes with the join unit -/

/-- The return mode is held exactly in REDUCED and is no REDUCED (R17). -/
abbrev ModeShape (s : State) : Prop :=
  s.ctl.returnMode.isSome = (s.ctl.mode == .reduced) ∧ s.ctl.returnMode ≠ some .reduced

/-- The law of the join unit, on the join unit, the armed mark and the effective mode alone. -/
abbrev JoinShape (j : Join) (armed : Bool) (m : Mode) : Prop :=
  j.ownNumber ≤ 59
    ∧ j.committed.isSome = (j.stage == .committed)
    ∧ (j.kind != .none) = (j.stage == .committed)
    ∧ (j.state != .none) = (j.stage == .committed)
    ∧ j.windowTimer.isSome = (j.stage == .window)
    ∧ j.requestTimer.isSome = (j.stage == .waiting || j.stage == .window)
    ∧ j.listenTimer.isSome = (j.state == .listening)
    ∧ (m == .setup) = (j.stage == .waiting || j.stage == .window)
    ∧ (m == .locked) = (j.stage == .closed)
    ∧ (m == .joining) = (j.state == .listening || j.state == .waitingForLink)
    ∧ m.retainable = (j.state == .done)
    ∧ armed = (j.state == .done)
    ∧ j.restoredMode.isSome = (j.kind == .afterRestore)
    ∧ (j.ownNumber = 0 → j.stage = .closed)
    ∧ j.itemsReceived ≤ 255

/-- Every channel is OFF exactly outside the committed CH_ACTIVE (R81, R105). -/
abbrev ActiveLaw (s : State) : Prop :=
  ∀ ch : Ch, (s.chan ch).isActive = (s.join.committed.any fun r => r.active ch)

/-- The modes, the join unit, the committed record and the active channels. -/
abbrev Ground (s : State) : Prop :=
  ModeShape s ∧ JoinShape s.join s.sup.armed s.effectiveMode ∧ SetupLaw s ∧ ActiveLaw s

theorem Sound.ground {s : State} (h : Sound s) : Ground s := by
  obtain ⟨hreturn, hupright, -⟩ := h.mode
  exact ⟨⟨hreturn, hupright⟩, h.join, h.setup, fun ch => (h.channels ch (Ch.mem_all ch)).1⟩

/-- A mode that takes commands tells the join unit nothing. -/
theorem JoinShape.of_takesCommands {j : Join} {armed : Bool} {m n : Mode} (h : JoinShape j armed m)
    (hm : m.takesCommands = true) (hn : n.takesCommands = true) : JoinShape j armed n := by
  have same : (n == .setup) = (m == .setup) ∧ (n == .locked) = (m == .locked)
      ∧ (n == .joining) = (m == .joining) ∧ n.retainable = m.retainable := by
    revert hm hn
    cases m <;> cases n <;> decide
  obtain ⟨hset, hlock, hjoin, hretain⟩ := same
  unfold JoinShape
  rw [hset, hlock, hjoin, hretain]
  exact h

section
variable {s : State}

theorem ModeShape.enterMode (m : Mode) (hm : m ≠ .reduced) : ModeShape (enterMode m s) := by
  have upright : (Machine.enterMode m s).ctl.mode ≠ .reduced := by
    rw [enterMode_mode]
    rcases settle_cases m (entryPause m s) s with ⟨-, -, e⟩ | ⟨-, -, -, e⟩ | ⟨-, -, -, e⟩ | ⟨-, -, e⟩ <;> rw [e]
    · decide
    · exact hm
    · exact nofun
    · exact hm
  refine ⟨?_, ?_⟩ <;> rw [enterMode_returnMode]
  · rw [beq_eq_false_iff_ne.mpr upright]
    rfl
  · nofun

theorem Mode.ne_reduced_of_takesCommands {m : Mode} (h : m.takesCommands = true) : m ≠ .reduced := by
  rintro rfl
  cases h

theorem effectiveMode_of_takesCommands (h : s.ctl.mode.takesCommands = true) :
    s.effectiveMode = s.ctl.mode :=
  effectiveMode_of_ne_reduced (Mode.ne_reduced_of_takesCommands h)

theorem enterMode_takesCommands {m : Mode} (hm : m.takesCommands = true) (s : State) :
    (enterMode m s).effectiveMode.takesCommands = true := by
  rw [enterMode_effectiveMode]
  exact settle_takesCommands _ _ hm

/-- A mode that has no entry checks is entered as it is. -/
theorem enterMode_effectiveMode_of_not_works {m : Mode} (hm : m.works = false) (s : State) :
    (enterMode m s).effectiveMode = m := by
  rw [enterMode_effectiveMode]
  rcases settle_cases m (entryPause m s) s with ⟨h, -, -⟩ | ⟨h, -, -, -⟩ | ⟨h, -, -, -⟩ | ⟨-, -, e⟩
  · rw [hm] at h
    cases h
  · rw [Mode.climbs_of_not_works hm] at h
    cases h
  · rw [Mode.climbs_of_not_works hm] at h
    cases h
  · rw [e]

/-- The join unit of a state that stands aside, but for the images, is the one before. -/
theorem JoinShape.aside {t : State} {armed : Bool} {m : Mode} (h : JoinShape s.join armed m)
    (a : Aside s t) : JoinShape t.join armed m := by
  obtain ⟨x, y, e⟩ := a.join
  rw [e]
  exact h

theorem SetupLaw.aside {t : State} (h : SetupLaw s) (a : Aside s t) : SetupLaw t := by
  obtain ⟨x, y, e⟩ := a.join
  unfold SetupLaw
  rw [e]
  exact h

theorem ActiveLaw.aside {t : State} (h : ActiveLaw s) (a : Aside s t) (hc : t.seq.chans = s.seq.chans) :
    ActiveLaw t := by
  obtain ⟨x, y, e⟩ := a.join
  intro ch
  rw [State.chan, hc, e]
  exact h ch

/-- An entry to a mode under which the join unit stands. -/
theorem ground_enterMode {m : Mode} (hm : m ≠ .reduced) (hset : SetupLaw s) (hact : ActiveLaw s)
    (hjoin : JoinShape s.join s.sup.armed (enterMode m s).effectiveMode) : Ground (enterMode m s) := by
  have a := aside_enterMode m s
  refine ⟨ModeShape.enterMode m hm, ?_, hset.aside a, hact.aside a (enterMode_chans m s)⟩
  rw [enterMode_sup]
  exact hjoin.aside a

/-- What the modes, pauses and latches do to a station that takes commands leaves the join unit alone. -/
theorem ground_enterMode_of_takesCommands {m : Mode} (hm : m.takesCommands = true) (h : Ground s)
    (hs : s.effectiveMode.takesCommands = true) : Ground (enterMode m s) := by
  obtain ⟨-, hj, hset, hact⟩ := h
  exact ground_enterMode (Mode.ne_reduced_of_takesCommands hm) hset hact
    (hj.of_takesCommands hs (enterMode_takesCommands hm s))

theorem cut_isActive (r : SetupRecord) (now : Nat) (c : Channel) :
    (Channel.cut r now c).isActive = c.isActive := by
  unfold Channel.cut
  dsimp only
  split
  · rename_i h
    simp only [Channel.isActive, Channel.toHold, h]
    decide
  · rfl

end

end Sys2Proof.Machine
end

section
/-! PROOFS. The commands keep the ground, and with it the join unit, the setup stages and the committed record
(R161 to R180). -/

namespace Sys2Proof.Machine

-- In order, so that the proofs waiting on one another do not hold a stack each.
set_option Elab.async false

/-! ### A channel stays active or OFF -/

section
variable {r : SetupRecord} {now : Nat} {c d : Channel}

theorem Channel.isActive_of_state {st : ChState} (h : c.state = st) (hst : st ≠ .off) : c.isActive = true := by
  rw [Channel.isActive, h]
  exact bne_iff_ne.mpr hst

theorem Channel.stand_isActive {st : ChState} (hst : st ≠ .off) : (c.stand st now).isActive = true :=
  Channel.isActive_of_state rfl hst

theorem Channel.halt_isActive {st : ChState} (hst : st ≠ .off) : (c.halt st now).isActive = true :=
  Channel.isActive_of_state rfl hst

theorem Channel.toRetract_state (b : Bool) : (c.toRetract r now b).state = .retract := by
  rw [Channel.toRetract_eq]
  dsimp only
  split <;> rfl

theorem Channel.toRetract_isActive (b : Bool) : (c.toRetract r now b).isActive = true :=
  Channel.isActive_of_state (Channel.toRetract_state b) (by decide)

theorem Channel.decideHome_isActive : (c.decideHome r now).isActive = true := by
  unfold Channel.decideHome
  split
  · exact Channel.toRetract_isActive true
  · split
    · exact Channel.toRetract_isActive false
    · exact Channel.stand_isActive (by decide)

theorem Channel.startDue_isActive (h : c.state = .rest) : (c.startDue r now).isActive = true := by
  unfold Channel.startDue
  split
  · exact Channel.halt_isActive (by decide)
  · split
    · exact Channel.isActive_of_state h (by decide)
    · rw [Channel.toExtend_eq]
      dsimp only
      split <;> rfl

theorem Channel.openDeferred_state : (c.openDeferred r now).state = c.state := by
  unfold Channel.openDeferred
  split <;> rfl

theorem Channel.actOnValid_isActive (reduced : Bool) (v : Nat) :
    (c.actOnValid r now reduced v).isActive = c.isActive := by
  unfold Channel.actOnValid
  split
  · rename_i h
    split
    · exact (Channel.isActive_of_state h (by decide)).symm
    · rfl
  · rename_i h
    split
    · exact (Channel.isActive_of_state h (by decide)).symm
    · rfl
  · rename_i h
    rw [Channel.isActive_of_state h (by decide)]
    split
    · exact Channel.isActive_of_state h (by decide)
    · split
      · exact Channel.toRetract_isActive false
      · exact Channel.isActive_of_state h (by decide)
  · rfl

theorem Channel.actOnInvalid_isActive (reduced : Bool) :
    (c.actOnInvalid r now reduced).isActive = c.isActive := by
  unfold Channel.actOnInvalid
  split
  · rename_i h
    rw [Channel.isActive_of_state h (by decide)]
    split
    · split
      · exact Channel.isActive_of_state h (by decide)
      · exact Channel.toRetract_isActive true
    · exact Channel.halt_isActive (by decide)
  · rename_i h
    exact (Channel.isActive_of_state h (by decide)).symm
  · rfl
  · rfl
  · rfl

theorem Channel.leaveFault_isActive (inhibit reduced : Bool) :
    (c.leaveFault r now inhibit reduced).isActive = true := by
  unfold Channel.leaveFault
  split
  · exact Channel.halt_isActive (by decide)
  · split
    · exact Channel.halt_isActive (by decide)
    · split
      · exact Channel.halt_isActive (by decide)
      · split
        · exact Channel.toRetract_isActive false
        · exact Channel.halt_isActive (by decide)

/-- No operation of a command turns a channel OFF, or an OFF one on. -/
theorem MovedBy.isActive {sweeps : Bool} {s : State} (h : MovedBy sweeps s c d) : d.isActive = c.isActive := by
  cases h with
  | same => rfl
  | cut => exact cut_isActive _ _ c
  | startDue hs => rw [Channel.startDue_isActive hs, Channel.isActive_of_state hs (by decide)]
  | opened => exact congrArg (fun st => st != .off) Channel.openDeferred_state
  | valid v => exact Channel.actOnValid_isActive _ v
  | invalid => exact Channel.actOnInvalid_isActive (c := c) _
  | extended hs => exact (Channel.isActive_of_state hs (by decide)).symm
  | held hs => rw [Channel.isActive_of_state hs (by decide)]; exact Channel.toRetract_isActive _
  | failed hs => exact (Channel.isActive_of_state hs (by decide)).symm
  | freed hs =>
    rw [Channel.leaveFault_isActive]
    rcases hs with hs | hs <;> exact (Channel.isActive_of_state hs (by decide)).symm
  | inhibited =>
    unfold Channel.inhibit
    split
    · rfl
    · rename_i h
      exact (bne_iff_ne.mpr fun e => h (.inl e)).symm
  | released =>
    unfold Channel.release
    split
    · rename_i h
      rw [Channel.isActive_of_state h (by decide)]
      split
      · exact Channel.stand_isActive (by decide)
      · exact Channel.decideHome_isActive
    · rfl
  | reduced =>
    unfold Channel.reduce
    split
    · rfl
    · rename_i h
      exact (bne_iff_ne.mpr fun e => h (.inl e)).symm
  | recovered =>
    unfold Channel.recover
    split
    · rename_i h
      rw [Channel.isActive_of_state h (by decide)]
      exact Channel.decideHome_isActive
    · rfl

end

/-! ### The ground of the channels and of the steering -/

section
variable {s : State}

/-- The ground with the join unit standing as for mode `n`, while the station is still in JOINING. -/
abbrev Joining (n : Mode) (s : State) : Prop :=
  ModeShape s ∧ JoinShape s.join s.sup.armed n ∧ SetupLaw s ∧ ActiveLaw s ∧ s.effectiveMode = .joining

theorem activeLaw_moved {q : PerChannel Channel} (h : ActiveLaw s)
    (hq : ∀ ch : Ch, (q.get ch).isActive = (s.chan ch).isActive) : ActiveLaw { s with seq.chans := q } :=
  fun ch => (hq ch).trans (h ch)

theorem activeLaw_cut (h : ActiveLaw s) : ActiveLaw (cutExtensions s) :=
  activeLaw_moved h fun ch => by
    rw [PerChannel.get_map]
    exact cut_isActive _ _ _

theorem ModeShape.stopped (hm : s.ctl.mode = .reduced) :
    ModeShape { s with ctl.returnMode := some .stopped, ctl.pause := .empty } := by
  refine ⟨?_, nofun⟩
  rw [show ({ s with ctl.returnMode := some .stopped, ctl.pause := .empty } : State).ctl.mode = .reduced from hm]
  rfl

theorem latchParts_ground : LatchParts Ground where
  enter m s h hs hm := ground_enterMode_of_takesCommands hm h (effectiveMode_of_takesCommands hs ▸ hs)
  cut s h := by
    obtain ⟨hmode, hj, hset, hact⟩ := h
    exact ⟨hmode, hj, hset, activeLaw_cut hact⟩
  stop s h hm hr := by
    obtain ⟨hmode, hj, hset, hact⟩ := h
    refine ⟨ModeShape.stopped hm, hj.of_takesCommands ?_ ?_, hset, hact⟩
    · rw [effectiveMode_of_reduced hm]
      exact Mode.takesCommands_of_works hr
    · rw [effectiveMode_of_reduced (by exact hm)]
      rfl

theorem moves_ground : Moves Ground fun _ => true := latchParts_ground.moves

/-- In JOINING, in REDUCED by the return mode, no latch and no pause moves the mode. -/
theorem latchParts_joining (n : Mode) : LatchParts (Joining n) where
  enter m s h hs hm := by
    obtain ⟨-, -, -, -, he⟩ := h
    rw [effectiveMode_of_takesCommands hs] at he
    rw [he] at hs
    cases hs
  cut s h := by
    obtain ⟨hmode, hj, hset, hact, he⟩ := h
    exact ⟨hmode, hj, hset, activeLaw_cut hact, he⟩
  stop s h hm hr := by
    obtain ⟨-, -, -, -, he⟩ := h
    rw [effectiveMode_of_reduced hm] at he
    rw [he] at hr
    cases hr

theorem moves_joining (n : Mode) : Moves (Joining n) fun _ => true := (latchParts_joining n).moves

theorem takeTarget_isActive (t : Nat) (c : Channel) : (c.takeTarget t).isActive = c.isActive := by
  unfold Channel.takeTarget
  split <;> rfl

theorem movedParts_ground : MovedParts Ground True where
  moved q s h hq := by
    obtain ⟨hmode, hj, hset, hact⟩ := h
    exact ⟨hmode, hj, hset, activeLaw_moved hact fun ch => (hq ch).isActive⟩
  credited c s h _ := by
    obtain ⟨hmode, hj, hset, hact⟩ := h
    refine ⟨hmode, hj, hset, fun ch => ?_⟩
    show ((updateCh c (Channel.credited s.setup) s).chan ch).isActive = _
    rw [updateCh_chan]
    split
    · rename_i e
      subst e
      exact hact ch
    · exact hact ch
  planned _ b s h _ _ := by
    obtain ⟨hmode, hj, hset, hact⟩ := h
    refine ⟨hmode, hj, hset, fun ch => ?_⟩
    show ((PerChannel.ofFn _ : PerChannel Channel).get ch).isActive = _
    rw [PerChannel.get_ofFn, takeTarget_isActive]
    exact hact ch

/-! ### The end of a join -/

theorem setHeights_isActive (h : Nat) (s : State) (ch : Ch) :
    ((setHeights h s).chan ch).isActive = (s.chan ch).isActive := by
  rw [setHeights_chan]
  split <;> rfl

theorem adoptStack_eq (h m : Nat) (s : State) :
    ∃ st, adoptStack h m s = { s with stack := st } := by
  unfold adoptStack
  split
  · exact ⟨_, rfl⟩
  · exact ⟨s.stack, rfl⟩

theorem activeLaw_setHeights (h : Nat) (k : ActiveLaw s) : ActiveLaw (setHeights h s) :=
  fun ch => (setHeights_isActive h s ch).trans (k ch)

theorem joinState_ne_none {st : JoinState} (h : true = (st == .listening || st == .waitingForLink)) :
    (st != .none) = true := by
  revert h
  cases st <;> decide

theorem joinPhases_ground : JoinPhases (Joining .joining) (Joining .joining) (Joining .standing) Ground where
  wait s h := by
    obtain ⟨hmode, hj, hset, hact, he⟩ := h
    refine ⟨hmode, ?_, hset, hact⟩
    rw [he.symm] at hj
    obtain ⟨own, committed, kind, state, window, request, listen, setup, locked, joining, retain, armed, rest⟩ := hj
    have joins : s.effectiveMode = .joining := he
    rw [joins] at joining retain
    have active := joinState_ne_none joining
    have still : ({ s with join.state := .waitingForLink, join.listenTimer := none } : State).effectiveMode
        = .joining := he
    refine ⟨own, committed, kind, ?_, window, request, rfl, setup, locked, ?_, ?_, ?_, rest⟩
    · rw [← state, active]
      rfl
    · rw [still]
      rfl
    · rw [still]
      rfl
    · rw [armed, ← retain]
      rfl
  fresh s h := by
    obtain ⟨hmode, hj, hset, hact, he⟩ := h
    exact ⟨hmode, hj, hset, activeLaw_setHeights _ hact, he⟩
  adopt s h _ := by
    obtain ⟨hmode, hj, hset, hact, he⟩ := h
    obtain ⟨st, e⟩ := adoptStack_eq (adoptedHeight s) (adoptedMaturity s) (setHeights (adoptedHeight s) s)
    rw [e]
    exact ⟨hmode, hj, hset, activeLaw_setHeights _ hact, he⟩
  arm s h := by
    obtain ⟨hmode, hj, hset, hact, he⟩ := h
    obtain ⟨own, committed, kind, state, window, request, listen, setup, locked, joining, retain, armed, rest⟩ := hj
    have active := joinState_ne_none joining
    refine ⟨hmode, ⟨own, committed, kind, ?_, window, request, rfl, setup, locked, rfl, rfl, rfl, rest⟩, hset,
      hact, he⟩
    rw [← state, active]
    rfl
  entry c _ := (moves_joining _).latch c _ rfl
  leave m p s h hm _ := by
    obtain ⟨hmode, hj, hset, hact, he⟩ := h
    exact ground_enterMode (s := { s with ctl.pause := p }) (Mode.ne_reduced_of_takesCommands hm) hset hact
      (hj.of_takesCommands rfl (enterMode_takesCommands hm _))
  back m p s h hm hr := by
    obtain ⟨hmode, hj, hset, hact, he⟩ := h
    refine ⟨⟨?_, ?_⟩, hj.of_takesCommands rfl ?_, hset, hact⟩
    · show (some m).isSome = (s.ctl.mode == .reduced)
      rw [hr]
      rfl
    · intro e
      exact Mode.ne_reduced_of_takesCommands hm (Option.some.inj e)
    · show (State.effectiveMode { s with ctl.returnMode := some m, ctl.pause := p }).takesCommands = true
      rw [effectiveMode_of_reduced (by exact hr)]
      exact hm

theorem Ground.joining (h : Ground s)
    (hs : s.join.state = .listening ∨ s.join.state = .waitingForLink) : Joining .joining s := by
  obtain ⟨hmode, hj, hset, hact⟩ := h
  have he : s.effectiveMode = .joining := by
    obtain ⟨-, -, -, -, -, -, -, -, -, joining, -⟩ := hj
    rw [← beq_iff_eq, joining]
    rcases hs with k | k <;> rw [k] <;> rfl
  exact ⟨hmode, he ▸ hj, hset, hact, he⟩

theorem ground_decideJoin (h : Ground s)
    (hs : s.join.state = .listening ∨ s.join.state = .waitingForLink) : Ground (decideJoin s) :=
  joinPhases_ground.decide (moves_joining _) moves_ground (h.joining hs)

theorem Ground.listening (h : Ground s) (ht : s.join.listenTimer.isSome = true) :
    s.join.state = .listening := by
  obtain ⟨-, ⟨-, -, -, -, -, -, listen, -⟩, -⟩ := h
  rw [listen] at ht
  exact beq_iff_eq.mp ht

end

end Sys2Proof.Machine
end

section
/-! PROOFS. Setup keeps the ground, and so does every step (R165 to R169, R180). -/

namespace Sys2Proof.Machine

-- In order, so that the proofs waiting on one another do not hold a stack each.
set_option Elab.async false

/-! ### The staged record and its marks (R165, R167) -/

theorem SetupRecord.item_put (r : SetupRecord) {id n : Nat} (hid : 1 ≤ id ∧ id ≤ 87) (hn : 1 ≤ n) (v : Int) :
    (r.put id v).item n = if n = id then v else r.item n := by
  have size : r.values.toList.length = 87 := by simp
  show (r.values.setIfInBounds (id - 1) v).toList.getD (n - 1) 0 = _
  rw [Vector.toList_setIfInBounds, List.getD_eq_getElem?_getD, List.getElem?_set]
  by_cases e : n = id
  · subst e
    simp [show n - 1 < 87 by omega]
  · rw [if_neg (by omega), if_neg e]
    rfl

/-- The marks of a staged record (R165). -/
theorem marks_stageItem {r : SetupRecord} {marks : Vector Bool 87} {id : Nat} (hid : itemListed id = true)
    (h : marks.toList = (List.range 87).map fun i => !itemInRange (i + 1) (r.item (i + 1))) (v : Int) :
    (marks.setIfInBounds (id - 1) (!itemInRange id v)).toList
      = (List.range 87).map fun i => !itemInRange (i + 1) ((r.put id v).item (i + 1)) := by
  have bounds : 1 ≤ id ∧ id ≤ 87 := by simpa [itemListed] using hid
  rw [Vector.toList_setIfInBounds, h]
  refine List.ext_getElem (by simp) fun i hi _ => ?_
  rw [List.getElem_set, List.getElem_map, List.getElem_map, List.getElem_range,
    SetupRecord.item_put r bounds (by omega)]
  by_cases e : id - 1 = i
  · rw [if_pos e, if_pos (by omega), show i + 1 = id by omega]
  · rw [if_neg e, if_neg (by omega)]

/-- A staged record without a mark lies in its ranges. -/
theorem recordInRange_of_unmarked {s : State} (h : SetupLaw s) (hf : firstMarked s = none) :
    recordInRange s.join.staged = true := by
  obtain ⟨marks, -⟩ := h
  unfold firstMarked at hf
  rw [marks, List.find?_eq_none] at hf
  refine List.all_eq_true.mpr fun i hi => ?_
  have unmarked := hf (i + 1) (List.mem_map.mpr ⟨i, hi, rfl⟩)
  rw [Nat.add_sub_cancel, List.getD_eq_getElem?_getD, List.getElem?_map,
    List.getElem?_range (List.mem_range.mp hi)] at unmarked
  simpa using unmarked

theorem judgeCommit_eq_none {s : State} {check : Nat} (h : judgeCommit check s = none) :
    s.join.staged.check = check ∧ firstMarked s = none
      ∧ failedRule s.join.ownNumber s.join.staged = none := by
  unfold judgeCommit at h
  split at h
  · cases h
  · rename_i hc
    split at h
    · cases h
    · rename_i hm
      exact ⟨Classical.not_not.mp hc, hm, Option.map_eq_none_iff.mp h⟩

/-- A good commit takes a good record (R167, R168). -/
theorem goodRecord_of_judgeCommit {s : State} {check : Nat} (hs : SetupLaw s)
    (h : judgeCommit check s = none) : GoodRecord s.join.ownNumber s.join.staged := by
  obtain ⟨-, unmarked, rules⟩ := judgeCommit_eq_none h
  exact ⟨recordInRange_of_unmarked hs unmarked, rules⟩

section
variable {s : State}

/-! ### The setup stages -/

theorem Ground.stage_of_setup (h : Ground s) (he : s.effectiveMode = .setup) :
    s.join.stage = .waiting ∨ s.join.stage = .window := by
  obtain ⟨-, ⟨-, -, -, -, -, -, -, setup, -⟩, -⟩ := h
  rw [he] at setup
  simpa using setup.symm

theorem Ground.uncommitted (h : Ground s) (he : s.effectiveMode = .setup) : s.join.committed = none := by
  have stage := h.stage_of_setup he
  obtain ⟨-, ⟨-, committed, -⟩, -⟩ := h
  rw [← Option.not_isSome_iff_eq_none, committed]
  rcases stage with e | e <;> rw [e] <;> decide

/-- Before a commit every channel is OFF (R81). -/
theorem Ground.off (h : Ground s) (he : s.effectiveMode = .setup) (ch : Ch) : (s.chan ch).state = .off := by
  have none := h.uncommitted he
  obtain ⟨-, -, -, active⟩ := h
  have inactive := active ch
  rw [none] at inactive
  exact (bne_eq_false_iff_eq).mp inactive

theorem effectiveMode_of_setup (hm : s.ctl.mode = .setup) : s.effectiveMode = .setup := by
  rw [effectiveMode_of_ne_reduced (by rw [hm]; decide), hm]

theorem Ground.numbered (h : Ground s) (he : s.effectiveMode = .setup) : s.join.ownNumber ≠ 0 := by
  have stage := h.stage_of_setup he
  obtain ⟨-, ⟨-, -, -, -, -, -, -, -, -, -, -, -, -, number, -⟩, -⟩ := h
  intro e
  rw [number e] at stage
  simp at stage

theorem ground_stageItem (h : Ground s) (hm : s.ctl.mode = .setup) {id : Nat} (hid : itemListed id = true)
    (v : Int) : Ground (stageItem id v s) := by
  have he := effectiveMode_of_setup hm
  have stage := h.stage_of_setup he
  have uncommitted := h.uncommitted he
  have numbered := h.numbered he
  obtain ⟨hmode, hj, ⟨marks, -⟩, hact⟩ := h
  obtain ⟨own, committed, kind, state, window, request, listen, setup, locked, joining, retain, armed, restored, -⟩ := hj
  have open_ : (s.join.stage == .committed) = false := by
    rcases stage with e | e <;> rw [e] <;> decide
  have requesting : (s.join.stage == .waiting || s.join.stage == .window) = true := by
    rcases stage with e | e <;> rw [e] <;> decide
  have unlocked : (s.join.stage == .closed) = false := by
    rcases stage with e | e <;> rw [e] <;> decide
  rw [open_] at committed kind state
  rw [requesting] at request setup
  rw [unlocked] at locked
  have still : (stageItem id v s).effectiveMode = s.effectiveMode := rfl
  refine ⟨hmode, ⟨own, committed, kind, state, ?_, request, listen, setup, locked, joining, retain, armed, restored,
    fun e => absurd e numbered, Nat.min_le_left _ _⟩, ⟨marks_stageItem hid marks v, ?_⟩, hact⟩
  · show (if s.join.stage = .waiting then some (s.now + Config.windowLength)
      else s.join.windowTimer).isSome = true
    rcases stage with e | e
    · rw [if_pos e]
      rfl
    · rw [if_neg (by rw [e]; decide), window, e]
      rfl
  · show ∀ r ∈ s.join.committed, _
    rw [uncommitted]
    exact nofun

/-! ### A good commit (R169) -/

/-- The ground with the join unit of a fresh commit, the station still in SETUP. -/
theorem ground_joining_takeCommit (h : Ground s) (hm : s.ctl.mode = .setup)
    {check : Nat} (hc : judgeCommit check s = none) :
    JoinShape (takeCommit s).join (takeCommit s).sup.armed .joining ∧ SetupLaw (takeCommit s) := by
  have he := effectiveMode_of_setup hm
  have numbered := h.numbered he
  obtain ⟨hmode, hj, hset, hact⟩ := h
  have good := goodRecord_of_judgeCommit hset hc
  obtain ⟨own, committed, kind, state, window, request, listen, setup, locked, joining, retain, armed, restored, -,
    received⟩ := hj
  have disarmed : s.sup.armed = false := by
    rw [armed, ← retain, he]
    rfl
  have fresh : s.join.restoredMode.isSome = false := by
    have stage := (Ground.stage_of_setup ⟨hmode, ⟨own, committed, kind, state, window, request, listen, setup, locked,
      joining, retain, armed, restored, fun e => absurd e numbered, received⟩, hset, hact⟩ he)
    have none : (s.join.kind != .none) = false := by
      rw [kind]
      rcases stage with e | e <;> rw [e] <;> decide
    rw [restored, (bne_eq_false_iff_eq).mp none]
    rfl
  refine ⟨⟨own, rfl, rfl, rfl, rfl, rfl, rfl, rfl, rfl, rfl, rfl, disarmed, fresh,
    fun e => absurd e numbered, received⟩, hset.1, ?_⟩
  rintro r hr
  cases hr
  exact good

theorem commitChannel_isActive (inhibit : Bool) (c : Channel) : (commitChannel inhibit c).isActive = true := by
  unfold commitChannel
  split <;> rfl

/-- The channels after the commit are active where CH_ACTIVE names them (R105). -/
theorem activeLaw_bringIntoForce {r : SetupRecord} (hr : s.join.committed = some r)
    (hoff : ∀ ch : Ch, (s.chan ch).state = .off) : ActiveLaw (bringIntoForce s) := by
  intro ch
  have inForce : s.setup = r := by rw [State.setup, hr]; rfl
  have named : (bringIntoForce s).join.committed = some r := hr
  rw [named, Option.any_some]
  show ((PerChannel.ofFn _ : PerChannel Channel).get ch).isActive = _
  rw [PerChannel.get_ofFn, inForce]
  split
  · rw [commitChannel_isActive, ‹r.active ch = true›]
  · rw [Channel.isActive, hoff ch, Bool.eq_false_iff.mpr ‹¬r.active ch = true›]
    rfl

theorem ground_goodCommit (h : Ground s) (hm : s.ctl.mode = .setup)
    {check : Nat} (hc : judgeCommit check s = none) : Ground (goodCommit s) := by
  have off := h.off (effectiveMode_of_setup hm)
  obtain ⟨hj, hset⟩ := ground_joining_takeCommit h hm hc
  have a := aside_enterMode .joining (takeCommit s)
  have joins : (enterMode .joining (takeCommit s)).effectiveMode = .joining :=
    enterMode_effectiveMode_of_not_works rfl _
  refine moves_ground.judgePeers (s := bringIntoForce (enterMode .joining (takeCommit s)))
    ⟨ModeShape.enterMode .joining (by decide), ?_,
      SetupLaw.aside (t := enterMode .joining (takeCommit s)) hset a, ?_⟩
  · show JoinShape (enterMode .joining (takeCommit s)).join (enterMode .joining (takeCommit s)).sup.armed
      (enterMode .joining (takeCommit s)).effectiveMode
    rw [joins, enterMode_sup]
    exact hj.aside a
  · refine activeLaw_bringIntoForce a.committed fun ch => ?_
    rw [State.chan, enterMode_chans]
    exact off ch

/-! ### The end of the window (R166) -/

theorem ground_lockStation (h : Ground s) (ht : s.join.windowTimer.isSome = true) : Ground (lockStation
    { s with join.stage := .closed, join.windowTimer := none, join.requestTimer := none }) := by
  have stage : s.join.stage = .window := by
    obtain ⟨-, ⟨-, -, -, -, window, -⟩, -⟩ := h
    rw [window] at ht
    exact beq_iff_eq.mp ht
  have he : s.effectiveMode = .setup := by
    obtain ⟨-, ⟨-, -, -, -, -, -, -, setup, -⟩, -⟩ := h
    rw [stage] at setup
    exact beq_iff_eq.mp setup
  have uncommitted := h.uncommitted he
  obtain ⟨hmode, hj, hset, hact⟩ := h
  obtain ⟨own, committed, kind, state, window, request, listen, setup, locked, joining, retain, armed, restored, -,
    received⟩ := hj
  have closed : JoinShape { s.join with stage := .closed, windowTimer := none, requestTimer := none }
      s.sup.armed .locked := by
    rw [stage] at committed kind state
    rw [he] at joining retain
    exact ⟨own, committed, kind, state, rfl, rfl, listen, rfl, rfl, joining, retain, armed, restored, fun _ => rfl,
      received⟩
  unfold lockStation
  split
  · refine ground_enterMode (m := .locked) (by decide) hset hact ?_
    rw [enterMode_effectiveMode_of_not_works rfl]
    exact closed
  · rename_i hm
    have hm : s.ctl.mode = .reduced := hm
    rw [effectiveMode_of_reduced hm] at he
    split
    · refine ⟨⟨?_, nofun⟩, ?_, hset, hact⟩
      · show (some Mode.locked).isSome = (s.ctl.mode == .reduced)
        rw [hm]
        rfl
      · show JoinShape _ s.sup.armed (State.effectiveMode _)
        rw [effectiveMode_of_reduced (by exact hm)]
        exact closed
    · rename_i hr
      cases hk : s.ctl.returnMode with
      | none =>
        rw [hk] at he
        cases he
      | some m =>
        rw [hk] at he
        exact absurd (show s.ctl.returnMode = some .setup from hk.trans (congrArg some he)) hr
  · rename_i hn hr
    exact absurd ((effectiveMode_of_ne_reduced (s := s) hr).symm.trans he) hn

/-! ### The field supply (R17) -/

theorem ModeShape.toReduced (hm : s.ctl.mode ≠ .reduced) : ModeShape (toReduced s) :=
  ⟨rfl, fun e => hm (Option.some.inj e)⟩

theorem toReduced_effectiveMode (hm : s.ctl.mode ≠ .reduced) : (toReduced s).effectiveMode = s.effectiveMode :=
  (effectiveMode_of_ne_reduced hm).symm

/-- The return from REDUCED leaves the join unit as the return mode had it. -/
theorem ground_return (h : Ground s) (hm : s.ctl.mode = .reduced) : Ground (enterMode (returnTo s) s) := by
  by_cases ht : s.effectiveMode.takesCommands = true
  · exact ground_enterMode_of_takesCommands (returnTo_takesCommands hm ht) h ht
  · obtain ⟨⟨held, upright⟩, hj, hset, hact⟩ := h
    rw [hm] at held
    obtain ⟨m, hr⟩ := Option.isSome_iff_exists.mp held
    have he : s.effectiveMode = m := by
      rw [effectiveMode_of_reduced hm, hr]
      rfl
    rw [he] at ht hj
    have idle : m.works = false := by
      cases k : m.works
      · rfl
      · exact absurd (Mode.takesCommands_of_works k) ht
    have back : returnTo s = m := by
      unfold returnTo
      simp [hr, Mode.climbs_of_not_works idle]
    rw [back]
    refine ground_enterMode ?_ hset hact ?_
    · rintro rfl
      exact upright hr
    · rw [enterMode_effectiveMode_of_not_works idle]
      exact hj

/-! ### Every command -/

theorem setupKeeps_ground : SetupKeeps Ground where
  stage id v _ h hm hid := ground_stageItem h hm hid v
  commit _ _ h hm hc := ground_goodCommit h hm hc
  request s h ht := by
    obtain ⟨hmode, hj, hset, hact⟩ := h
    obtain ⟨own, committed, kind, state, window, request, rest⟩ := hj
    exact ⟨hmode, ⟨own, committed, kind, state, window, ht.symm.trans request, rest⟩, hset, hact⟩
  window _ h ht := ground_lockStation h ht
  listen _ h ht := ground_decideJoin h (.inl (h.listening ht))

theorem keeps_ground : Keeps Ground :=
  have F : FeedParts Ground := {}
  { steer := moves_ground.steering
    jacks := movedParts_ground.jacks moves_ground
    concrete := F.concrete moves_ground
    line := moves_ground.line
    peers := moves_ground.peers F fun _ k hw => ground_decideJoin k (.inr hw)
    setup := setupKeeps_ground
    guards := moves_ground.guards (free := fun b _ k => movedParts_ground.free b k)
    supply := F.supply moves_ground movedParts_ground (fun _ _ h hm e => e ▸ ground_return h hm)
      (fall := fun t k hm => by
        obtain ⟨hmode, hj, hset, hact⟩ := k
        exact ⟨ModeShape.toReduced hm, (toReduced_effectiveMode hm).symm ▸ hj, hset, hact⟩) }

/-! ### The resets -/

theorem marks_default : (Vector.replicate 87 false : Vector Bool 87).toList
    = (List.range 87).map fun i => !itemInRange (i + 1) (defaultRecord.item (i + 1)) := by
  decide +kernel

theorem strapNumber_le (strap : BitVec 6) : strapNumber strap ≤ 59 := by
  unfold strapNumber
  split
  · assumption
  · exact Nat.zero_le _

theorem ground_locked {strap : BitVec 6} {inhibit : Bool} {a b : Option Image} (s : State) :
    Ground (withInhibit inhibit (resetAll strap inhibit .locked defaultRecord a b s)) :=
  ⟨⟨rfl, nofun⟩,
    ⟨strapNumber_le strap, rfl, rfl, rfl, rfl, rfl, rfl, rfl, rfl, rfl, rfl, rfl, rfl, fun _ => rfl, Nat.zero_le _⟩,
    ⟨marks_default, nofun⟩, fun ch => by cases ch <;> rfl⟩

theorem ground_setup {strap : BitVec 6} (hs : strapGood strap = true) {inhibit : Bool} (s : State) :
    Ground (withInhibit inhibit (setupReset strap inhibit s)) := by
  have numbered : strapNumber strap ≠ 0 := by
    rw [strapNumber_good hs]
    have := strapGood_iff.mp hs
    omega
  exact ⟨⟨rfl, nofun⟩,
    ⟨strapNumber_le strap, rfl, rfl, rfl, rfl, rfl, rfl, rfl, rfl, rfl, rfl, rfl, rfl, fun e => absurd e numbered,
      Nat.zero_le _⟩,
    ⟨marks_default, nofun⟩, fun ch => by cases ch <;> rfl⟩

theorem ground_restore {strap : BitVec 6} (hs : strapGood strap = true) {inhibit : Bool} {a b : Option Image}
    {k : Kept} (hn : k.number = strap.toNat) (hk : GoodRecord k.number k.setup) (s : State) :
    Ground (restoreCourse strap inhibit a b k s) := by
  have numbered : strapNumber strap ≠ 0 := by
    rw [strapNumber_good hs]
    have := strapGood_iff.mp hs
    omega
  have restored := restored_restoreCourse (strap := strap) (inhibit := inhibit) (a := a) (b := b) (k := k) (s := s)
  have active : ∀ ch, ((restoreCourse strap inhibit a b k s).chan ch).isActive = k.setup.active ch := by
    intro ch
    rw [restored.chan, restoreChannel_isActive]
  obtain ⟨⟨p, q, e⟩, armed⟩ := restored
  rw [e] at armed active ⊢
  refine ⟨⟨rfl, nofun⟩, ⟨strapNumber_le strap, rfl, rfl, rfl, rfl, rfl, rfl, rfl, rfl, rfl, rfl, armed, rfl,
    fun e => absurd e numbered, Nat.zero_le _⟩, ⟨marks_default, ?_⟩, fun ch => active ch⟩
  rintro r hr
  cases hr
  rw [hn, ← strapNumber_good hs] at hk
  exact hk

/-- Every step keeps the ground. -/
theorem ground_step {s t : State} (hs : Sound s) (he : step s = .next t) : Ground t :=
  step_keeps keeps_ground he (fun _ => hs.ground) (fun v _ k => settled_keeps v k) (passTime_keeps hs.ground)
    (fun _ _ _ _ _ _ _ => ground_locked _) (fun _ _ _ hg => ground_setup hg _)
    fun _ _ _ _ _ _ _ hg _ hu hn => ground_restore hg hn (hs.kept hu).2.2.1 _

/-- A committed record stays through every command but a reset. -/
theorem keeps_committed (r : SetupRecord) : Keeps fun s => Ground s ∧ s.join.committed = some r := by
  have F : FeedParts fun s => s.join.committed = some r := {}
  have enter : ∀ (m : Mode) (s : State), s.join.committed = some r → (enterMode m s).join.committed = some r :=
    fun m s h => (aside_enterMode m s).committed.trans h
  have L : LatchParts fun s => s.join.committed = some r := { enter := fun m s h _ _ => enter m s h }
  have M := L.moves
  have H : ChannelParts fun s => s.join.committed = some r := {}
  have J : JoinParts fun s => s.join.committed = some r :=
    { adopt := fun s h => by
        obtain ⟨st, e⟩ := adoptStack_eq (adoptedHeight s) (adoptedMaturity s) (setHeights (adoptedHeight s) s)
        rw [e]
        exact h
      leave := fun m s h _ _ => enter m s h }
  have G := keeps_ground
  exact
    { steer := G.steer.and M.steering
      jacks := G.jacks.and (H.movedParts.jacks M)
      concrete := G.concrete.and (F.concrete M)
      line := G.line.and M.line
      peers := G.peers.and (M.peers F fun _ k _ => J.decide M k)
      setup :=
        { stage := fun id v s h hm hid => ⟨G.setup.stage id v s h.1 hm hid, h.2⟩
          refuseCommit := fun c s h hm => ⟨G.setup.refuseCommit c s h.1 hm, h.2⟩
          commit := fun _ s h hm _ => by
            rw [h.1.uncommitted (effectiveMode_of_setup hm)] at h
            exact absurd h.2 nofun
          request := fun s h ht => ⟨G.setup.request s h.1 ht, h.2⟩
          window := fun s h ht => ⟨G.setup.window s h.1 ht, lockStation_keeps
            (P := fun s => s.join.committed = some r) h.2 fun _ => enter .locked _ h.2⟩
          listen := fun s h ht => ⟨G.setup.listen s h.1 ht, J.decide M h.2⟩ }
      guards := G.guards.and M.guards
      supply := G.supply.and (F.supply M H.movedParts fun m s h _ _ => enter m s h) }

end

/-- Settles O14: every command keeps the join unit with the modes, and a second commit finds no SETUP. -/
theorem stepKeepsJoinUnit : Obligations.StepKeepsJoinUnit := by
  intro s t hs he
  obtain ⟨-, join, setup, -⟩ := ground_step hs he
  refine ⟨join, setup, fun r hr hq => ?_⟩
  have ground := hs.ground
  rcases step_cases he with ⟨i, rest, hp, hi, -⟩ | ⟨i, rest, hi, hx, -⟩ | ⟨-, rfl⟩
  · rw [hp] at hq
    rw [hq i rfl] at hi
    cases hi
  · obtain ⟨u, hu, -, hc⟩ := (keeps_committed r).answers (s := { s with pending := rest }) ⟨ground, hr⟩ hi
    rw [hu] at hx
    cases hx
    exact settled_keeps (P := fun t => t.join.committed = some r) _ hc
  · exact passTime_keeps (P := fun t => t.join.committed = some r) hr

end Sys2Proof.Machine
end

section
/-! PROOFS. The valves (R82): every operation on a channel keeps the law of its valves, and so does every
step. -/

namespace Sys2Proof.Machine

-- In order, so that the proofs waiting on one another do not hold a stack each.
set_option Elab.async false

/-! ### One channel -/

section
variable {r : SetupRecord} {now : Nat} {c d : Channel}

theorem valves_actOnValid (h : ChannelValves r now c) (reduced : Bool) (v : Nat) :
    ChannelValves r now (c.actOnValid r now reduced v) := by
  unfold Channel.actOnValid
  split
  · split
    · exact valves_toHold h
    · exact h
  · split
    · exact valves_stand h .rest (by decide) (by decide) (by decide)
    · exact h
  · split
    · exact h
    · split
      · exact valves_toRetract h false
      · exact h
  · exact h

theorem valves_actOnInvalid (h : ChannelValves r now c) (reduced : Bool) :
    ChannelValves r now (c.actOnInvalid r now reduced) := by
  unfold Channel.actOnInvalid
  split
  · split
    · split
      · exact h
      · exact valves_toRetract h true
    · exact valves_halt h .fault (by decide) (by decide) (by decide)
  · exact valves_toHold h
  · exact h
  · exact h
  · exact h

theorem valves_leaveFault (h : ChannelValves r now c) (inhibit reduced : Bool) :
    ChannelValves r now (c.leaveFault r now inhibit reduced) := by
  unfold Channel.leaveFault
  split
  · exact valves_halt h .inhibited (by decide) (by decide) (by decide)
  · split
    · exact valves_halt h .rest (by decide) (by decide) (by decide)
    · have fault := valves_halt h .fault (by decide) (by decide) (by decide)
      split
      · exact fault
      · split
        · exact valves_toRetract fault false
        · exact valves_halt h .rest (by decide) (by decide) (by decide)

/-- Both valves shut at the entry to REDUCED (R101). -/
theorem valves_reduce (h : ChannelValves r now c) : ChannelValves r now (c.reduce now) := by
  unfold Channel.reduce
  split
  · exact h
  · exact valves_stand h .rest (by decide) (by decide) (by decide)

/-- Every operation of a command keeps the law of the valves. -/
theorem MovedBy.valves {sweeps : Bool} {s : State} (h : ChannelValves s.setup s.now c)
    (m : MovedBy sweeps s c d) :
    ChannelValves s.setup s.now d := by
  cases m with
  | same => exact h
  | cut => exact valves_cut h
  | startDue hs => exact valves_startDue h hs
  | opened _ hd hn => exact valves_openDeferred h hd hn
  | valid v => exact valves_actOnValid (c := c.takeReading v) h _ v
  | invalid => exact valves_actOnInvalid h _
  | extended => exact valves_toHold h
  | held => exact valves_toRetract h _
  | failed => exact valves_halt h .fault (by decide) (by decide) (by decide)
  | freed => exact valves_leaveFault h _ _
  | inhibited =>
    unfold Channel.inhibit
    split
    · exact h
    · exact valves_halt h .inhibited (by decide) (by decide) (by decide)
  | released =>
    unfold Channel.release
    split
    · split
      · exact valves_stand h .rest (by decide) (by decide) (by decide)
      · exact valves_decideHome h
    · exact h
  | reduced => exact valves_reduce h
  | recovered =>
    unfold Channel.recover
    split
    · exact valves_decideHome h
    · exact h

theorem shut_of_off (h : ChannelValves r now c) (hs : c.state = .off) :
    c.pressureOpen = false ∧ c.dumpOpen = false ∧ c.strokeTimer.isSome = false ∧ c.deferred = none := by
  obtain ⟨-, hpo, hdo, -, -, hdf, htm, -, -⟩ := h
  have po : c.pressureOpen = false := by simpa [hs] using hpo
  have dpo : c.dumpOpen = false := by simpa [hs] using hdo
  refine ⟨po, dpo, ?_, hdf (by simp [hs]) (by simp [hs])⟩
  rw [htm, po, dpo, hs]
  rfl

/-- An OFF channel's valves stand closed under any record. -/
theorem valves_of_off (h : ChannelValves r now c) (hs : c.state = .off) (q : SetupRecord) :
    ChannelValves q now c := by
  obtain ⟨po, dpo, -, -⟩ := shut_of_off h hs
  obtain ⟨hb, -, -, -, -, hdf, htm, hp, hd⟩ := h
  exact ⟨hb, by simp [po], by simp [dpo], by simp [hs], by simp [hs], hdf, htm, hp, hd⟩

/-- A channel that a commit makes active waits with its valves closed. -/
theorem valves_commitChannel (h : ChannelValves r now c) (hs : c.state = .off) (inhibit : Bool) :
    ChannelValves r now (commitChannel inhibit c) := by
  obtain ⟨po, dpo, timer, opening⟩ := shut_of_off h hs
  obtain ⟨hb, -, -, -, -, -, -, hp, hd⟩ := h
  unfold commitChannel
  split <;> exact ⟨hb, by simp [po], by simp [dpo], by simp, by simp, fun _ _ => opening, by
    rw [timer, po, dpo]
    rfl, hp, hd⟩

end

/-! ### The station -/

section
variable {s : State}

/-- The law of the valves for every channel. -/
abbrev Valves (s : State) : Prop := ∀ ch : Ch, ChannelValves s.setup s.now (s.chan ch)

theorem valves_aside {t : State} (h : Valves s) (a : Aside s t) (hc : t.seq.chans = s.seq.chans) : Valves t := by
  intro ch
  rw [a.setup, a.now, State.chan, hc]
  exact h ch

theorem valves_enterMode (m : Mode) (h : Valves s) : Valves (enterMode m s) :=
  valves_aside h (aside_enterMode m s) (enterMode_chans m s)

theorem movedParts_valves : MovedParts Valves True where
  moved q s h hq ch := MovedBy.valves (s := s) (h ch) (hq ch)
  credited c s h _ ch := by
    show ChannelValves s.setup s.now ((updateCh c (Channel.credited s.setup) s).chan ch)
    rw [updateCh_chan]
    split
    · rename_i e
      subst e
      exact h ch
    · exact h ch
  planned _ b s h _ _ ch := by
    show ChannelValves s.setup s.now ((PerChannel.ofFn _ : PerChannel Channel).get ch)
    rw [PerChannel.get_ofFn]
    unfold Channel.takeTarget
    split <;> exact h ch

theorem latchParts_valves : LatchParts Valves where
  enter m _ h _ _ := valves_enterMode m h
  cut _ h := movedParts_valves.cut h

theorem moves_valves : Moves Valves fun _ => true := latchParts_valves.moves

theorem valves_setHeights (h : Nat) (k : Valves s) : Valves (setHeights h s) := by
  intro ch
  rw [setHeights_chan]
  split <;> exact k ch

theorem joinParts_valves : JoinParts Valves where
  fresh _ h := valves_setHeights _ h
  adopt s h := by
    obtain ⟨st, e⟩ := adoptStack_eq (adoptedHeight s) (adoptedMaturity s) (setHeights (adoptedHeight s) s)
    rw [e]
    exact valves_setHeights _ h
  leave m _ h _ _ := valves_enterMode m h

/-- A commit finds every channel OFF and leaves the ones of CH_ACTIVE waiting (R105, R169). -/
theorem valves_goodCommit (h : Valves s) (off : ∀ ch : Ch, (s.chan ch).state = .off) :
    Valves (goodCommit s) := by
  have taken : Valves (takeCommit s) := fun ch => valves_of_off (h ch) (off ch) _
  have joining := valves_enterMode .joining taken
  refine moves_valves.judgePeers (s := bringIntoForce _) fun ch => ?_
  show ChannelValves _ _ ((PerChannel.ofFn _ : PerChannel Channel).get ch)
  have still : ((enterMode .joining (takeCommit s)).chan ch).state = .off := by
    rw [State.chan, enterMode_chans]
    exact off ch
  rw [PerChannel.get_ofFn]
  split
  · exact valves_commitChannel (joining ch) still _
  · exact joining ch

theorem keeps_valves : Keeps fun s => Ground s ∧ Valves s :=
  have F : FeedParts Valves := {}
  have M := moves_valves
  have H := movedParts_valves
  have G := keeps_ground
  { steer := G.steer.and M.steering
    expire := fun d s h => ⟨G.expire d s h.1, fun ch => valves_later (h.2 ch) (Nat.le_max_left _ _)⟩
    jacks := G.jacks.and (H.jacks M)
    concrete := G.concrete.and (F.concrete M
      (tick := fun s h ch => valves_later (h ch) (Nat.le_max_left _ _))
      (probeTick := fun s h ch => valves_later (h ch) (Nat.le_max_left _ _)))
    line := G.line.and M.line
    peers := G.peers.and (M.peers F fun _ k _ => joinParts_valves.decide M k)
    setup :=
      { stage := fun id v s h hm hid => ⟨G.setup.stage id v s h.1 hm hid, h.2⟩
        refuseCommit := fun c s h hm => ⟨G.setup.refuseCommit c s h.1 hm, h.2⟩
        commit := fun c s h hm hc =>
          ⟨G.setup.commit c s h.1 hm hc, valves_goodCommit h.2 (h.1.off (effectiveMode_of_setup hm))⟩
        request := fun s h ht => ⟨G.setup.request s h.1 ht, h.2⟩
        window := fun s h ht => ⟨G.setup.window s h.1 ht,
          lockStation_keeps (P := Valves) h.2 fun _ => valves_enterMode .locked h.2⟩
        listen := fun s h ht => ⟨G.setup.listen s h.1 ht, joinParts_valves.decide M h.2⟩ }
    guards := G.guards.and (M.guards (free := fun b _ k => H.free b k))
    supply := G.supply.and (F.supply M H fun m s h _ _ => valves_enterMode m h) }

theorem valves_afterReset (r : SetupRecord) : ChannelValves r 0 Channel.afterReset :=
  ⟨by decide, nofun, nofun, nofun, nofun, fun _ _ => rfl, rfl, le_rfl, le_rfl⟩

theorem valves_restoreChannel (r : SetupRecord) (inhibit active : Bool) (h : Nat) :
    ChannelValves r 0 (restoreChannel inhibit active h) := by
  cases active <;> cases inhibit <;>
    exact ⟨nofun, nofun, nofun, nofun, nofun, fun _ _ => rfl, rfl, le_rfl, le_rfl⟩

end

/-- Settles O8: every opening is a start, a homing or a deferred opening, each made once T_dead has run. -/
theorem stepKeepsValveLaw : Obligations.StepKeepsValveLaw := by
  intro s t hs he
  have ground : Ground s ∧ Valves s := ⟨hs.ground, fun ch => hs.valves ch (Ch.mem_all ch)⟩
  have valves : Valves t := by
    refine step_keeps keeps_valves he (fun _ => ground) (fun v _ k => settled_keeps v k.2)
      (passTime_keeps ground.2 fun _ _ h ch => valves_later (h ch) (Nat.le_succ _)) ?_ ?_ ?_
    · exact fun _ _ _ _ _ _ _ ch => by cases ch <;> exact valves_afterReset _
    · exact fun _ _ _ _ ch => by cases ch <;> exact valves_afterReset _
    · intro strap inhibit cut a b image q _ _ _ _ ch
      have restored := restored_restoreCourse (strap := strap) (inhibit := inhibit) (a := a) (b := b)
        (k := image.kept) (s := { s with pending := q })
      have still : (restoreCourse strap inhibit a b image.kept { s with pending := q }).now = 0 := by
        obtain ⟨⟨p, r, e⟩, -⟩ := restored
        rw [e]
        rfl
      rw [restored.chan, still]
      exact valves_restoreChannel _ _ _ _
  exact fun ch _ => valves ch

end Sys2Proof.Machine
end

section
/-! PROOFS. The peer table (R125 to R135): its ranges, the roster's records, the link list, the duplicate count
and the availability conditions. -/

namespace Sys2Proof.Machine

-- In order, so that the proofs waiting on one another do not hold a stack each.
set_option Elab.async false

/-! ### What a report that is entered can hold (R128, R202, R203) -/

/-- The fields of a report that a record takes lie in the ranges of R202. -/
structure Report.Entered (r : Report) : Prop where
  height : ∀ h ∈ r.height, h ≤ Config.heightMax
  strokeCount : r.strokeCount < 65536
  deficit : ∀ d ∈ r.deficit, d ≤ 15000
  topMaturity : ∀ m ∈ r.stack.map StackView.topMaturity, m ≤ 2000

theorem entered_of_codes {codes : List Nat} {r : Report} (hg : codesGiven codes = true)
    (hr : reportOfCodes codes = some r) (hc : codes.getD 14 0 < 65536) : r.Entered := by
  unfold codesGiven at hg
  split at hg
  · rename_i mode feed below adopted op fh rj seg refusal cause cur depth scale height count a b c d cand bot top
      seqno age temp rate deficit faults spare
    simp only [Bool.and_eq_true, Bool.or_eq_true, decide_eq_true_eq, beq_iff_eq] at hg
    simp only [reportOfCodes, Option.bind_eq_bind, Option.bind_eq_some_iff, Option.pure_def,
      Option.some.injEq] at hr
    obtain ⟨m, -, f, -, x, -, l, -, ca, -, cb, -, cc, -, cd, -, rfl⟩ := hr
    refine ⟨fun h hh => ?_, hc, fun e he => ?_, fun e he => ?_⟩
    · dsimp only at hh
      split at hh
      · cases hh
      · cases hh
        simp only [Config.heightMax]
        omega
    · dsimp only at he
      split at he
      · cases he
      · cases he
        omega
    · dsimp only at he
      split at he
      · cases he
      · cases he
        show top ≤ 2000
        omega
  · cases hg

theorem decodeReport_entered {n : Nat} {r : Report} (h : decodeReport n = some r) : r.Entered := by
  unfold decodeReport at h
  dsimp only at h
  split at h
  · refine entered_of_codes ‹_› h ?_
    simp only [reportWidths, unpackFields, List.getD_cons_succ, List.getD_cons_zero]
    exact Nat.mod_lt _ (by decide)
  · cases h

/-! ### One record -/

section
variable {p : Peer}

theorem peerInRange_enter {r : Report} (h : r.Entered) (p : Peer) : PeerInRange (p.enter r) :=
  ⟨Nat.zero_le _, fun _ => Nat.zero_lt_succ _, fun _ => rfl, nofun, fun _ => ⟨rfl, rfl⟩, h.height, fun n hn => by
    cases hn
    exact h.strokeCount, h.deficit, h.topMaturity⟩

/-- A sweep keeps a record in its ranges: one that has missed MISS_LIMIT reports is SILENT (R131). -/
theorem peerInRange_age {limit : Nat} (hl : limit ≤ 8) (h : PeerInRange p) : PeerInRange (p.age limit) := by
  unfold Peer.age
  split
  · rename_i live
    obtain ⟨hmiss, hlive, -, -, hheard, height, count, deficit, top⟩ := h
    have carried := hheard (by rw [live]; decide)
    split
    · exact ⟨hmiss, hlive, nofun, fun k => absurd (live.symm.trans k) nofun, hheard, height, count, deficit, top⟩
    · rename_i unheard
      refine ⟨hlive live, fun k => ?_, fun k => absurd k unheard, fun k => ?_, fun _ => carried, height, count, deficit,
        top⟩
      · dsimp only at k ⊢
        split at k
        · cases k
        · omega
      · dsimp only at k
        split at k <;> cases k
  · exact h

@[simp] theorem Peer.age_number (limit : Nat) (p : Peer) : (p.age limit).number = p.number := by
  unfold Peer.age
  split
  · split <;> rfl
  · rfl

theorem peerInRange_resetPeer (n : Nat) : PeerInRange (State.resetPeer n) :=
  ⟨Nat.zero_le _, nofun, nofun, fun _ => rfl, fun k => absurd rfl k, nofun, nofun, nofun, nofun⟩

end

/-! ### The roster (R125) -/

theorem range_filter_le {m n : Nat} (h : m ≤ n) :
    ((List.range n).map (· + 1)).filter (fun k => decide (k ≤ m)) = (List.range m).map (· + 1) := by
  obtain ⟨k, rfl⟩ := Nat.exists_eq_add_of_le h
  rw [List.range_add, List.map_append, List.filter_append, List.filter_eq_self.mpr, List.filter_eq_nil_iff.mpr,
    List.append_nil]
  · intro j hj
    simp only [List.mem_map] at hj
    obtain ⟨a, ⟨b, -, rfl⟩, rfl⟩ := hj
    simp
  · intro j hj
    obtain ⟨a, ha, rfl⟩ := List.mem_map.mp hj
    have := List.mem_range.mp ha
    simp
    omega

/-- The numbers of a smaller roster are those of the greater up to it. -/
theorem rosterNumbers_filter {m n : Nat} (h : m ≤ n) (own : Nat) :
    (rosterNumbers n own).filter (fun k => decide (k ≤ m)) = rosterNumbers m own := by
  unfold rosterNumbers
  rw [List.filter_filter, ← range_filter_le h, List.filter_filter]
  exact List.filter_congr fun _ _ => Bool.and_comm _ _

/-! ### The record in force -/

theorem defaultRecord_inRange : recordInRange defaultRecord = true := by decide +kernel

/-- The record in force lies in its ranges, committed or not (R161, R206). -/
theorem SetupLaw.inRange {s : State} (h : SetupLaw s) : recordInRange s.setup = true := by
  obtain ⟨-, good⟩ := h
  unfold State.setup
  cases hc : s.join.committed with
  | none => exact defaultRecord_inRange
  | some r => exact (good r hc).1

/-- An item whose range starts at or above 0, as a natural number. -/
theorem nat_le_of_inRange {r : SetupRecord} (hr : recordInRange r = true) {i hi : Nat} (h87 : i < 87)
    (h : (itemSpec (i + 1)).hi = hi) : r.nat (i + 1) ≤ hi := by
  have bounds := (item_bounds hr h87).2
  rw [h] at bounds
  unfold SetupRecord.nat
  omega

section
variable {r : SetupRecord} (hr : recordInRange r = true)
include hr

theorem roster_le : r.roster ≤ 59 := nat_le_of_inRange hr (i := 66) (by decide) rfl

theorem missLimit_le : r.missLimit ≤ 8 := nat_le_of_inRange hr (i := 68) (by decide) rfl

theorem programStart_le : r.programStart ≤ Config.heightMax := nat_le_of_inRange hr (i := 0) (by decide) rfl

theorem formHeight_le : r.formHeight ≤ 15000 := nat_le_of_inRange hr (i := 40) (by decide) rfl

end

/-! ### The table, the link list and the duplicate count -/

/-- The records of the roster in their ranges, the link list, and the duplicate count below its limit while
DUPLICATE NUMBER is present. -/
abbrev Table (s : State) : Prop :=
  s.peers.records.map Peer.number = rosterNumbers s.setup.roster s.join.ownNumber
    ∧ (∀ p ∈ s.peers.records, PeerInRange p)
    ∧ s.peers.links = ((s.join.committed.map (linkList s.join.ownNumber)).getD [])
    ∧ s.peers.dupMiss ≤ 8
    ∧ (s.isPresent .duplicateNumber = true → s.peers.dupMiss < 8)

section
variable {s : State}

/-- The table reads the peer table, the join unit and DUPLICATE NUMBER alone. -/
theorem Table.aside {t : State} (h : Table s) (a : Aside s t)
    (hd : t.isPresent .duplicateNumber = s.isPresent .duplicateNumber) : Table t := by
  unfold Table
  rw [a.peers, a.setup, a.ownNumber, a.committed, hd]
  exact h

theorem isPresent_append_of_ne {c d : Cond} (h : c ≠ d) :
    State.isPresent { s with sup.present := s.sup.present ++ [c] } d = s.isPresent d := by
  simp [State.isPresent, Ne.symm h]

theorem isPresent_filter_of_ne {c d : Cond} (h : c ≠ d) :
    State.isPresent { s with sup.present := s.sup.present.filter (· != c) } d = s.isPresent d := by
  simp [State.isPresent, Ne.symm h]

theorem table_enterMode (m : Mode) (h : Table s) : Table (enterMode m s) :=
  h.aside (aside_enterMode m s) (by rw [State.isPresent, enterMode_sup]; rfl)

theorem latchParts_table : LatchParts Table (· != .duplicateNumber) where
  enter m _ h _ _ := table_enterMode m h
  appear c _ hc h _ := h.aside (aside_setPresent _ _) (isPresent_append_of_ne (bne_iff_ne.mp hc))
  vanish c _ hc h := h.aside (aside_setPresent _ _) (isPresent_filter_of_ne (bne_iff_ne.mp hc))

theorem moves_table : Moves Table (· != .duplicateNumber) := latchParts_table.moves

theorem plain_ne_duplicate {c : Cond} (h : c.isPlain = true) : (c != .duplicateNumber) = true := by
  cases c <;> simp_all [Cond.isPlain]

theorem joinParts_table : JoinParts Table where
  adopt s h := by
    obtain ⟨st, e⟩ := adoptStack_eq (adoptedHeight s) (adoptedMaturity s) (setHeights (adoptedHeight s) s)
    rw [e]
    exact h
  leave m _ h _ _ := table_enterMode m h

theorem table_ownNumberHeard (h : Table s) : Table (ownNumberHeard s) := by
  have a := aside_raiseCond .duplicateNumber { s with peers.dupMiss := 0, peers.dupHeard := true }
  obtain ⟨numbers, ranges, links, -, -⟩ := h
  unfold ownNumberHeard Table
  rw [a.peers, a.setup, a.ownNumber, a.committed]
  exact ⟨numbers, ranges, links, Nat.zero_le _, fun _ => Nat.zero_lt_succ _⟩

theorem table_enterReport {n : Nat} {r : Report} (hr : r.Entered) (h : Table s) :
    Table { s with peers.records := enterReport n r s.peers.records } := by
  obtain ⟨numbers, ranges, rest⟩ := h
  refine ⟨?_, ?_, rest⟩
  · refine Eq.trans ?_ numbers
    show (enterReport n r s.peers.records).map Peer.number = _
    rw [enterReport, List.map_map]
    refine List.map_congr_left fun p _ => ?_
    show Peer.number (if p.number = n then p.enter r else p) = p.number
    split <;> rfl
  · intro p hp
    obtain ⟨q, hq, rfl⟩ := List.mem_map.mp hp
    split
    · exact peerInRange_enter hr q
    · exact ranges q hq

theorem table_age (hl : s.setup.missLimit ≤ 8) (h : Table s) :
    Table { s with peers.records := s.peers.records.map (Peer.age s.setup.missLimit) } := by
  obtain ⟨numbers, ranges, rest⟩ := h
  refine ⟨?_, ?_, rest⟩
  · refine Eq.trans ?_ numbers
    show (s.peers.records.map (Peer.age s.setup.missLimit)).map Peer.number = _
    rw [List.map_map]
    exact List.map_congr_left fun p _ => Peer.age_number _ p
  · intro p hp
    obtain ⟨q, hq, rfl⟩ := List.mem_map.mp hp
    exact peerInRange_age hl (ranges q hq)

/-- A sweep without a report under the own number counts, and ends the condition at MISS_LIMIT (R130). -/
theorem table_ageDuplicate (hl : s.setup.missLimit ≤ 8) (h : Table s) : Table (ageDuplicate s) := by
  refine ite_keeps (fun hp => ite_keeps (fun _ => h) fun _ => ?_) fun _ => h
  obtain ⟨numbers, ranges, links, -, below⟩ := h
  have counted : s.peers.dupMiss + 1 ≤ 8 := below hp
  refine ite_keeps (fun _ => ?_) fun hlimit => ?_
  · have a := aside_lapseCond .duplicateNumber { s with peers.dupMiss := s.peers.dupMiss + 1 }
    unfold Table
    rw [a.peers, a.setup, a.ownNumber, a.committed]
    refine ⟨numbers, ranges, links, counted, fun k => ?_⟩
    rw [lapseCond_isPresent] at k
    simp at k
  · have limit : ¬ s.setup.missLimit ≤ s.peers.dupMiss + 1 := hlimit
    exact ⟨numbers, ranges, links, counted, fun _ => show s.peers.dupMiss + 1 < 8 by omega⟩

/-- A commit cuts the records to the roster committed and forms the link list (R125, R134, R169). -/
theorem table_goodCommit (h : Table s) (hu : s.join.committed = none)
    (hr : recordInRange s.join.staged = true) : Table (goodCommit s) := by
  have a := aside_enterMode .joining (takeCommit s)
  refine moves_table.judgePeers (s := bringIntoForce (enterMode .joining (takeCommit s))) ?_
  obtain ⟨numbers, ranges, -, counted, below⟩ := h
  have roster : s.setup.roster = 59 := by
    rw [State.setup, hu]
    exact defaultRecord_roster
  have records : (bringIntoForce (enterMode .joining (takeCommit s))).peers.records
      = s.peers.records.filter fun p => decide (p.number ≤ s.join.staged.roster) := by
    show (enterMode .joining (takeCommit s)).peers.records.filter (fun p =>
      decide (p.number ≤ (enterMode .joining (takeCommit s)).setup.roster)) = _
    rw [a.peers, a.setup]
    rfl
  have own : (enterMode .joining (takeCommit s)).join.ownNumber = s.join.ownNumber := a.ownNumber
  have inForce : (enterMode .joining (takeCommit s)).setup = s.join.staged := a.setup
  have committed : (enterMode .joining (takeCommit s)).join.committed = some s.join.staged := a.committed
  have shown : (enterMode .joining (takeCommit s)).sup = s.sup := by rw [enterMode_sup]; rfl
  have heard : (enterMode .joining (takeCommit s)).peers = s.peers := a.peers
  refine ⟨?_, ?_, ?_, ?_, ?_⟩
  · show _ = rosterNumbers (enterMode .joining (takeCommit s)).setup.roster
      (enterMode .joining (takeCommit s)).join.ownNumber
    rw [records, inForce, own, ← rosterNumbers_filter (roster_le hr), ← roster, ← numbers, List.filter_map]
    rfl
  · intro p hp
    rw [records] at hp
    exact ranges p (List.mem_of_mem_filter hp)
  · show linkList (enterMode .joining (takeCommit s)).join.ownNumber (enterMode .joining (takeCommit s)).setup
      = ((enterMode .joining (takeCommit s)).join.committed.map
          (linkList (enterMode .joining (takeCommit s)).join.ownNumber)).getD []
    rw [committed, inForce]
    rfl
  · show (enterMode .joining (takeCommit s)).peers.dupMiss ≤ 8
    rw [heard]
    exact counted
  · show (enterMode .joining (takeCommit s)).sup.present.contains .duplicateNumber = true →
      (enterMode .joining (takeCommit s)).peers.dupMiss < 8
    rw [heard, shown]
    exact below

theorem keeps_table : Keeps fun s => Ground s ∧ Table s :=
  have F : FeedParts Table := {}
  have H : ChannelParts Table := {}
  have M := moves_table
  have J := joinParts_table
  have G := keeps_ground
  have plain : ∀ c : Cond, c.isPlain = true → (c != .duplicateNumber) = true := fun _ => plain_ne_duplicate
  { steer := G.steer.and (M.steering plain)
    jacks := G.jacks.and (H.movedParts.jacks M (hC := plain))
    concrete := G.concrete.and (F.concrete M (hC := plain))
    line := G.line.and M.line
    peers :=
      { duplicate := fun s h => ⟨G.peers.duplicate s h.1, table_ownNumberHeard h.2⟩
        arrival := fun n p r s h hr => ⟨G.peers.arrival n p r s h.1 hr,
          M.handArrival n (table_enterReport (decodeReport_entered hr) h.2) (fun _ => F.arrival)
            fun _ k _ => J.decide M k⟩
        sweep := fun s h => ⟨G.peers.sweep s h.1,
          have limit := missLimit_le h.1.2.2.1.inRange
          M.ageSweep (table_ageDuplicate limit (table_age limit h.2)) (fun _ => F.admitIfSettled)
            fun _ k _ => J.decide M k⟩ }
    setup :=
      { stage := fun id v s h hm hid => ⟨G.setup.stage id v s h.1 hm hid, h.2⟩
        refuseCommit := fun c s h hm => ⟨G.setup.refuseCommit c s h.1 hm, h.2⟩
        commit := fun c s h hm hc => ⟨G.setup.commit c s h.1 hm hc,
          table_goodCommit h.2 (h.1.uncommitted (effectiveMode_of_setup hm))
            (goodRecord_of_judgeCommit h.1.2.2.1 hc).1⟩
        request := fun s h ht => ⟨G.setup.request s h.1 ht, h.2⟩
        window := fun s h ht => ⟨G.setup.window s h.1 ht,
          lockStation_keeps (P := Table) h.2 fun _ => table_enterMode .locked h.2⟩
        listen := fun s h ht => ⟨G.setup.listen s h.1 ht, J.decide M h.2⟩ }
    guards := G.guards.and M.guards
    supply := G.supply.and (F.supply M H.movedParts fun m s h _ _ => table_enterMode m h) }

/-! ### The availability conditions (R135) -/

theorem Aside.peerSilent {t : State} (a : Aside s t) : Machine.peerSilent t = Machine.peerSilent s := by
  unfold Machine.peerSilent
  rw [a.peers]

/-- A judgement of the peers brings the availability conditions about. -/
theorem availability_judgePeers : AvailabilityLaw (judgePeers s) := by
  unfold judgePeers
  dsimp only
  have first := aside_judgeCond .neighbourLost (!allAvailable s) s
  have second := aside_judgeCond .peerSilent (peerSilent (judgeCond .neighbourLost (!allAvailable s) s))
    (judgeCond .neighbourLost (!allAvailable s) s)
  refine ⟨?_, ?_⟩
  · rw [judgeCond_isPresent_of_ne (by decide), judgeCond_isPresent, (first.trans second).allAvailable]
  · rw [judgeCond_isPresent]
    exact second.peerSilent.symm

theorem AvailabilityLaw.aside {t : State} (h : AvailabilityLaw s) (a : Aside s t)
    (hn : t.isPresent .neighbourLost = s.isPresent .neighbourLost)
    (hp : t.isPresent .peerSilent = s.isPresent .peerSilent) : AvailabilityLaw t := by
  unfold AvailabilityLaw
  rw [hn, hp, a.allAvailable, a.peerSilent]
  exact h

theorem availability_enterMode (m : Mode) (h : AvailabilityLaw s) : AvailabilityLaw (enterMode m s) :=
  h.aside (aside_enterMode m s) (by rw [State.isPresent, enterMode_sup]; rfl)
    (by rw [State.isPresent, enterMode_sup]; rfl)

/-- The conditions that the judgement of the peers alone raises and ends. -/
def Cond.notJudged (c : Cond) : Bool := c != .neighbourLost && c != .peerSilent

theorem Cond.notJudged_iff {c : Cond} : c.notJudged = true ↔ c ≠ .neighbourLost ∧ c ≠ .peerSilent := by
  simp [Cond.notJudged]

theorem plain_notJudged {c : Cond} (h : c.isPlain = true) : c.notJudged = true := by
  cases c <;> simp_all [Cond.isPlain, Cond.notJudged]

theorem latchParts_availability : LatchParts AvailabilityLaw Cond.notJudged where
  enter m _ h _ _ := availability_enterMode m h
  appear c _ hc h _ :=
    have ne := Cond.notJudged_iff.mp hc
    h.aside (aside_setPresent _ _) (isPresent_append_of_ne ne.1) (isPresent_append_of_ne ne.2)
  vanish c _ hc h :=
    have ne := Cond.notJudged_iff.mp hc
    h.aside (aside_setPresent _ _) (isPresent_filter_of_ne ne.1) (isPresent_filter_of_ne ne.2)

theorem moves_availability : Moves AvailabilityLaw Cond.notJudged := latchParts_availability.moves

theorem joinPhases_availability :
    JoinPhases AvailabilityLaw AvailabilityLaw AvailabilityLaw AvailabilityLaw where
  wait _ h := h
  adopt s h _ := by
    obtain ⟨st, e⟩ := adoptStack_eq (adoptedHeight s) (adoptedMaturity s) (setHeights (adoptedHeight s) s)
    rw [e]
    exact h
  arm _ h := h
  entry c _ := latchParts_availability.latch c
  leave m p s h _ _ := availability_enterMode (s := { s with ctl.pause := p }) m h
  back _ _ _ h _ _ := h

theorem availability_decideJoin (h : AvailabilityLaw s) : AvailabilityLaw (decideJoin s) :=
  joinPhases_availability.decide moves_availability moves_availability h

/-- An arrival and a sweep judge the peers once the records are as they then stand (R129, R131). -/
theorem availability_handArrival (n : Nat) (s : State) : AvailabilityLaw (handArrival n s) := by
  have judged : AvailabilityLaw (judgePeers (feedArrival s)) := availability_judgePeers
  have checked := moves_availability.checkRejoin
    (ite_keeps (p := (judgePeers (feedArrival s)).peers.links.contains n = true)
      (fun _ => moves_availability.judgeTilt judged) fun _ => judged)
  exact joinIfWaiting_keeps checked fun _ => availability_decideJoin checked

theorem availability_ageSweep (s : State) : AvailabilityLaw (ageSweep s) := by
  have F : FeedParts AvailabilityLaw := {}
  have checked := moves_availability.checkRejoin (F.admitIfSettled (availability_judgePeers (s := ageDuplicate
    { s with peers.records := s.peers.records.map (Peer.age s.setup.missLimit) })))
  exact joinIfWaiting_keeps checked fun _ => availability_decideJoin checked

theorem keeps_availability : Keeps AvailabilityLaw :=
  have F : FeedParts AvailabilityLaw := {}
  have H : ChannelParts AvailabilityLaw := {}
  have M := moves_availability
  have plain : ∀ c : Cond, c.isPlain = true → c.notJudged = true := fun _ => plain_notJudged
  { steer := M.steering plain
    jacks := H.movedParts.jacks M (hC := plain)
    concrete := F.concrete M (hC := plain)
    line := M.line
    peers :=
      { duplicate := fun _ h => M.duplicate h
        arrival := fun n _ _ _ _ _ => availability_handArrival n _
        sweep := fun _ _ => availability_ageSweep _ }
    setup :=
      { commit := fun _ _ _ _ _ => availability_judgePeers
        window := fun _ h _ => lockStation_keeps (P := AvailabilityLaw) h fun _ => availability_enterMode .locked h
        listen := fun _ h _ => availability_decideJoin h }
    guards := M.guards
    supply := F.supply M H.movedParts fun m _ h _ _ => availability_enterMode m h }

/-- The close of a command ends no condition but EXTEND TIMEOUT (R186). -/
theorem settled_isPresent (v u : State) {c : Cond} (h : ∀ ch : Ch, c ≠ .extendTimeout ch) :
    (settled v u).isPresent c = u.isPresent c := by
  obtain ⟨busy, e⟩ := settled_spec v u
  have stays : extendTimeoutOver u c = false := by
    cases c with
    | extendTimeout ch => exact absurd rfl (h ch)
    | _ => rfl
  rw [e]
  simp [State.isPresent, stays]

theorem settled_aside (v u : State) : Aside u (settled v u) := by
  obtain ⟨busy, e⟩ := settled_spec v u
  rw [e]
  exact ⟨rfl, rfl, rfl, rfl, rfl, ⟨_, _, rfl⟩, rfl⟩

/-! ### The resets -/

theorem fresh_records {roster own : Nat} {p : Peer} (h : p ∈ freshRecords roster own) :
    p = State.resetPeer p.number := by
  obtain ⟨n, -, rfl⟩ := List.mem_map.mp h
  rfl

/-- The peer table of a reset under record `r` for station `own`. -/
theorem table_of_fresh {t : State} (hr : t.peers.records = freshRecords t.setup.roster t.join.ownNumber)
    (hl : t.peers.links = ((t.join.committed.map (linkList t.join.ownNumber)).getD []))
    (hd : t.peers.dupMiss = 0) : Table t := by
  refine ⟨?_, fun p hp => ?_, hl, hd ▸ Nat.zero_le _, fun _ => hd ▸ Nat.zero_lt_succ _⟩
  · rw [hr, freshRecords_eq, List.map_map]
    exact List.map_id _
  · rw [hr] at hp
    rw [fresh_records hp]
    exact peerInRange_resetPeer _

theorem peerSilent_of_fresh {t : State} {roster own : Nat} (hr : t.peers.records = freshRecords roster own) :
    peerSilent t = false := by
  unfold peerSilent
  rw [hr, List.any_eq_false]
  intro p hp
  rw [fresh_records hp]
  exact nofun

theorem availability_inhibitAtReset (h : AvailabilityLaw s) : AvailabilityLaw (inhibitAtReset s) := by
  refine ite_keeps (fun _ => ?_) fun _ => h
  have raised := moves_availability.raise .inhibit rfl h
  rcases reportFaults_cases s (raiseCond .inhibit s) with ⟨-, e⟩ | ⟨-, e⟩ <;> rw [e] <;> exact raised

end

/-- Settles O12: a record changes by a report in range and by its age alone, and every change of the records is
judged before the command ends. -/
theorem stepKeepsPeerTable : Obligations.StepKeepsPeerTable := by
  intro s t hs he
  have ground := hs.ground
  constructor
  · refine step_keeps keeps_table he (fun _ => ⟨ground, hs.peers⟩) (fun v u k => k.2.aside (settled_aside v u)
      (settled_isPresent v u fun _ => nofun)) (passTime_keeps (P := Table) hs.peers) ?_ ?_ ?_
    · exact fun _ _ _ _ _ _ _ => table_of_fresh rfl rfl rfl
    · exact fun _ _ _ _ => table_of_fresh rfl rfl rfl
    · intro strap inhibit cut a b image q _ _ _ _
      obtain ⟨⟨p, r, e⟩, -⟩ := restored_restoreCourse (strap := strap) (inhibit := inhibit) (a := a) (b := b)
        (k := image.kept) (s := { s with pending := q })
      rw [e]
      exact table_of_fresh rfl rfl rfl
  · refine step_keeps keeps_availability he (fun _ => hs.availability) (fun v u k => k.aside (settled_aside v u)
      (settled_isPresent v u fun _ => nofun) (settled_isPresent v u fun _ => nofun))
      (passTime_keeps (P := AvailabilityLaw) hs.availability) ?_ ?_ ?_
    · intro strap inhibit a b q _ _
      exact ⟨by cases inhibit <;> rfl, (by cases inhibit <;> rfl : _ = false).trans
        (peerSilent_of_fresh rfl).symm⟩
    · intro strap inhibit q _
      exact ⟨by cases inhibit <;> rfl, (by cases inhibit <;> rfl : _ = false).trans
        (peerSilent_of_fresh rfl).symm⟩
    · intro strap inhibit cut a b image q _ _ _ _
      rw [restoreCourse_eq]
      exact availability_inhibitAtReset availability_judgePeers

end Sys2Proof.Machine
end

section
/-! PROOFS. The channels and the station height (R81, R87, R93, R94, R99, R101, R105). -/

namespace Sys2Proof.Machine

-- In order, so that the proofs waiting on one another do not hold a stack each.
set_option Elab.async false

/-! ### One channel's ranges -/

/-- The ranges of a channel, and no stroke or start before the join is done (R3, R81, R87). -/
abbrev ChannelCore (done : Prop) (c : Channel) : Prop :=
  ChannelRanges c ∧ (¬done → c.state ≠ .extend ∧ c.state ≠ .hold ∧ c.startPending = false)

/-- Heights, target and readings stand. -/
structure Channel.SameData (c d : Channel) : Prop where
  climbed : d.climbed = c.climbed
  target : d.target = c.target
  x : d.x = c.x
  valid : d.readingValid = c.readingValid
  peak : d.xPeak = c.xPeak

section
variable {r : SetupRecord} {now : Nat} {c d : Channel} {done : Prop}

theorem Channel.SameData.refl (c : Channel) : c.SameData c := ⟨rfl, rfl, rfl, rfl, rfl⟩

theorem Channel.sameData_shut : c.SameData (c.shut now) := by
  rw [Channel.shut_eq]
  exact ⟨rfl, rfl, rfl, rfl, rfl⟩

theorem Channel.sameData_stand (st : ChState) : c.SameData (c.stand st now) := by
  rw [Channel.stand_eq, Channel.shut_eq]
  exact ⟨rfl, rfl, rfl, rfl, rfl⟩

theorem Channel.sameData_halt (st : ChState) : c.SameData (c.halt st now) := by
  rw [Channel.halt_eq, Channel.stand_eq, Channel.shut_eq]
  exact ⟨rfl, rfl, rfl, rfl, rfl⟩

theorem Channel.sameData_toHold : c.SameData (c.toHold r now) := by
  rw [Channel.toHold_eq, Channel.shut_eq]
  exact ⟨rfl, rfl, rfl, rfl, rfl⟩

theorem Channel.sameData_toRetract (b : Bool) : c.SameData (c.toRetract r now b) := by
  rw [Channel.toRetract_eq]
  obtain ⟨climbed, target, x, valid, peak⟩ := Channel.sameData_shut (now := now) (c := c)
  dsimp only
  split <;> exact ⟨climbed, target, x, valid, peak⟩

theorem Channel.shut_startPending : (c.shut now).startPending = c.startPending := by
  rw [Channel.shut_eq]

theorem Channel.stand_startPending (st : ChState) : (c.stand st now).startPending = c.startPending := by
  rw [Channel.stand_eq, Channel.shut_eq]

theorem Channel.toHold_startPending : (c.toHold r now).startPending = c.startPending := by
  rw [Channel.toHold_eq, Channel.shut_eq]

theorem Channel.toRetract_startPending (b : Bool) : (c.toRetract r now b).startPending = c.startPending := by
  rw [Channel.toRetract_eq]
  dsimp only
  split <;> exact Channel.shut_startPending

/-- A change of state that starts no stroke before its time and keeps a start pending only at REST or in
RETRACT. -/
theorem ChannelCore.moved (h : ChannelCore done c) (e : c.SameData d)
    (hp : d.startPending = true → c.startPending = true ∧ (d.state = .rest ∨ d.state = .retract))
    (hs : ¬done → d.state ≠ .extend ∧ d.state ≠ .hold) : ChannelCore done d := by
  obtain ⟨⟨climbed, target, peak, x, valid, pending⟩, early⟩ := h
  refine ⟨⟨e.climbed ▸ climbed, e.target ▸ target, e.peak ▸ peak, e.x ▸ x, ?_, fun k => ⟨(hp k).2, ?_⟩⟩, fun k => ?_⟩
  · rw [e.valid, e.x]
    exact valid
  · rw [e.target]
    exact (pending (hp k).1).2
  · refine ⟨(hs k).1, (hs k).2, Bool.eq_false_iff.mpr fun q => ?_⟩
    rw [(early k).2.2] at hp
    exact absurd (hp q).1 nofun

theorem ChannelCore.halt (h : ChannelCore done c) {st : ChState} (he : st ≠ .extend) (hh : st ≠ .hold) :
    ChannelCore done (c.halt st now) :=
  h.moved (Channel.sameData_halt st) nofun fun _ => ⟨he, hh⟩

theorem ChannelCore.standRest (h : ChannelCore done c) : ChannelCore done (c.stand .rest now) :=
  h.moved (Channel.sameData_stand .rest) (fun k => ⟨Channel.stand_startPending .rest ▸ k, .inl rfl⟩)
    fun _ => ⟨nofun, nofun⟩

theorem ChannelCore.toRetract (h : ChannelCore done c) (b : Bool) : ChannelCore done (c.toRetract r now b) := by
  have state := Channel.toRetract_state (r := r) (now := now) (c := c) b
  refine h.moved (Channel.sameData_toRetract b)
    (fun k => ⟨Channel.toRetract_startPending b ▸ k, .inr state⟩) fun _ => ?_
  rw [state]
  exact ⟨nofun, nofun⟩

/-- A stroke under way shows that the join is done. -/
theorem ChannelCore.done_of_inStroke (h : ChannelCore done c) (hs : c.inStroke = true) : done := by
  by_contra k
  obtain ⟨he, hh, -⟩ := h.2 k
  simp [Channel.inStroke, he, hh] at hs

theorem ChannelCore.done_of_pending (h : ChannelCore done c) (hs : c.startPending = true) : done := by
  by_contra k
  rw [(h.2 k).2.2] at hs
  cases hs

/-- A stroke ends in HOLD; no start is pending in a stroke. -/
theorem ChannelCore.toHold (h : ChannelCore done c) (hs : c.state = .extend) :
    ChannelCore done (c.toHold r now) := by
  have stroked : done := h.done_of_inStroke (by simp [Channel.inStroke, hs])
  refine h.moved Channel.sameData_toHold (fun k => ?_) fun k => absurd stroked k
  have pending : c.startPending = true := Channel.toHold_startPending ▸ k
  obtain ⟨⟨-, -, -, -, -, waits⟩, -⟩ := h
  rcases (waits pending).1 with e | e <;> rw [hs] at e <;> cases e

theorem ChannelCore.decideHome (h : ChannelCore done c) : ChannelCore done (c.decideHome r now) := by
  unfold Channel.decideHome
  split
  · exact h.toRetract true
  · split
    · exact h.toRetract false
    · exact h.standRest

/-- A change of the blind mark, the homing or the valves alone. -/
theorem ChannelCore.same (h : ChannelCore done c) (e : c.SameData d := by exact ⟨rfl, rfl, rfl, rfl, rfl⟩)
    (hs : d.state = c.state := by rfl) (hp : d.startPending = c.startPending := by rfl) :
    ChannelCore done d := by
  have same := h
  obtain ⟨⟨-, -, -, -, -, pending⟩, early⟩ := same
  refine h.moved e (fun k => ⟨hp ▸ k, hs ▸ (pending (hp ▸ k)).1⟩) fun k => ?_
  rw [hs]
  exact ⟨(early k).1, (early k).2.1⟩

theorem ChannelCore.unread (h : ChannelCore done c) : ChannelCore done { c with readingValid := false } := by
  obtain ⟨⟨climbed, target, peak, x, -, pending⟩, early⟩ := h
  exact ⟨⟨climbed, target, peak, x, nofun, pending⟩, early⟩

theorem ChannelCore.takeReading (h : ChannelCore done c) {v : Nat} (hv : v ≤ 320) :
    ChannelCore done (c.takeReading v) := by
  obtain ⟨⟨climbed, target, peak, x, -, pending⟩, early⟩ := h
  refine ⟨⟨climbed, target, ?_, fun w hw => Option.some.inj hw ▸ hv, fun _ => rfl, pending⟩, early⟩
  show (if c.state = .extend ∨ c.state = .hold then max c.xPeak v else c.xPeak) ≤ 320
  split
  · exact max_le peak hv
  · exact peak

theorem ChannelCore.cut (h : ChannelCore done c) : ChannelCore done (Channel.cut r now c) := by
  have cancelled : ChannelCore done { c with startPending := false } :=
    ChannelCore.moved h ⟨rfl, rfl, rfl, rfl, rfl⟩ nofun fun k => ⟨(h.2 k).1, (h.2 k).2.1⟩
  unfold Channel.cut
  dsimp only
  split
  · exact cancelled.toHold ‹_›
  · exact cancelled

theorem ChannelCore.startDue (h : ChannelCore done c) (hp : c.startPending = true) :
    ChannelCore done (c.startDue r now) := by
  have stroked := h.done_of_pending hp
  unfold Channel.startDue
  split
  · exact h.halt nofun nofun
  · split
    · exact h.moved ⟨rfl, rfl, rfl, rfl, rfl⟩ nofun fun k => absurd stroked k
    · obtain ⟨⟨climbed, target, -, x, valid, -⟩, -⟩ := h
      have peak : c.x.getD 0 ≤ 320 := by
        cases hx : c.x with
        | none => exact Nat.zero_le _
        | some v => exact x v hx
      rw [Channel.toExtend_eq]
      dsimp only
      split <;> exact ⟨⟨climbed, target, peak, x, valid, nofun⟩, fun k => absurd stroked k⟩

theorem ChannelCore.leaveFault (h : ChannelCore done c) (inhibit reduced : Bool) :
    ChannelCore done (c.leaveFault r now inhibit reduced) := by
  unfold Channel.leaveFault
  split
  · exact h.halt nofun nofun
  · split
    · exact h.halt nofun nofun
    · have fault : ChannelCore done (c.halt .fault now) := h.halt nofun nofun
      split
      · exact fault
      · split
        · exact fault.toRetract false
        · exact h.halt nofun nofun

theorem ChannelCore.actOnValid (h : ChannelCore done c) (reduced : Bool) (v : Nat) :
    ChannelCore done (c.actOnValid r now reduced v) := by
  unfold Channel.actOnValid
  split
  · split
    · exact h.toHold ‹_›
    · exact h
  · split
    · exact h.standRest
    · exact h
  · split
    · exact h
    · split
      · exact h.toRetract false
      · exact h.same
  · exact h

theorem ChannelCore.actOnInvalid (h : ChannelCore done c) (reduced : Bool) :
    ChannelCore done (c.actOnInvalid r now reduced) := by
  unfold Channel.actOnInvalid
  split
  · split
    · split
      · exact h.same
      · exact h.toRetract true
    · exact h.halt nofun nofun
  · exact ChannelCore.same (c := c.toHold r now) (h.toHold ‹_›)
  · exact h.same
  · exact h.same
  · exact h

/-- Every operation of a command keeps the ranges. -/
theorem MovedBy.core {sweeps : Bool} {s : State} (m : MovedBy sweeps s c d) (h : ChannelCore done c) :
    ChannelCore done d := by
  cases m with
  | same => exact h
  | cut => exact h.cut
  | startDue _ hp => exact h.startDue hp
  | opened =>
    unfold Channel.openDeferred
    split <;> exact h.same
  | valid v hv => exact (h.takeReading hv).actOnValid _ v
  | invalid => exact (h.actOnInvalid _).unread
  | extended hs => exact h.toHold hs
  | held => exact h.toRetract _
  | failed => exact h.halt nofun nofun
  | freed => exact h.leaveFault _ _
  | inhibited =>
    unfold Channel.inhibit
    split
    · exact h
    · exact h.halt nofun nofun
  | released =>
    unfold Channel.release
    split
    · split
      · exact h.standRest
      · exact h.decideHome
    · exact h
  | reduced =>
    unfold Channel.reduce
    split
    · exact h
    · obtain ⟨climbed, target, x, valid, peak⟩ := Channel.sameData_shut (now := s.now) (c := c)
      exact h.moved ⟨climbed, target, x, valid, peak⟩ nofun fun _ => ⟨nofun, nofun⟩
  | recovered =>
    unfold Channel.recover
    split
    · exact h.decideHome
    · exact h

end

end Sys2Proof.Machine
end

section
/-! PROOFS. The channels' ranges and the station height through every command (R81, R87, R93, R94). -/

namespace Sys2Proof.Machine

-- In order, so that the proofs waiting on one another do not hold a stack each.
set_option Elab.async false

/-! ### The mean of the climbed heights -/

theorem meanOf_le {hs : List Nat} {m : Nat} (h : ∀ x ∈ hs, x ≤ m) : meanOf hs ≤ m := by
  have total : hs.sum ≤ hs.length * m := by
    simpa using List.sum_le_card_nsmul hs m h
  exact Nat.div_le_of_le_mul total

theorem meanOf_eq {hs : List Nat} {m : Nat} (hn : hs ≠ []) (h : ∀ x ∈ hs, x = m) : meanOf hs = m := by
  have all : hs = List.replicate hs.length m := List.eq_replicate_of_mem h
  rw [meanOf, all, List.sum_replicate, List.length_replicate, smul_eq_mul,
    Nat.mul_div_cancel_left m (List.length_pos_iff.mpr hn)]

theorem activeHeights_eq (q : PerChannel Channel) : activeHeights q
    = (Ch.all.filter fun ch => (q.get ch).isActive).map fun ch => (q.get ch).climbed := by
  have list : q.toList = Ch.all.map q.get := rfl
  rw [activeHeights, list, List.filter_map, List.map_map]
  rfl

theorem activeHeights_congr {p q : PerChannel Channel}
    (h : ∀ ch : Ch, (q.get ch).isActive = (p.get ch).isActive ∧ (q.get ch).climbed = (p.get ch).climbed) :
    activeHeights q = activeHeights p := by
  have active : (fun ch => (q.get ch).isActive) = fun ch => (p.get ch).isActive := funext fun ch => (h ch).1
  have climbed : (fun ch => (q.get ch).climbed) = fun ch => (p.get ch).climbed := funext fun ch => (h ch).2
  rw [activeHeights_eq, activeHeights_eq, active, climbed]

theorem MovedBy.climbed {sweeps : Bool} {s : State} {c d : Channel} (m : MovedBy sweeps s c d) :
    d.climbed = c.climbed := m.onward.climbed

section
variable {s : State}

/-! ### The law, and what stands of it while a join ends -/

/-- The channels' ranges with the station height. -/
abbrev Heights (s : State) : Prop :=
  (∀ ch : Ch, ChannelCore (s.join.state = .done) (s.chan ch)) ∧ HeightLaw s

/-- The height set as the mean, whatever the join unit says of it. -/
abbrev Raised (done : Prop) (ready : JoinState → Prop) (s : State) : Prop :=
  (∀ ch : Ch, ChannelCore done (s.chan ch)) ∧ s.seq.height = meanOf (activeHeights s.seq.chans)
    ∧ s.seq.height ≤ Config.heightMax ∧ s.seq.strokeCount < 65536 ∧ ready s.join.state

theorem Heights.aside {t : State} (h : Heights s) (a : Aside s t) (hc : t.seq.chans = s.seq.chans)
    (hh : t.seq.height = s.seq.height) (hk : t.seq.strokeCount = s.seq.strokeCount) : Heights t := by
  unfold Heights HeightLaw State.heightSet State.chan
  rw [a.join_state, a.join_kind, hc, hh, hk]
  exact h

theorem Raised.aside {done : Prop} {ready : JoinState → Prop} {t : State} (h : Raised done ready s) (a : Aside s t)
    (hc : t.seq.chans = s.seq.chans) (hh : t.seq.height = s.seq.height)
    (hk : t.seq.strokeCount = s.seq.strokeCount) : Raised done ready t := by
  unfold Raised State.chan
  rw [a.join_state, hc, hh, hk]
  exact h

theorem heights_enterMode (m : Mode) (h : Heights s) : Heights (enterMode m s) :=
  h.aside (aside_enterMode m s) (enterMode_chans m s) (enterMode_height m s) (enterMode_strokeCount m s)

theorem activeHeights_moved {sweeps : Bool} {q : PerChannel Channel}
    (hq : ∀ ch : Ch, MovedBy sweeps s (s.chan ch) (q.get ch)) : activeHeights q = activeHeights s.seq.chans :=
  activeHeights_congr fun ch => ⟨(hq ch).isActive, (hq ch).climbed⟩

theorem heights_moved {sweeps : Bool} {q : PerChannel Channel} (h : Heights s)
    (hq : ∀ ch : Ch, MovedBy sweeps s (s.chan ch) (q.get ch)) : Heights { s with seq.chans := q } := by
  obtain ⟨core, mean, zero, top, count⟩ := h
  refine ⟨fun ch => (hq ch).core (core ch), fun k => ?_, fun k => ⟨(zero k).1, fun ch hch => ?_⟩, top, count⟩
  · show s.seq.height = meanOf (activeHeights q)
    rw [activeHeights_moved hq]
    exact mean k
  · exact (hq ch).climbed.trans ((zero k).2 ch hch)

theorem raised_moved {done : Prop} {ready : JoinState → Prop} {sweeps : Bool} {q : PerChannel Channel}
    (h : Raised done ready s) (hq : ∀ ch : Ch, MovedBy sweeps s (s.chan ch) (q.get ch)) :
    Raised done ready { s with seq.chans := q } := by
  obtain ⟨core, mean, rest⟩ := h
  refine ⟨fun ch => (hq ch).core (core ch), ?_, rest⟩
  show s.seq.height = meanOf (activeHeights q)
  rw [activeHeights_moved hq]
  exact mean

theorem movedBy_cut (s : State) (ch : Ch) :
    MovedBy true s (s.chan ch) ((s.seq.chans.map (Channel.cut s.setup s.now)).get ch) := by
  rw [PerChannel.get_map]
  exact .cut _

theorem activeHeights_le {q : PerChannel Channel} (h : ∀ ch : Ch, (q.get ch).climbed ≤ Config.heightMax) :
    meanOf (activeHeights q) ≤ Config.heightMax := by
  refine meanOf_le fun x hx => ?_
  obtain ⟨ch, -, -, rfl⟩ := mem_activeHeights.mp hx
  exact h ch

theorem ChannelCore.credited {done : Prop} {r : SetupRecord} {c : Channel} (h : ChannelCore done c) :
    ChannelCore done (c.credited r) := by
  obtain ⟨⟨-, target, peak, x, valid, pending⟩, early⟩ := h
  exact ⟨⟨Nat.min_le_left _ _, target, peak, x, valid, pending⟩, early⟩

/-- A credit works the height as the mean (R93, R94). -/
theorem heights_credited (c : Ch) (h : Heights s) (hd : s.join.state = .done) :
    Heights (keepChange true (creditHeight c s)) := by
  obtain ⟨core, -, -, -, count⟩ := h
  have credited : ∀ ch : Ch, ChannelCore (s.join.state = .done)
      ((updateCh c (Channel.credited s.setup) s).chan ch) := by
    intro ch
    rw [updateCh_chan]
    split
    · rename_i e
      subst e
      exact (core ch).credited
    · exact core ch
  have set : s.heightSet = true := by
    rw [State.heightSet, hd]
    exact Bool.or_true _
  exact ⟨credited, fun _ => rfl, fun k => absurd (set.symm.trans k) nofun,
    activeHeights_le fun ch => (credited ch).1.1, count⟩

theorem channelTarget_le (r : SetupRecord) (height rise : Nat) (c : Channel) :
    channelTarget r height rise c ≤ 300 := by
  unfold channelTarget
  split
  · exact Nat.zero_le _
  · generalize (rise : Int) + _ = v
    simp only [clampInt, Config.targetTop]
    omega

/-- The targets of a plan event (R41, R87); it is raised once the join is done. -/
theorem heights_planned (b : Bool) (h : Heights s) (hr : allAtRest s = true) (hd : s.join.state = .done) :
    Heights (keepChange b (planned s)) := by
  obtain ⟨core, mean, zero, top, count⟩ := h
  have taken : ∀ (ch : Ch) (t : Nat), t ≤ 300 → ChannelCore (s.join.state = .done) ((s.chan ch).takeTarget t)
      ∧ ((s.chan ch).takeTarget t).isActive = (s.chan ch).isActive
      ∧ ((s.chan ch).takeTarget t).climbed = (s.chan ch).climbed := by
    intro ch t ht
    unfold Channel.takeTarget
    split
    · exact ⟨core ch, rfl, rfl⟩
    · rename_i hoff
      obtain ⟨⟨climbed, -, peak, x, valid, -⟩, -⟩ := core ch
      have rest : (s.chan ch).state = .rest := by
        have all := List.all_eq_true.mp hr (s.chan ch) (PerChannel.mem_toList.mpr ⟨ch, Ch.mem_all ch, rfl⟩)
        simp [Channel.isActive, hoff] at all
        exact all.1
      exact ⟨⟨⟨climbed, ht, peak, x, valid, fun k => ⟨.inl rest, of_decide_eq_true k⟩⟩, fun k => absurd hd k⟩, rfl, rfl⟩
  have targets : ∀ ch : Ch, (planOf (ramped s)).targets.get ch ≤ 300 := by
    intro ch
    show ((s.seq.chans.map _).get ch) ≤ 300
    rw [PerChannel.get_map]
    exact channelTarget_le _ _ _ _
  have still : activeHeights (keepChange b (planned s)).seq.chans = activeHeights s.seq.chans := by
    refine activeHeights_congr fun ch => ?_
    show ((PerChannel.ofFn _ : PerChannel Channel).get ch).isActive = _ ∧ ((PerChannel.ofFn _ : PerChannel Channel).get ch).climbed = _
    rw [PerChannel.get_ofFn]
    exact (taken ch _ (targets ch)).2
  refine ⟨fun ch => ?_, fun k => ?_, fun k => ⟨(zero k).1, fun ch hch => ?_⟩, top, ?_⟩
  · show ChannelCore _ ((PerChannel.ofFn _ : PerChannel Channel).get ch)
    rw [PerChannel.get_ofFn]
    exact (taken ch _ (targets ch)).1
  · rw [still]
    exact mean k
  · show ((PerChannel.ofFn _ : PerChannel Channel).get ch).climbed = 0
    rw [PerChannel.get_ofFn]
    exact (taken ch _ (targets ch)).2.2.trans ((zero k).2 ch hch)
  · show (if _ then (s.seq.strokeCount + 1) % 65536 else s.seq.strokeCount) < 65536
    split
    · exact Nat.mod_lt _ (by decide)
    · exact count

theorem movedParts_heights : MovedParts Heights False true (· = .done) where
  moved _ _ h hq := heights_moved h hq
  credited c _ h hd := heights_credited c h hd
  planned hf := hf.elim

theorem latchParts_heights : LatchParts Heights where
  enter m _ h _ _ := heights_enterMode m h
  cut s h := heights_moved h (movedBy_cut s)

theorem moves_heights : Moves Heights fun _ => true := latchParts_heights.moves

theorem latchParts_raised (done : Prop) (ready : JoinState → Prop) : LatchParts (Raised done ready) where
  enter m s h _ _ := h.aside (aside_enterMode m s) (enterMode_chans m s) (enterMode_height m s) (enterMode_strokeCount m s)
  cut s h := raised_moved h (movedBy_cut s)

end

end Sys2Proof.Machine
end

section
/-! PROOFS. The channels' ranges and the station height through setup, the join and the resets (R105, R169, R177,
R178), and with them every step. -/

namespace Sys2Proof.Machine

-- In order, so that the proofs waiting on one another do not hold a stack each.
set_option Elab.async false

section
variable {P Q : State → Prop} {s : State}

/-! ### Two properties at once -/

theorem Moves.and {C D : Cond → Bool} (M : Moves P C) (N : Moves Q D) :
    Moves (fun s => P s ∧ Q s) fun c => C c && D c where
  enter m s h hs hm := ⟨M.enter m s h.1 hs hm, N.enter m s h.2 hs hm⟩
  pause p s h := ⟨M.pause p s h.1, N.pause p s h.2⟩
  latch c s hc h hl := by
    obtain ⟨hC, hD⟩ := Bool.and_eq_true_iff.mp hc
    exact ⟨M.latch c s hC h.1 hl, N.latch c s hD h.2 hl⟩
  appear c s hc h hp := by
    obtain ⟨hC, hD⟩ := Bool.and_eq_true_iff.mp hc
    exact ⟨M.appear c s hC h.1 hp, N.appear c s hD h.2 hp⟩
  vanish c s hc h := by
    obtain ⟨hC, hD⟩ := Bool.and_eq_true_iff.mp hc
    exact ⟨M.vanish c s hC h.1, N.vanish c s hD h.2⟩

theorem FeedParts.and (F : FeedParts P) (G : FeedParts Q) : FeedParts fun s => P s ∧ Q s where
  ask s h hi ha := ⟨F.ask s h.1 hi ha, G.ask s h.2 hi ha⟩
  leave s h hs := ⟨F.leave s h.1 hs, G.leave s h.2 hs⟩
  close n s h hs hn := ⟨F.close n s h.1 hs hn, G.close n s h.2 hs hn⟩
  opens s h hs := ⟨F.opens s h.1 hs, G.opens s h.2 hs⟩

/-- A law that keeps with every operation but a plan event, beside one that tells what a plan event finds. -/
theorem JackKeeps.andPlan (a : JackKeeps P True) (b : JackKeeps Q False)
    (plan : ∀ s : State, P s → Q s → s.ctl.mode.climbs = true → allAtRest s = true → Q (planEvent s)) :
    JackKeeps (fun s => P s ∧ Q s) True where
  plan hp s h hm hr := ⟨a.plan hp s h.1 hm hr, plan s h.1 h.2 hm hr⟩
  hold s h hm := ⟨a.hold s h.1 hm, b.hold s h.2 hm⟩
  bankB s h hb := ⟨a.bankB s h.1 hb, b.bankB s h.2 hb⟩
  opening ch d s h hd hn := ⟨a.opening ch d s h.1 hd hn, b.opening ch d s h.2 hd hn⟩
  read ch x s h ha := ⟨a.read ch x s h.1 ha, b.read ch x s h.2 ha⟩
  extendEnd ch s h hs := ⟨a.extendEnd ch s h.1 hs, b.extendEnd ch s h.2 hs⟩
  holdEnd ch s h hs := ⟨a.holdEnd ch s h.1 hs, b.holdEnd ch s h.2 hs⟩
  retractEnd ch s h hs := ⟨a.retractEnd ch s h.1 hs, b.retractEnd ch s h.2 hs⟩
  blindHeld ch s h hs := ⟨a.blindHeld ch s h.1 hs, b.blindHeld ch s h.2 hs⟩
  blindFree ch s h hs := ⟨a.blindFree ch s h.1 hs, b.blindFree ch s h.2 hs⟩
  inhibitOn s h hi := ⟨a.inhibitOn s h.1 hi, b.inhibitOn s h.2 hi⟩
  inhibitOff s h hi := ⟨a.inhibitOff s h.1 hi, b.inhibitOff s h.2 hi⟩

/-! ### The base -/

/-- The ground and the peer table, which the end of a join reads. -/
abbrev Based (s : State) : Prop := Ground s ∧ Table s

theorem Sound.based (h : Sound s) : Based s := ⟨h.ground, h.peers⟩

theorem moves_based : Moves Based fun c => c != .duplicateNumber := moves_ground.and moves_table

theorem feedParts_based : FeedParts Based := FeedParts.and (P := Ground) (Q := Table) {} {}

/-- A law beside the base through the receivers of an arrival and a sweep (R127, R131). -/
theorem Moves.basedPeers {C : Cond → Bool} (M : Moves Q C) (F : FeedParts Q)
    (join : ∀ s : State, Based s → Q s → s.join.state = .waitingForLink → Q (decideJoin s))
    (records : ∀ (ps : List Peer) (s : State), Q s → Q { s with peers.records := ps } := by
      exact fun _ _ h => h)
    (heard : ∀ (n : Nat) (b : Bool) (s : State), Q s →
      Q { s with peers.dupMiss := n, peers.dupHeard := b } := by exact fun _ _ _ h => h)
    (report : ∀ (d : Timer) (s : State), Q s →
      Q (requestReport .periodic { s with line.reportTimer := d }) := by exact fun _ _ h => h)
    (hd : C .duplicateNumber = true := by rfl) (hn : C .neighbourLost = true := by rfl)
    (hp : C .peerSilent = true := by rfl) (ht : C .tilt = true := by rfl) :
    PeerKeeps fun s => Based s ∧ Q s where
  duplicate s h := ⟨keeps_table.peers.duplicate s h.1, M.duplicate h.2 (fun t k => heard 0 true t k) hd⟩
  arrival n p r s h hr := by
    obtain ⟨⟨ground, table⟩, law⟩ := h
    exact (moves_based.and M).handArrival n
      ⟨⟨ground, table_enterReport (decodeReport_entered hr) table⟩, records _ s law⟩
      (fun _ => (feedParts_based.and F).arrival)
      (fun t k hw => ⟨⟨ground_decideJoin k.1.1 (.inr hw), joinParts_table.decide moves_table k.1.2⟩,
        join t k.1 k.2 hw⟩) (by simp [hn]) (by simp [hp]) (by simp [ht])
  sweep s h := by
    obtain ⟨⟨ground, table⟩, law⟩ := h
    have limit := missLimit_le ground.2.2.1.inRange
    refine (moves_based.and M).ageSweep ⟨⟨moves_ground.ageDuplicate ground,
        table_ageDuplicate limit (table_age limit table)⟩, ?_⟩
      (fun _ => (feedParts_based.and F).admitIfSettled)
      (fun t k hw => ⟨⟨ground_decideJoin k.1.1 (.inr hw), joinParts_table.decide moves_table k.1.2⟩,
        join t k.1 k.2 hw⟩) (by simp [hn]) (by simp [hp])
    exact M.ageDuplicate (records _ _ (report _ s law)) (fun t k => heard t.peers.dupMiss false t k)
      (fun t k => heard _ t.peers.dupHeard t k) hd

/-- An available neighbour's record is one of the table (R135). -/
theorem mem_records_of_available {p : Peer} (h : p ∈ availablePeers s) : p ∈ s.peers.records := by
  obtain ⟨n, -, hn⟩ := List.mem_filterMap.mp h
  exact List.mem_of_find?_eq_some hn

theorem adoptedHeight_le (h : Table s) : adoptedHeight s ≤ Config.heightMax := by
  obtain ⟨-, ranges, -⟩ := h
  refine meanOf_le fun x hx => ?_
  obtain ⟨p, hp, hx⟩ := List.mem_filterMap.mp hx
  obtain ⟨-, -, -, -, -, height, -⟩ := ranges p (mem_records_of_available hp)
  exact height x hx

/-- A station in JOINING holds a committed record. -/
theorem Joining.committed (h : Joining .joining s) :
    ∃ r, s.join.committed = some r ∧ GoodRecord s.join.ownNumber r := by
  obtain ⟨-, ⟨-, committed, -, state, -, -, -, -, -, joining, -⟩, ⟨-, good⟩, -⟩ := h
  rw [← state, joinState_ne_none joining] at committed
  obtain ⟨r, hr⟩ := Option.isSome_iff_exists.mp committed
  exact ⟨r, hr, good r hr⟩

theorem Joining.active (h : Joining .joining s) : ∃ ch : Ch, (s.chan ch).isActive = true := by
  obtain ⟨r, hr, inRange, -⟩ := h.committed
  obtain ⟨ch, -, hch⟩ := exists_active inRange
  obtain ⟨-, -, -, active, -⟩ := h
  exact ⟨ch, by rw [active, hr, Option.any_some, hch]⟩

theorem Joining.early {m : Mode} (h : Joining m s) (hm : m.retainable = false) : s.join.state ≠ .done := by
  obtain ⟨-, ⟨-, -, -, -, -, -, -, -, -, -, retain, -⟩, -⟩ := h
  intro e
  rw [hm, e] at retain
  cases retain

theorem Ground.done_of_takesCommands (h : Ground s) (hm : s.effectiveMode.takesCommands = true) :
    s.join.state = .done := by
  obtain ⟨-, ⟨-, -, -, -, -, -, -, -, -, -, retain, -⟩, -⟩ := h
  have retained : s.effectiveMode.retainable = true := by
    revert hm
    cases s.effectiveMode <;> decide
  rw [retained] at retain
  exact beq_iff_eq.mp retain.symm

theorem Ground.kind_of_setup (h : Ground s) (he : s.effectiveMode = .setup) : s.join.kind = .none := by
  have stage := h.stage_of_setup he
  obtain ⟨-, ⟨-, -, kind, -⟩, -⟩ := h
  have none : (s.join.kind != .none) = false := by
    rw [kind]
    rcases stage with e | e <;> rw [e] <;> decide
  exact (bne_eq_false_iff_eq).mp none

theorem Ground.state_of_setup (h : Ground s) (he : s.effectiveMode = .setup) : s.join.state = .none := by
  have stage := h.stage_of_setup he
  obtain ⟨-, ⟨-, -, -, state, -⟩, -⟩ := h
  have none : (s.join.state != .none) = false := by
    rw [state]
    rcases stage with e | e <;> rw [e] <;> decide
  exact (bne_eq_false_iff_eq).mp none

/-! ### The end of a join -/

/-- The heights set together are their own mean (R177, R178). -/
theorem raised_setHeights {h : Nat} (hh : h ≤ Config.heightMax)
    (core : ∀ ch : Ch, ChannelCore False (s.chan ch)) (active : ∃ ch : Ch, (s.chan ch).isActive = true)
    (count : s.seq.strokeCount < 65536) : Raised False (fun _ => True) (setHeights h s) := by
  refine ⟨fun ch => ?_, ?_, hh, count, trivial⟩
  · rw [setHeights_chan]
    split
    · obtain ⟨⟨-, target, peak, x, valid, pending⟩, early⟩ := core ch
      exact ⟨⟨hh, target, peak, x, valid, pending⟩, early⟩
    · exact core ch
  · have chan : ∀ ch : Ch, (setHeights h s).seq.chans.get ch = _ := setHeights_chan h s
    refine (meanOf_eq ?_ fun x hx => ?_).symm
    · obtain ⟨ch, hch⟩ := active
      refine List.ne_nil_of_mem (mem_activeHeights.mpr ⟨ch, Ch.mem_all ch, ?_, rfl⟩)
      exact (setHeights_isActive h s ch).trans hch
    · obtain ⟨ch, -, hch, rfl⟩ := mem_activeHeights.mp hx
      have was : (s.chan ch).isActive = true := (setHeights_isActive h s ch).symm.trans hch
      rw [chan, if_pos was]
      rfl

theorem ChannelCore.mono {a b : Prop} {c : Channel} (h : ChannelCore a c) (hb : ¬b → ¬a) : ChannelCore b c :=
  ⟨h.1, fun k => h.2 (hb k)⟩

theorem Raised.heights (h : Raised True (· = .done) s) : Heights s := by
  obtain ⟨core, mean, top, count, done⟩ := h
  refine ⟨fun ch => (core ch).mono fun k => absurd done k, fun _ => mean, fun k => ?_, top, count⟩
  rw [State.heightSet, done] at k
  exact absurd k (by simp)

theorem joinPhases_heights :
    JoinPhases (fun s => Joining .joining s ∧ Table s ∧ Heights s) (Raised False fun _ => True)
      (Raised True (· = .done)) Heights where
  wait s h := by
    obtain ⟨joining, -, core, mean, zero, top, count⟩ := h
    have early := joining.early rfl
    refine ⟨fun ch => (core ch).mono fun _ => early, fun k => mean ?_, fun k => zero ?_, top, count⟩
    · simpa [State.heightSet] using .inl (by simpa [State.heightSet] using k)
    · rw [State.heightSet, beq_eq_false_iff_ne.mpr early, Bool.or_false]
      simpa [State.heightSet] using k
  fresh s h := by
    obtain ⟨joining, -, core, -, -, -, count⟩ := h
    obtain ⟨r, hr, inRange, -⟩ := joining.committed
    have inForce : recordInRange s.setup = true := by rw [State.setup, hr]; exact inRange
    obtain ⟨cores, mean, top, -⟩ := raised_setHeights (programStart_le inForce)
      (fun ch => (core ch).mono fun _ => joining.early rfl) joining.active count
    exact ⟨cores, mean, top, Nat.zero_lt_succ _, trivial⟩
  adopt s h _ := by
    obtain ⟨joining, table, core, -, -, -, count⟩ := h
    obtain ⟨st, e⟩ := adoptStack_eq (adoptedHeight s) (adoptedMaturity s) (setHeights (adoptedHeight s) s)
    rw [e]
    exact raised_setHeights (adoptedHeight_le table) (fun ch => (core ch).mono fun _ => joining.early rfl)
      joining.active count
  restore s h hk := by
    obtain ⟨joining, -, core, mean, -, top, count⟩ := h
    refine ⟨fun ch => (core ch).mono fun _ => joining.early rfl, mean ?_, top, count, trivial⟩
    rw [State.heightSet, hk]
    rfl
  arm s h := by
    obtain ⟨core, mean, top, count, -⟩ := h
    exact ⟨fun ch => (core ch).mono fun k => absurd trivial k, mean, top, count, rfl⟩
  entry c _ := (latchParts_raised True (· = .done)).latch c
  leave m _ _ h _ _ := heights_enterMode m h.heights
  back m p s h _ _ := h.heights

theorem ChannelCore.committed {c : Channel} (h : ChannelCore False c) (inhibit : Bool) :
    ChannelCore False (commitChannel inhibit c) := by
  have pending := (h.2 id).2.2
  unfold commitChannel
  split
  · refine ChannelCore.moved h (d := { c with state := .inhibited }) ⟨rfl, rfl, rfl, rfl, rfl⟩ ?_ fun _ => ⟨nofun, nofun⟩
    exact fun k => absurd (pending.symm.trans k) nofun
  · refine ChannelCore.moved h (d := { c with state := .rest, homing := .atCommit }) ⟨rfl, rfl, rfl, rfl, rfl⟩ ?_
      fun _ => ⟨nofun, nofun⟩
    exact fun k => absurd (pending.symm.trans k) nofun

/-- A record comes into force over a station that has climbed nothing (R105, R169). -/
theorem heights_bringIntoForce (core : ∀ ch : Ch, ChannelCore False (s.chan ch))
    (climbed : ∀ ch : Ch, (s.chan ch).climbed = 0) (height : s.seq.height = 0) (count : s.seq.strokeCount < 65536)
    (unset : s.heightSet = false) : Heights (bringIntoForce s) := by
  have brought : ∀ ch : Ch, ChannelCore False ((bringIntoForce s).chan ch)
      ∧ ((bringIntoForce s).chan ch).climbed = 0 := by
    intro ch
    show ChannelCore False ((PerChannel.ofFn _ : PerChannel Channel).get ch)
      ∧ ((PerChannel.ofFn _ : PerChannel Channel).get ch).climbed = 0
    rw [PerChannel.get_ofFn]
    split
    · refine ⟨(core ch).committed _, ?_⟩
      unfold commitChannel
      split <;> exact climbed ch
    · exact ⟨core ch, climbed ch⟩
  have zero : (bringIntoForce s).seq.height = 0 := height
  exact ⟨fun ch => (brought ch).1.mono fun _ => id, fun k => absurd (unset.symm.trans k) nofun,
    fun _ => ⟨zero, fun ch _ => (brought ch).2⟩, zero.le.trans (Nat.zero_le _), count⟩

/-- The station has climbed nothing before the commit, and the commit sets no height (R169). -/
theorem heights_goodCommit (h : Ground s) (hm : s.ctl.mode = .setup) (k : Heights s) : Heights (goodCommit s) := by
  have he := effectiveMode_of_setup hm
  have a := aside_enterMode .joining (takeCommit s)
  have early : s.join.state ≠ .done := by rw [h.state_of_setup he]; decide
  obtain ⟨core, -, zero, -, count⟩ := k
  have unset : s.heightSet = false := by rw [State.heightSet, h.kind_of_setup he, h.state_of_setup he]; rfl
  obtain ⟨height, climbed⟩ := zero unset
  have chan : ∀ ch : Ch, (enterMode .joining (takeCommit s)).chan ch = s.chan ch := fun ch => by
    rw [State.chan, enterMode_chans]
    rfl
  have listening : (enterMode .joining (takeCommit s)).heightSet = false := by
    rw [State.heightSet, a.join_kind, a.join_state]
    rfl
  refine moves_heights.judgePeers (heights_bringIntoForce ?_ ?_ ?_ ?_ listening)
  · exact fun ch => chan ch ▸ (core ch).mono fun _ => early
  · exact fun ch => chan ch ▸ climbed ch (Ch.mem_all ch)
  · exact (enterMode_height _ _).trans height
  · exact (enterMode_strokeCount _ _).trans_lt count

theorem heights_decideJoin (h : Based s) (k : Heights s)
    (hs : s.join.state = .listening ∨ s.join.state = .waitingForLink) : Heights (decideJoin s) :=
  joinPhases_heights.decide (latchParts_raised False fun _ => True).moves moves_heights ⟨h.1.joining hs, h.2, k⟩

theorem heights_planEvent (h : Ground s) (k : Heights s) (hm : s.ctl.mode.climbs = true) (hr : allAtRest s = true) :
    Heights (planEvent s) := by
  have takes := Mode.takesCommands_of_climbs hm
  have done := h.done_of_takesCommands (effectiveMode_of_takesCommands takes ▸ takes)
  rw [planEvent_eq]
  exact startStrokes_keeps (fun _ _ => movedParts_heights.startBank _) (heights_planned _ k hr done)

/-- A stroke is under way only once the join is done (R3). -/
theorem Heights.done_of_inStroke (h : Heights s) {ch : Ch} (hs : (s.chan ch).inStroke = true) : s.join.state = .done :=
  (h.1 ch).done_of_inStroke hs

theorem keeps_heights : Keeps fun s => Based s ∧ Heights s :=
  have F : FeedParts Heights := {}
  have M := moves_heights
  have H := movedParts_heights
  have G := keeps_table
  { steer := G.steer.and M.steering
    jacks := G.jacks.andPlan (H.jacks M (stroking := fun _ _ h k => h.done_of_inStroke k))
      fun _ h k hm hr => heights_planEvent h.1 k hm hr
    concrete := G.concrete.and (F.concrete M)
    line := G.line.and M.line
    peers := M.basedPeers F fun _ h k hw => heights_decideJoin h k (.inr hw)
    setup :=
      { stage := fun id v s h hm hid => ⟨G.setup.stage id v s h.1 hm hid, h.2⟩
        refuseCommit := fun c s h hm => ⟨G.setup.refuseCommit c s h.1 hm, h.2⟩
        commit := fun c s h hm hc => ⟨G.setup.commit c s h.1 hm hc, heights_goodCommit h.1.1 hm h.2⟩
        request := fun s h ht => ⟨G.setup.request s h.1 ht, h.2⟩
        window := fun s h ht => ⟨G.setup.window s h.1 ht,
          lockStation_keeps (P := Heights) h.2 fun _ => heights_enterMode .locked h.2⟩
        listen := fun s h ht => ⟨G.setup.listen s h.1 ht, heights_decideJoin h.1 h.2 (.inl (h.1.1.listening ht))⟩ }
    guards := G.guards.and (M.guards (free := fun b _ k => H.free b k))
    supply := G.supply.and (F.supply M H (fun m s h _ _ => heights_enterMode m h)
      (stroking := fun _ _ h k => h.done_of_inStroke k)) }

theorem channelCore_afterReset {h : Nat} (hh : h ≤ Config.heightMax) (done : Prop) (inhibit active : Bool) :
    ChannelCore done (restoreChannel inhibit active h) := by
  cases active <;> cases inhibit <;>
    exact ⟨⟨hh, Nat.zero_le _, Nat.zero_le _, nofun, nofun, nofun⟩, fun _ => ⟨nofun, nofun, rfl⟩⟩

/-- A station that a reset leaves with nothing climbed. -/
theorem heights_of_cleared (hc : ∀ ch : Ch, s.chan ch = Channel.afterReset) (hh : s.seq.height = 0)
    (hk : s.seq.strokeCount = 0) (hu : s.heightSet = false) : Heights s := by
  refine ⟨fun ch => ?_, fun k => absurd (hu.symm.trans k) nofun, fun _ => ⟨hh, fun ch _ => ?_⟩, hh ▸ Nat.zero_le _,
    hk ▸ Nat.zero_lt_succ _⟩
  · rw [hc]
    exact channelCore_afterReset (Nat.zero_le _) _ false false
  · rw [hc]
    rfl

theorem heights_restored {strap : BitVec 6} {inhibit : Bool} {a b : Option Image} {k : Kept} {t : State}
    (h : Restored strap inhibit a b k s t) (hk : ∀ ch : Ch, k.climbed.get ch ≤ Config.heightMax)
    (hc : k.strokeCount < 65536) : Heights t := by
  have core : ∀ (done : Prop) (ch : Ch), ChannelCore done (t.chan ch) := fun done ch => by
    rw [h.chan]
    exact channelCore_afterReset (hk ch) done inhibit _
  have mean : t.seq.height = meanOf (activeHeights t.seq.chans) ∧ t.heightSet = true
      ∧ t.seq.strokeCount = k.strokeCount := by
    obtain ⟨⟨p, q, rfl⟩, -⟩ := h
    exact ⟨rfl, rfl, rfl⟩
  obtain ⟨mean, set, count⟩ := mean
  refine ⟨core _, fun _ => mean, fun k => absurd (set.symm.trans k) nofun, ?_, count ▸ hc⟩
  rw [mean]
  exact activeHeights_le fun ch => (core True ch).1.1

theorem heights_step {t : State} (hs : Sound s) (he : step s = .next t) : Heights t := by
  have law : Based s ∧ Heights s :=
    ⟨hs.based, fun ch => by
      obtain ⟨-, ranges, early, -⟩ := hs.channels ch (Ch.mem_all ch)
      exact ⟨ranges, early⟩, hs.height⟩
  refine step_keeps keeps_heights he (fun _ => law) (fun v _ k => settled_keeps v k.2)
    (passTime_keeps law.2) ?_ ?_ ?_
  · exact fun _ _ _ _ _ _ _ => heights_of_cleared (fun ch => by cases ch <;> rfl) rfl rfl rfl
  · exact fun _ _ _ _ => heights_of_cleared (fun ch => by cases ch <;> rfl) rfl rfl rfl
  · intro strap inhibit cut a b image q _ _ hu _
    obtain ⟨-, -, -, -, climbed, count, -⟩ := hs.kept hu
    exact heights_restored restored_restoreCourse
      (fun ch => climbed _ (PerChannel.mem_toList.mpr ⟨ch, Ch.mem_all ch, rfl⟩)) count

end

end Sys2Proof.Machine
end

section
/-! PROOFS. What REDUCED and the inhibit input bar to a channel (R99 to R102), and with it the order of the
channels. -/

namespace Sys2Proof.Machine

-- In order, so that the proofs waiting on one another do not hold a stack each.
set_option Elab.async false

/-! ### One channel -/

/-- No motion and no start in REDUCED (R101); INHIBITED exactly while the input is asserted unless in FAULT
(R99). -/
abbrev Permitted (reduced inhibit : Bool) (c : Channel) : Prop :=
  (reduced = true → c.moving = false ∧ c.startPending = false)
    ∧ (inhibit = true → c.state = .off ∨ c.state = .fault ∨ c.state = .inhibited)
    ∧ (inhibit = false → c.state ≠ .inhibited)

section
variable {r : SetupRecord} {now : Nat} {reduced inhibit : Bool} {c d : Channel}

/-- In FAULT with no start pending a channel is barred nothing more. -/
theorem permitted_fault (hs : d.state = .fault) (hp : d.startPending = false) : Permitted reduced inhibit d := by
  refine ⟨fun _ => ⟨?_, hp⟩, fun _ => .inr (.inl hs), fun _ => ?_⟩
  · rw [Channel.moving, hs]
    rfl
  · rw [hs]
    exact nofun

theorem permitted_rest (hi : inhibit = false) (hs : d.state = .rest)
    (hp : reduced = true → d.startPending = false) : Permitted reduced inhibit d := by
  subst hi
  refine ⟨fun k => ⟨?_, hp k⟩, nofun, fun _ => ?_⟩
  · rw [Channel.moving, hs]
    rfl
  · rw [hs]
    exact nofun

theorem permitted_inhibited (hi : inhibit = true) (hs : d.state = .inhibited) (hp : d.startPending = false) :
    Permitted reduced inhibit d := by
  subst hi
  refine ⟨fun _ => ⟨?_, hp⟩, fun _ => .inr (.inr hs), nofun⟩
  rw [Channel.moving, hs]
  rfl

/-- Outside REDUCED with the input released any state but INHIBITED. -/
theorem permitted_free (hr : reduced = false) (hi : inhibit = false) (hs : d.state ≠ .inhibited) :
    Permitted reduced inhibit d := by
  subst hr hi
  exact ⟨nofun, nofun, fun _ => hs⟩

theorem Permitted.same (h : Permitted reduced inhibit c) (hs : d.state = c.state := by rfl)
    (hp : d.startPending = true → c.startPending = true := by exact fun k => k) : Permitted reduced inhibit d := by
  obtain ⟨still, asserted, released⟩ := h
  refine ⟨fun k => ⟨?_, ?_⟩, hs ▸ asserted, hs ▸ released⟩
  · rw [Channel.moving, hs]
    exact (still k).1
  · refine Bool.eq_false_iff.mpr fun q => ?_
    rw [(still k).2] at hp
    exact absurd (hp q) nofun

/-- A channel that moves or rests shows the input released. -/
theorem Permitted.released (h : Permitted reduced inhibit c)
    (hs : c.state = .rest ∨ c.state = .extend ∨ c.state = .hold ∨ c.state = .retract) : inhibit = false := by
  refine Bool.eq_false_iff.mpr fun k => ?_
  rcases h.2.1 k with e | e | e <;> rw [e] at hs <;> simp at hs

/-- A channel that moves shows that the station is not in REDUCED. -/
theorem Permitted.upright (h : Permitted reduced inhibit c)
    (hs : c.state = .extend ∨ c.state = .hold ∨ c.state = .retract) : reduced = false := by
  refine Bool.eq_false_iff.mpr fun k => ?_
  have still := (h.1 k).1
  rcases hs with e | e | e <;> rw [Channel.moving, e] at still <;> cases still

/-- A moving channel comes to any state but INHIBITED. -/
theorem Permitted.moves (h : Permitted reduced inhibit c)
    (hs : c.state = .extend ∨ c.state = .hold ∨ c.state = .retract) (hd : d.state ≠ .inhibited) :
    Permitted reduced inhibit d :=
  permitted_free (h.upright hs) (h.released (.inr hs)) hd

theorem permitted_leaveFault :
    Permitted reduced inhibit (c.leaveFault r now inhibit reduced) := by
  unfold Channel.leaveFault
  split
  · exact permitted_inhibited ‹_› rfl rfl
  · have released : inhibit = false := Bool.eq_false_iff.mpr ‹_›
    split
    · exact permitted_rest released rfl fun _ => rfl
    · split
      · exact permitted_fault rfl rfl
      · split
        · refine permitted_free (Bool.eq_false_iff.mpr ‹_›) released ?_
          rw [Channel.toRetract_state]
          exact nofun
        · exact permitted_rest released rfl fun _ => rfl

theorem Permitted.actOnValid (h : Permitted reduced inhibit c) (v : Nat) :
    Permitted reduced inhibit (c.actOnValid r now reduced v) := by
  unfold Channel.actOnValid
  split
  · split
    · exact h.moves (.inl ‹_›) nofun
    · exact h
  · split
    · exact h.moves (.inr (.inr ‹_›)) nofun
    · exact h
  · rename_i hs
    split
    · exact h
    · split
      · rename_i k
        refine permitted_free (by simpa using (Bool.and_eq_true_iff.mp k).2) (h.released (.inl hs)) ?_
        rw [Channel.toRetract_state]
        exact nofun
      · exact h.same
  · exact h

theorem Permitted.actOnInvalid (h : Permitted reduced inhibit c) :
    Permitted reduced inhibit (c.actOnInvalid r now reduced) := by
  unfold Channel.actOnInvalid
  split
  · rename_i hs
    split
    · split
      · exact h.same
      · refine permitted_free (Bool.eq_false_iff.mpr ‹_›) (h.released (.inl hs)) ?_
        rw [Channel.toRetract_state]
        exact nofun
    · exact permitted_fault rfl rfl
  · exact h.moves (.inl ‹_›) nofun
  · exact h.same
  · exact h.same
  · exact h

theorem Permitted.cut (h : Permitted reduced inhibit c) : Permitted reduced inhibit (Channel.cut r now c) := by
  unfold Channel.cut
  dsimp only
  split
  · exact h.moves (.inl ‹_›) nofun
  · exact h.same (hp := nofun)

theorem Permitted.startDue (h : Permitted reduced inhibit c) (hs : c.state = .rest) (hp : c.startPending = true) :
    Permitted reduced inhibit (c.startDue r now) := by
  have upright : reduced = false := by
    refine Bool.eq_false_iff.mpr fun k => ?_
    rw [(h.1 k).2] at hp
    cases hp
  have released := h.released (.inl hs)
  unfold Channel.startDue
  split
  · exact permitted_fault rfl rfl
  · split
    · exact h.same (hp := nofun)
    · refine permitted_free upright released ?_
      rw [Channel.toExtend_eq]
      dsimp only
      split <;> exact nofun

theorem Channel.decideHome_uninhibited : (c.decideHome r now).state ≠ .inhibited := by
  unfold Channel.decideHome
  split
  · rw [Channel.toRetract_state]
    exact nofun
  · split
    · rw [Channel.toRetract_state]
      exact nofun
    · exact nofun

/-- No operation on one channel breaks what REDUCED and the input bar to it. -/
theorem MovedBy.permitted {s : State} (m : MovedBy false s c d)
    (h : Permitted (s.ctl.mode == .reduced) s.inhibitInput c) :
    Permitted (s.ctl.mode == .reduced) s.inhibitInput d := by
  cases m with
  | same => exact h
  | cut => exact h.cut
  | startDue hs hp => exact h.startDue hs hp
  | opened =>
    unfold Channel.openDeferred
    split <;> exact h.same
  | valid v => exact Permitted.actOnValid (c := c.takeReading v) h.same v
  | invalid => exact h.actOnInvalid.same
  | extended hs => exact h.moves (.inl hs) nofun
  | held hs =>
    refine h.moves (.inr (.inl hs)) ?_
    rw [show (c.endHold s.setup s.now).state = .retract from Channel.toRetract_state _]
    exact nofun
  | failed hs => exact permitted_fault rfl rfl
  | freed => exact permitted_leaveFault
  | inhibited hw | released hw | reduced hw | recovered hw => cases hw

end

/-! ### The station -/

section
variable {s : State}

/-- Every channel keeps to what REDUCED and the inhibit input allow. -/
abbrev Barred (s : State) : Prop := ∀ ch : Ch, Permitted (s.ctl.mode == .reduced) s.inhibitInput (s.chan ch)

/-- Outside REDUCED only the inhibit input bars anything. -/
theorem barred_of_upright (hm : s.ctl.mode ≠ .reduced)
    (h : ∀ ch : Ch, Permitted false s.inhibitInput (s.chan ch)) : Barred s := by
  intro ch
  rw [beq_eq_false_iff_ne.mpr hm]
  exact h ch

theorem Permitted.awake {reduced inhibit : Bool} {c : Channel} (h : Permitted reduced inhibit c) :
    Permitted false inhibit c :=
  ⟨nofun, h.2⟩

theorem barred_enterMode {m : Mode} (hm : m ≠ .reduced) (h : ∀ ch : Ch, Permitted false s.inhibitInput (s.chan ch)) :
    Barred (enterMode m s) := by
  have shape := ModeShape.enterMode (s := s) m hm
  refine barred_of_upright (fun e => ?_) fun ch => ?_
  · obtain ⟨hreturn, -⟩ := shape
    rw [enterMode_returnMode, e] at hreturn
    cases hreturn
  · rw [(aside_enterMode m s).inhibitInput, State.chan, enterMode_chans]
    exact h ch

theorem movedParts_barred : MovedParts Barred True false where
  moved q s h hq ch := (hq ch).permitted (h ch)
  credited c s h _ ch := by
    show Permitted _ _ ((updateCh c (Channel.credited s.setup) s).chan ch)
    rw [updateCh_chan]
    split
    · rename_i e
      subst e
      exact (h ch).same
    · exact h ch
  planned _ b s h hm _ := by
    have upright : s.ctl.mode ≠ .reduced := Mode.ne_reduced_of_takesCommands (Mode.takesCommands_of_climbs hm)
    refine barred_of_upright (s := keepChange b (planned s)) upright fun ch => ?_
    show Permitted false s.inhibitInput ((PerChannel.ofFn _ : PerChannel Channel).get ch)
    rw [PerChannel.get_ofFn]
    obtain ⟨-, still⟩ := h ch
    unfold Channel.takeTarget
    split <;> exact ⟨nofun, still⟩

theorem latchParts_barred : LatchParts Barred where
  enter m _ h _ hm := barred_enterMode (Mode.ne_reduced_of_takesCommands hm) fun ch => (h ch).awake
  cut _ h := movedParts_barred.cut h

theorem moves_barred : Moves Barred fun _ => true := latchParts_barred.moves

theorem barred_setHeights (h : Nat) (k : Barred s) : Barred (setHeights h s) := by
  intro ch
  rw [setHeights_chan]
  split
  · exact (k ch).same
  · exact k ch

theorem joinParts_barred : JoinParts Barred where
  fresh _ h := barred_setHeights _ h
  adopt s h := by
    obtain ⟨st, e⟩ := adoptStack_eq (adoptedHeight s) (adoptedMaturity s) (setHeights (adoptedHeight s) s)
    rw [e]
    have raised := barred_setHeights (adoptedHeight s) h
    exact fun ch => raised ch
  leave m _ h hm _ := barred_enterMode (Mode.ne_reduced_of_takesCommands hm) fun ch => (h ch).awake

/-- The assertion takes every active channel not in FAULT to INHIBITED (R99). -/
theorem barred_inhibit (hb : Barred s) :
    Barred (updateAll (Channel.inhibit s.now) { s with inhibitInput := true }) := by
  intro ch
  show Permitted _ true ((s.seq.chans.map (Channel.inhibit s.now)).get ch)
  rw [PerChannel.get_map]
  unfold Channel.inhibit
  split
  · rename_i hs
    exact ⟨(hb ch).1, fun _ => hs, nofun⟩
  · exact permitted_inhibited rfl rfl rfl

/-- The release takes each INHIBITED channel on, in REDUCED to REST (R100). -/
theorem barred_release (hb : Barred s) :
    Barred (updateAll (Channel.release s.setup s.now (s.ctl.mode == .reduced)) { s with inhibitInput := false }) := by
  intro ch
  show Permitted (s.ctl.mode == .reduced) false
    ((s.seq.chans.map (Channel.release s.setup s.now (s.ctl.mode == .reduced))).get ch)
  rw [PerChannel.get_map]
  obtain ⟨still, -, -⟩ := hb ch
  unfold Channel.release
  split
  · split
    · exact permitted_rest rfl rfl fun k => (Channel.stand_startPending .rest).trans (still k).2
    · refine permitted_free (Bool.eq_false_iff.mpr ‹_›) rfl ?_
      exact Channel.decideHome_uninhibited
  · exact ⟨still, nofun, fun _ => ‹_›⟩

/-- No active channel moves at the entry to REDUCED (R101). -/
theorem ChannelCore.reduce_permitted {done : Prop} {now : Nat} {reduced inhibit : Bool} {c : Channel}
    (h : ChannelCore done c) (hb : Permitted false inhibit c) : Permitted reduced inhibit (c.reduce now) := by
  obtain ⟨-, asserted, released⟩ := hb
  obtain ⟨⟨-, -, -, -, -, pending⟩, -⟩ := h
  unfold Channel.reduce
  split
  · rename_i hs
    refine ⟨fun _ => ⟨?_, Bool.eq_false_iff.mpr fun k => ?_⟩, asserted, released⟩
    · rcases hs with e | e | e <;> rw [Channel.moving, e] <;> rfl
    · have waits := (pending k).1
      rcases hs with e | e | e <;> rw [e] at waits <;> simp at waits
  · rename_i hs
    exact permitted_rest (Bool.eq_false_iff.mpr fun k => hs (asserted k)) rfl fun _ => rfl

/-- A channel that rests goes on by its last reading at the recovery (R102). -/
theorem Permitted.recover {r : SetupRecord} {now : Nat} {reduced inhibit : Bool} {c : Channel}
    (h : Permitted reduced inhibit c) : Permitted false inhibit (c.recover r now) := by
  unfold Channel.recover
  split
  · exact permitted_free rfl (h.released (.inl ‹_›)) Channel.decideHome_uninhibited
  · exact h.awake

theorem returnTo_ne_reduced (h : ModeShape s) : returnTo s ≠ .reduced := by
  obtain ⟨-, upright⟩ := h
  unfold returnTo
  dsimp only
  split
  · split <;> exact nofun
  · cases hr : s.ctl.returnMode with
    | none => exact nofun
    | some m =>
      rintro e
      exact upright (hr.trans (congrArg some e))

theorem supplyKeeps_barred : SupplyKeeps fun s => (Based s ∧ Heights s) ∧ Barred s where
  supplyLow s t h hl e := by
    refine ⟨keeps_heights.supply.supplyLow s t h.1 hl e, ?_⟩
    have heights : Heights t := e ▸ moves_heights.raise .supplyLow rfl (s := { s with sup.supplyLow := true }) h.1.2
    have barred : Barred t := e ▸ moves_barred.raise .supplyLow rfl (s := { s with sup.supplyLow := true }) h.2
    refine ite_keeps (fun _ => barred) fun _ => ?_
    have later := aside_enterReduced t
    have fallen : Heights (enterReduced t) := FeedParts.enterReduced (P := Heights) {} heights
    have awake : ∀ ch : Ch, Permitted false (enterReduced t).inhibitInput ((enterReduced t).chan ch) :=
      FeedParts.enterReduced (P := fun u => ∀ ch : Ch, Permitted false u.inhibitInput (u.chan ch)) {}
        fun ch => (barred ch).awake
    refine movedParts_barred.creditStrokes moves_barred (fun _ _ => trivial) later.join_state fun ch => ?_
    show Permitted _ _ (((enterReduced t).seq.chans.map (Channel.reduce t.now)).get ch)
    rw [PerChannel.get_map]
    exact (fallen.1 ch).reduce_permitted (awake ch)
  supplyRecovery s t h hl e := by
    refine ⟨keeps_heights.supply.supplyRecovery s t h.1 hl e, ?_⟩
    have ground : Ground t := e ▸ moves_ground.lapse .supplyLow rfl (s := { s with sup.supplyLow := false }) h.1.1.1
    have barred : Barred t := e ▸ moves_barred.lapse .supplyLow rfl (s := { s with sup.supplyLow := false }) h.2
    refine ite_keeps (fun _ => ?_) fun _ => barred
    refine barred_enterMode (returnTo_ne_reduced ground.1) fun ch => ?_
    show Permitted false t.inhibitInput ((t.seq.chans.map (Channel.recover t.setup t.now)).get ch)
    rw [PerChannel.get_map]
    exact (barred ch).recover

/-- A commit leaves its channels at REST, or INHIBITED while the input is asserted (R105). -/
theorem barred_goodCommit (h : Barred s) : Barred (goodCommit s) := by
  have joining : Barred (enterMode .joining (takeCommit s)) := barred_enterMode (by decide) fun ch => (h ch).awake
  have upright : (enterMode .joining (takeCommit s)).ctl.mode ≠ .reduced := by
    rw [enterMode_mode]
    exact nofun
  refine moves_barred.judgePeers (s := bringIntoForce _) (barred_of_upright (s := bringIntoForce _) upright fun ch => ?_)
  show Permitted false (enterMode .joining (takeCommit s)).inhibitInput ((PerChannel.ofFn _ : PerChannel Channel).get ch)
  rw [PerChannel.get_ofFn]
  split
  · unfold commitChannel
    split
    · rename_i asserted
      exact ⟨nofun, fun _ => .inr (.inr rfl), fun k => absurd (asserted.symm.trans k) (by decide)⟩
    · exact permitted_free rfl (Bool.eq_false_iff.mpr ‹_›) nofun
  · exact (joining ch).awake

theorem keeps_barred : Keeps fun s => (Based s ∧ Heights s) ∧ Barred s :=
  have F : FeedParts Barred := {}
  have M := moves_barred
  have H := movedParts_barred
  have G := keeps_heights
  have J := joinParts_barred
  { steer := G.steer.and M.steering
    jacks := G.jacks.and (H.jacksWith M (fun _ h _ => barred_inhibit h) fun _ h _ => barred_release h)
    concrete := G.concrete.and (F.concrete M)
    line := G.line.and M.line
    peers := G.peers.and (M.peers F fun _ k _ => J.decide M k)
    setup :=
      { stage := fun id v s h hm hid => ⟨G.setup.stage id v s h.1 hm hid, h.2⟩
        refuseCommit := fun c s h hm => ⟨G.setup.refuseCommit c s h.1 hm, h.2⟩
        commit := fun c s h hm hc => ⟨G.setup.commit c s h.1 hm hc, barred_goodCommit h.2⟩
        request := fun s h ht => ⟨G.setup.request s h.1 ht, h.2⟩
        window := fun s h ht => ⟨G.setup.window s h.1 ht, lockStation_keeps (P := Barred) h.2
          fun _ => barred_enterMode (by decide) fun ch => (h.2 ch).awake⟩
        listen := fun s h ht => ⟨G.setup.listen s h.1 ht, J.decide M h.2⟩ }
    guards := G.guards.and (M.guards (free := fun b _ k => H.free b k))
    supply := supplyKeeps_barred }

theorem permitted_restoreChannel (inhibit active : Bool) (h : Nat) :
    Permitted false inhibit (restoreChannel inhibit active h) := by
  cases active with
  | false => exact ⟨nofun, fun _ => .inl rfl, fun _ => nofun⟩
  | true =>
    cases inhibit with
    | false => exact permitted_rest rfl rfl fun _ => rfl
    | true => exact permitted_inhibited rfl rfl rfl

/-- A reset that restores nothing leaves every channel OFF. -/
theorem barred_of_cleared (hm : s.ctl.mode ≠ .reduced) (hc : ∀ ch : Ch, s.chan ch = Channel.afterReset) : Barred s :=
  barred_of_upright hm fun ch => by
    rw [hc]
    exact ⟨nofun, fun _ => .inl rfl, fun _ => nofun⟩

theorem barred_step {t : State} (hs : Sound s) (he : step s = .next t) : Barred t := by
  have law : (Based s ∧ Heights s) ∧ Barred s := by
    refine ⟨⟨hs.based, fun ch => ?_, hs.height⟩, fun ch => ?_⟩ <;>
      obtain ⟨-, ranges, early, still, barred⟩ := hs.channels ch (Ch.mem_all ch)
    · exact ⟨ranges, early⟩
    · exact ⟨fun k => still (beq_iff_eq.mp k), barred⟩
  refine step_keeps keeps_barred he (fun _ => law) (fun v _ k => settled_keeps v k.2)
    (passTime_keeps (P := Barred) law.2) ?_ ?_ ?_
  · exact fun _ _ _ _ _ _ _ => barred_of_cleared (by decide : Mode.locked ≠ .reduced) fun ch => by cases ch <;> rfl
  · exact fun _ _ _ _ => barred_of_cleared (by decide : Mode.setup ≠ .reduced) fun ch => by cases ch <;> rfl
  · intro strap inhibit cut a b image q _ _ hu _
    have restored := restored_restoreCourse (strap := strap) (inhibit := inhibit) (a := a) (b := b)
      (k := image.kept) (s := { s with pending := q })
    have input : (restoreCourse strap inhibit a b image.kept { s with pending := q }).inhibitInput = inhibit := by
      obtain ⟨⟨p, r, e⟩, -⟩ := restored
      rw [e]
      rfl
    refine barred_of_upright restored.quiet.upright fun ch => ?_
    rw [restored.chan, input]
    exact permitted_restoreChannel inhibit _ _

end

/-- Settles O9: the channels' ranges and the height go with the ground, what REDUCED and the inhibit input bar goes
with both. -/
theorem stepKeepsChannelsInOrder : Obligations.StepKeepsChannelsInOrder := by
  intro s t hs he
  obtain ⟨-, -, -, active⟩ := ground_step hs he
  obtain ⟨core, height⟩ := heights_step hs he
  refine ⟨fun ch _ => ?_, height⟩
  obtain ⟨ranges, early⟩ := core ch
  obtain ⟨still, barred⟩ := barred_step hs he ch
  exact ⟨active ch, ranges, early, fun k => still (beq_iff_eq.mpr k), barred⟩

end Sys2Proof.Machine
end

section
/-! PROOFS. The layer stack through every command (R47, R48, R52 to R58). -/

namespace Sys2Proof.Machine

-- In order, so that the proofs waiting on one another do not hold a stack each.
set_option Elab.async false

/-! ### The layers alone -/

section
variable {ls : List Layer} {l m : Layer}

theorem LayersOrdered.init (h : LayersOrdered (ls ++ [l])) : LayersOrdered ls := by
  obtain ⟨length, above, mature, range⟩ := h
  refine ⟨(by simp at length; omega : ls.length ≤ Config.maxLayers), ?_, ?_, ?_⟩
  · clear length mature range
    induction ls with
    | nil => rfl
    | cons k rest ih =>
      cases rest with
      | nil =>
        simp only [List.cons_append, List.nil_append, stacked, Bool.and_eq_true] at above
        exact above.1.1
      | cons j js =>
        simp only [List.cons_append, stacked, Bool.and_eq_true] at above ih ⊢
        exact ⟨above.1, ih above.2⟩
  · clear length above range
    induction ls with
    | nil => rfl
    | cons k rest ih =>
      cases rest with
      | nil => rfl
      | cons j js =>
        simp only [List.cons_append, maturing, Bool.and_eq_true] at mature ih ⊢
        exact ⟨mature.1, ih mature.2⟩
  · rw [List.all_append, Bool.and_eq_true] at range
    exact range.1

/-- The highest layer of an ordered stack stands on the one below it and is no older than it. -/
theorem LayersOrdered.last (h : LayersOrdered (ls ++ [l])) :
    l.bottom < l.top ∧ ∀ k ∈ ls.getLast?, l.bottom = k.top ∧ l.maturity ≤ k.maturity := by
  obtain ⟨-, above, mature, -⟩ := h
  induction ls with
  | nil => exact ⟨by simpa [stacked] using above, nofun⟩
  | cons k rest ih =>
    cases rest with
    | nil =>
      simp [stacked, maturing] at above mature ⊢
      exact ⟨above.2, above.1.2, mature⟩
    | cons j js =>
      simp only [List.cons_append, stacked, maturing, Bool.and_eq_true] at above mature ih ⊢
      rw [List.getLast?_cons_cons]
      exact ih above.2 mature.2

/-- A layer rewritten up to a greater top with maturity 0 keeps its place (R54). -/
theorem merge_ordered {top placed : Nat} (h : LayersOrdered (ls ++ [l])) (ht : l.top ≤ top) (hr : top ≤ 2015000)
    (hp : placed < 65536) : LayersOrdered (ls ++ [{ l with top := top, maturity := 0, placed := placed }]) := by
  obtain ⟨rises, below⟩ := h.last
  have init := h.init
  obtain ⟨length, -, -, range⟩ := h
  simp only [List.all_append, List.all_cons, List.all_nil, Bool.and_true, Bool.and_eq_true, layerInRange,
    decide_eq_true_eq] at range
  refine push_ordered init ?_ ?_ (rises.trans_le ht) (fun k hk => (below k hk).1) fun _ _ => Nat.zero_le _
  · simp at length
    omega
  · simp [layerInRange, range.2.1.1.1, hr, hp]

/-- What a push of a new highest layer keeps (R53). -/
theorem pushLayer_ordered {h top placed maturity : Nat} {adopted : Bool} {st : Stack} (ho : LayersOrdered st.layers)
    (hn : st.layers.length < Config.maxLayers) (ht : reckonBase h st.layers < top) (hr : top ≤ 2015000)
    (hp : placed < 65536) (hs : st.nextSeq < 65536) (hc : maturity ≤ Config.maturityCap)
    (hm : st.layers = [] ∨ maturity = 0) :
    LayersOrdered (pushLayer h top placed adopted maturity st).layers := by
  refine push_ordered ho hn (by simp [layerInRange, hs, hr, hp, hc]) ht (fun k hk => ?_) fun k hk => ?_
  · show reckonBase h st.layers = k.top
    rw [reckonBase, hk]
    rfl
  · rcases hm with e | e
    · rw [e] at hk
      cases hk
    · exact e.le.trans (Nat.zero_le _)

/-- The height a reckoning measures from is not below the station height. -/
theorem le_reckonBase {h : Nat} (habove : ∀ k ∈ ls, h < k.top) : h ≤ reckonBase h ls := by
  unfold reckonBase
  cases hl : ls.getLast? with
  | none => exact le_rfl
  | some k => exact (habove k (List.mem_of_getLast? hl)).le

/-- What a stack holds over a station height, whatever the join unit says of the height. -/
structure Stocked (h : Nat) (st : Stack) : Prop where
  ordered : LayersOrdered st.layers
  above : ∀ l ∈ st.layers, h < l.top
  top : ∀ t ∈ st.concreteTop, t ≤ 2015000
  seq : st.nextSeq < 65536

theorem Stocked.removed {h : Nat} {st : Stack} (k : Stocked h st) (g : Nat) :
    Stocked g { st with layers := removeBelow g st.layers } := by
  obtain ⟨ordered, -, top, seq⟩ := k
  exact ⟨removeBelow_ordered g ordered, removeBelow_above g ordered.2.1, top, seq⟩

theorem Stocked.emptied {h g : Nat} {st : Stack} (k : Stocked h st) : Stocked g { st with layers := [] } :=
  ⟨⟨Nat.zero_le _, rfl, rfl, rfl⟩, nofun, k.top, k.seq⟩

theorem Stocked.push {h top placed maturity : Nat} {adopted : Bool} {st : Stack} (k : Stocked h st)
    (hn : st.layers.length < Config.maxLayers) (ht : reckonBase h st.layers < top) (hr : top ≤ 2015000)
    (hp : placed < 65536) (hc : maturity ≤ Config.maturityCap) (hm : st.layers = [] ∨ maturity = 0) :
    Stocked h (pushLayer h top placed adopted maturity st) := by
  refine ⟨pushLayer_ordered k.ordered hn ht hr hp k.seq hc hm, fun l hl => ?_, k.top, Nat.mod_lt _ (by decide)⟩
  rcases List.mem_append.mp hl with e | e
  · exact k.above l e
  · rw [List.mem_singleton.mp e]
    exact (le_reckonBase k.above).trans_lt ht

theorem Stocked.merge {h top placed : Nat} {st : Stack} (k : Stocked h st) (hne : st.layers ≠ [])
    (ht : reckonBase h st.layers < top) (hr : top ≤ 2015000) (hp : placed < 65536) :
    Stocked h { st with layers := mergeTop top placed st.layers } := by
  obtain ⟨ordered, above, under, seq⟩ := k
  obtain ⟨init, l, e⟩ := List.eq_nil_or_concat st.layers |>.resolve_left hne
  rw [List.concat_eq_append] at e
  have base : reckonBase h st.layers = l.top := by
    rw [e, reckonBase, List.getLast?_concat]
    rfl
  rw [base] at ht
  rw [e] at ordered above
  refine ⟨?_, ?_, under, seq⟩ <;> rw [e, mergeTop_append]
  · exact merge_ordered ordered ht.le hr hp
  · intro m hm
    rcases List.mem_append.mp hm with q | q
    · exact above m (List.mem_append_left _ q)
    · rw [List.mem_singleton.mp q]
      exact (above l (by simp)).trans ht

theorem Stocked.reckon {h top placed : Nat} {r : SetupRecord} {st : Stack} (k : Stocked h st) (hr : top ≤ 2015000)
    (hp : placed < 65536) : Stocked h (Machine.reckon r h placed top st) := by
  obtain ⟨ordered, above, under, seq⟩ := k
  rcases reckon_cases r h placed top st with ⟨-, e⟩ | ⟨ht, hroom, e⟩ | ⟨ht, hne, -, e⟩ <;> rw [e]
  · exact ⟨ordered, above, under, seq⟩
  · refine Stocked.push (st := { st with reckoning := false }) ⟨ordered, above, under, seq⟩ ?_ ht hr hp
      (Nat.zero_le _) (.inr rfl)
    rcases hroom with e | e
    · show st.layers.length < _
      rw [e]
      decide
    · exact e.2
  · exact Stocked.merge (st := { st with reckoning := false }) ⟨ordered, above, under, seq⟩ hne ht hr hp

/-- A usable sample forms the concrete top and makes a pending reckoning (R50, R51). -/
theorem Stocked.sampled {depth : Nat} {s : State} (k : Stocked s.seq.height s.stack)
    (hr : s.seq.height + s.setup.formHeight ≤ 2015000) (hp : s.cure.clock < 65536) :
    Stocked s.seq.height (sampledStack depth s) := by
  have top : s.seq.height + s.setup.formHeight - depth ≤ 2015000 := (Nat.sub_le _ _).trans hr
  obtain ⟨ordered, above, -, seq⟩ := k
  have formed : Stocked s.seq.height
      { s.stack with concreteTop := some (s.seq.height + s.setup.formHeight - depth) } :=
    ⟨ordered, above, fun t ht => Option.some.inj ht ▸ top, seq⟩
  rcases sampledStack_cases depth s with ⟨-, e⟩ | ⟨-, e⟩ <;> rw [e]
  · exact formed
  · exact formed.reckon top hp

end

end Sys2Proof.Machine
end

section
/-! PROOFS. The layer stack with the station height, and with it every step (R47, R48, R50, R53 to R58, R63 to
R65). -/

namespace Sys2Proof.Machine

-- In order, so that the proofs waiting on one another do not hold a stack each.
set_option Elab.async false

section
variable {s : State}

/-! ### The law -/

/-- The stack over the station height, the clock its layers are stamped with, and nothing held before the height
is set. -/
abbrev Layered (s : State) : Prop :=
  Stocked s.seq.height s.stack ∧ s.cure.clock < 65536
    ∧ (s.heightSet = false → s.stack.layers = [] ∧ s.stack.concreteTop = none)

theorem Stocked.marked {h : Nat} {st : Stack} (k : Stocked h st) (b : Bool) :
    Stocked h { st with reckoning := b } := by
  obtain ⟨ordered, above, top, seq⟩ := k
  exact ⟨ordered, above, top, seq⟩

theorem Layered.law (h : Layered s) : StackLaw s := by
  obtain ⟨⟨ordered, above, top, seq⟩, -, unset⟩ := h
  exact ⟨ordered, above, unset, top, seq⟩

theorem Sound.layered (h : Sound s) : Layered s := by
  obtain ⟨ordered, above, unset, top, seq⟩ := h.stack
  exact ⟨⟨ordered, above, top, seq⟩, h.cure.1, unset⟩

theorem layered_closeGate (n : FeedState) (h : Layered s) : Layered (closeGate n s) :=
  ⟨h.1.marked true, h.2⟩

theorem feedParts_layered : FeedParts Layered where
  close n _ h _ _ := layered_closeGate n h

theorem layered_enterMode (m : Mode) (h : Layered s) : Layered (enterMode m s) :=
  feedParts_layered.enter (by split <;> exact h)

/-- A credit works a height that is set; the layers at or below it leave (R56). -/
theorem layered_credited (c : Ch) (h : Layered s) : Layered (keepChange true (creditHeight c s)) := by
  obtain ⟨stocked, clock, unset⟩ := h
  refine ⟨stocked.removed _, clock, fun k => ⟨?_, (unset k).2⟩⟩
  show removeBelow _ s.stack.layers = []
  rw [(unset k).1]
  rfl

theorem latchParts_layered : LatchParts Layered where
  enter m _ h _ _ := layered_enterMode m h

theorem moves_layered : Moves Layered fun _ => true := latchParts_layered.moves

/-! ### The cure and the samples -/

theorem Stocked.cured {h : Nat} {st : Stack} (k : Stocked h st) (r : Nat) :
    Stocked h { st with layers := addMaturity r st.layers } := by
  obtain ⟨ordered, above, top, seq⟩ := k
  refine ⟨addMaturity_ordered r ordered, fun l hl => ?_, top, seq⟩
  obtain ⟨m, hm, rfl⟩ := List.mem_map.mp hl
  exact above m hm

theorem layered_applyCure (h : Layered s) : Layered (applyCure s) := by
  obtain ⟨stocked, clock, unset⟩ := h
  refine ⟨stocked.cured _, clock, fun k => ⟨?_, (unset k).2⟩⟩
  show addMaturity _ s.stack.layers = []
  rw [(unset k).1]
  rfl

theorem layered_tickCure (h : Layered s) : Layered (tickCure s) :=
  ⟨h.1, Nat.mod_lt _ (by decide), h.2.2⟩

theorem SetupLaw.formHeight_le (h : SetupLaw s) : s.setup.formHeight ≤ 15000 :=
  Machine.formHeight_le h.inRange

theorem layered_stackSample (d : Nat) (hb : Based s) (hh : Heights s) (h : Layered s) (hs : s.heightSet = true) :
    Layered (stackSample d s) := by
  obtain ⟨stocked, clock, -⟩ := h
  obtain ⟨-, -, -, height, -⟩ := hh
  have form := hb.1.2.2.1.formHeight_le
  simp only [Config.heightMax] at height
  exact ⟨stocked.sampled (by omega) clock, clock, fun k => absurd (hs.symm.trans k) nofun⟩

/-! ### The end of a join -/

/-- The stack while a join ends, the height being set or not. -/
abbrev Filled (ready : JoinState → Prop) (s : State) : Prop :=
  Stocked s.seq.height s.stack ∧ s.cure.clock < 65536 ∧ ready s.join.state

theorem feedParts_filled (ready : JoinState → Prop) : FeedParts (Filled ready) where
  close _ _ h _ _ := ⟨h.1.marked true, h.2⟩

theorem latchParts_filled (ready : JoinState → Prop) : LatchParts (Filled ready) where
  enter _ _ h _ _ := (feedParts_filled ready).enter (by split <;> exact h)

theorem Filled.layered (h : Filled (· = .done) s) : Layered s := by
  obtain ⟨stocked, clock, done⟩ := h
  refine ⟨stocked, clock, fun k => ?_⟩
  rw [State.heightSet, done] at k
  exact absurd k (by simp)

theorem adoptedMaturity_le (h : Table s) : adoptedMaturity s ≤ Config.maturityCap := by
  obtain ⟨-, ranges, -⟩ := h
  have least : (((availablePeers s).map fun p => p.topMaturity.getD 0).min?.getD 0) ≤ 2000 := by
    cases hm : ((availablePeers s).map fun p => p.topMaturity.getD 0).min? with
    | none => exact Nat.zero_le _
    | some m =>
      obtain ⟨p, hp, rfl⟩ := List.mem_map.mp (List.min?_mem hm)
      obtain ⟨-, -, -, -, -, -, -, -, mature⟩ := ranges p (mem_records_of_available hp)
      show p.topMaturity.getD 0 ≤ 2000
      cases ht : p.topMaturity with
      | none => exact Nat.zero_le _
      | some t => exact mature t ht
  exact Nat.mul_le_mul_right Config.unitsPerDegreeHour least

/-- One adopted layer under the concrete where a depth is held (R65). -/
theorem stocked_adoptStack {h m : Nat} {g : Nat} (k : Stocked g s.stack) (hc : s.cure.clock < 65536)
    (he : s.stack.layers = []) (hr : h + s.setup.formHeight ≤ 2015000) (hm : m ≤ Config.maturityCap) :
    Stocked h { (adoptStack h m s).stack with layers := removeBelow h (adoptStack h m s).stack.layers } := by
  have still : Stocked h s.stack := by
    obtain ⟨ordered, -, top, seq⟩ := k
    exact ⟨ordered, by rw [he]; exact nofun, top, seq⟩
  unfold adoptStack
  split
  · rename_i d _
    have top : h + s.setup.formHeight - d ≤ 2015000 := (Nat.sub_le _ _).trans hr
    obtain ⟨ordered, above, -, seq⟩ := still
    have formed : Stocked h { s.stack with concreteTop := some (h + s.setup.formHeight - d) } :=
      ⟨ordered, above, fun t ht => Option.some.inj ht ▸ top, seq⟩
    dsimp only
    split
    · refine (formed.push ?_ ?_ top hc hm (.inl he)).removed h
      · show s.stack.layers.length < _
        rw [he]
        decide
      · show reckonBase h s.stack.layers < _
        rw [he]
        exact ‹_›
    · exact formed.removed h
  · exact still.removed h

theorem joinPhases_layered :
    JoinPhases (fun s => Joining .joining s ∧ Table s ∧ Layered s) (Filled fun _ => True) (Filled (· = .done)) Layered where
  wait s h := by
    obtain ⟨joining, -, stocked, clock, unset⟩ := h
    have early := joining.early rfl
    refine ⟨stocked, clock, fun k => unset ?_⟩
    rw [State.heightSet, beq_eq_false_iff_ne.mpr early, Bool.or_false]
    simpa [State.heightSet] using k
  fresh s h := ⟨h.2.2.1.emptied, h.2.2.2.1, trivial⟩
  adopt s h hk := by
    obtain ⟨joining, table, stocked, clock, unset⟩ := h
    have early := joining.early rfl
    have empty : s.stack.layers = [] := by
      refine (unset ?_).1
      rw [State.heightSet, beq_eq_false_iff_ne.mpr early, beq_eq_false_iff_ne.mpr hk]
      rfl
    obtain ⟨r, hr, inRange, -⟩ := joining.committed
    have form : s.setup.formHeight ≤ 15000 := by
      rw [State.setup, hr]
      exact formHeight_le inRange
    have height := adoptedHeight_le table
    simp only [Config.heightMax] at height
    have adopted := stocked_adoptStack (s := setHeights (adoptedHeight s) s) (h := adoptedHeight s)
      (m := adoptedMaturity s) stocked clock empty
      (show adoptedHeight s + s.setup.formHeight ≤ 2015000 by omega) (adoptedMaturity_le table)
    obtain ⟨st, e⟩ := adoptStack_eq (adoptedHeight s) (adoptedMaturity s) (setHeights (adoptedHeight s) s)
    rw [e] at adopted ⊢
    exact ⟨adopted, clock, trivial⟩
  restore s h _ := ⟨h.2.2.1, h.2.2.2.1, trivial⟩
  arm s h := ⟨h.1, h.2.1, rfl⟩
  entry c _ := (latchParts_filled (· = .done)).latch c
  leave m _ _ h _ _ := layered_enterMode m h.layered
  back _ _ _ h _ _ := h.layered

theorem layered_decideJoin (h : Based s) (k : Layered s)
    (hs : s.join.state = .listening ∨ s.join.state = .waitingForLink) : Layered (decideJoin s) :=
  joinPhases_layered.decide (latchParts_filled fun _ => True).moves moves_layered ⟨h.1.joining hs, h.2, k⟩

/-- A commit finds an empty stack and sets no height (R63, R169). -/
theorem layered_goodCommit (h : Ground s) (hm : s.ctl.mode = .setup) (k : Layered s) : Layered (goodCommit s) := by
  have he := effectiveMode_of_setup hm
  obtain ⟨stocked, clock, unset⟩ := k
  have was : s.heightSet = false := by rw [State.heightSet, h.kind_of_setup he, h.state_of_setup he]; rfl
  have joining : Layered (enterMode .joining (takeCommit s)) :=
    layered_enterMode .joining ⟨stocked, clock, fun _ => unset was⟩
  exact moves_layered.judgePeers (s := bringIntoForce _) joining

/-! ### Every command -/

/-- The heights with the stack on them. -/
abbrev Built (s : State) : Prop := Heights s ∧ Layered s

theorem moves_built : Moves Built fun _ => true := moves_heights.and moves_layered

theorem feedParts_built : FeedParts Built := FeedParts.and (P := Heights) {} feedParts_layered

theorem movedParts_built : MovedParts Built False true (· = .done) where
  moved _ _ h hq := ⟨heights_moved h.1 hq, h.2⟩
  credited c _ h hd := ⟨heights_credited c h.1 hd, layered_credited c h.2⟩
  planned hf := hf.elim

theorem layered_planEvent (h : Layered s) : Layered (planEvent s) := by
  rw [planEvent_eq]
  exact startStrokes_keeps (P := Layered) (fun _ _ k => k) (s := keepChange _ (planned s)) h

theorem built_decideJoin (h : Based s) (k : Built s)
    (hs : s.join.state = .listening ∨ s.join.state = .waitingForLink) : Built (decideJoin s) :=
  ⟨heights_decideJoin h k.1 hs, layered_decideJoin h k.2 hs⟩

theorem keeps_built : Keeps fun s => Based s ∧ Built s :=
  have F := feedParts_built
  have M := moves_built
  have H := movedParts_built
  have G := keeps_table
  { steer := G.steer.and M.steering
    jacks := G.jacks.andPlan (H.jacks M (stroking := fun _ _ h k => h.1.done_of_inStroke k))
      fun _ h k hm hr => ⟨heights_planEvent h.1 k.1 hm hr, layered_planEvent k.2⟩
    concrete := (feedParts_based.and F).concrete (moves_based.and M)
      (tick := fun _ h => ⟨h.1, h.2.1, layered_tickCure h.2.2⟩)
      (apply := fun _ h => ⟨h.1, h.2.1, layered_applyCure h.2.2⟩)
      (sampled := fun d _ h _ hs => ⟨h.1, h.2.1, layered_stackSample d h.1 h.2.1 h.2.2 hs⟩)
      (close := fun _ h => ⟨h.1, h.2.1, layered_closeGate .idle h.2.2⟩)
      (hC := fun _ hc => by simp [plain_ne_duplicate hc])
    line := G.line.and M.line
    peers := M.basedPeers F fun _ h k hw => built_decideJoin h k (.inr hw)
    setup :=
      { stage := fun id v s h hm hid => ⟨G.setup.stage id v s h.1 hm hid, h.2⟩
        refuseCommit := fun c s h hm => ⟨G.setup.refuseCommit c s h.1 hm, h.2⟩
        commit := fun c s h hm hc => ⟨G.setup.commit c s h.1 hm hc, heights_goodCommit h.1.1 hm h.2.1,
          layered_goodCommit h.1.1 hm h.2.2⟩
        request := fun s h ht => ⟨G.setup.request s h.1 ht, h.2⟩
        window := fun s h ht => ⟨G.setup.window s h.1 ht, lockStation_keeps (P := Built) h.2
          fun _ => ⟨heights_enterMode .locked h.2.1, layered_enterMode .locked h.2.2⟩⟩
        listen := fun s h ht => ⟨G.setup.listen s h.1 ht, built_decideJoin h.1 h.2 (.inl (h.1.1.listening ht))⟩ }
    guards := G.guards.and (M.guards (free := fun b _ k => H.free b k))
    supply := G.supply.and (F.supply M H
      (fun m _ h _ _ => ⟨heights_enterMode m h.1, layered_enterMode m h.2⟩)
      (stroking := fun _ _ h k => h.1.done_of_inStroke k)) }

theorem LayersOrdered.replaced {ls : List Layer} (h : LayersOrdered ls) :
    LayersOrdered (ls.map fun l => { l with placed := 0 }) := by
  obtain ⟨length, above, mature, range⟩ := h
  refine ⟨by rw [List.length_map]; exact length, ?_, ?_, ?_⟩
  · clear length mature range
    induction ls with
    | nil => rfl
    | cons k rest ih =>
      cases rest with
      | nil => exact above
      | cons j js =>
        simp only [List.map_cons, stacked, Bool.and_eq_true] at above ih ⊢
        exact ⟨above.1, ih above.2⟩
  · clear length above range
    induction ls with
    | nil => rfl
    | cons k rest ih =>
      cases rest with
      | nil => rfl
      | cons j js =>
        simp only [List.map_cons, maturing, Bool.and_eq_true] at mature ih ⊢
        exact ⟨mature.1, ih mature.2⟩
  · rw [List.all_map, List.all_eq_true]
    intro l hl
    have was := List.all_eq_true.mp range l hl
    simp only [layerInRange, Bool.and_eq_true, decide_eq_true_eq, Function.comp_apply] at was ⊢
    exact ⟨⟨⟨was.1.1.1, was.1.1.2⟩, by decide⟩, was.2⟩

theorem restoredSequence_lt (ls : List Layer) : restoredSequence ls < 65536 := by
  unfold restoredSequence
  cases ls.getLast? with
  | none => decide
  | some l => exact Nat.mod_lt _ (by decide)

end

/-- Settles O10: a layer is pushed or merged above the highest, and the removal leaves the ones above the
height. -/
theorem stepKeepsStackOrder : Obligations.StepKeepsStackOrder := by
  intro s t hs he
  have law : Based s ∧ Built s := by
    refine ⟨hs.based, ⟨fun ch => ?_, hs.height⟩, hs.layered⟩
    obtain ⟨-, ranges, early, -⟩ := hs.channels ch (Ch.mem_all ch)
    exact ⟨ranges, early⟩
  have empty : ∀ u : State, u.stack.layers = [] → u.stack.concreteTop = none → u.stack.nextSeq = 0 → StackLaw u := by
    intro u hl ht hn
    refine ⟨?_, ?_, fun _ => ⟨hl, ht⟩, ?_, ?_⟩
    · rw [hl]
      exact ⟨Nat.zero_le _, rfl, rfl, rfl⟩
    · rw [hl]
      exact nofun
    · rw [ht]
      exact nofun
    · rw [hn]
      decide
  refine step_keeps keeps_built he (fun _ => law) (fun v _ k => settled_keeps (P := StackLaw) v k.2.2.law)
    (passTime_keeps (P := StackLaw) hs.stack) ?_ ?_ ?_
  · exact fun _ _ _ _ _ _ _ => empty _ rfl rfl rfl
  · exact fun _ _ _ _ => empty _ rfl rfl rfl
  · intro strap inhibit cut a b image q _ _ hu _
    obtain ⟨-, -, -, -, -, -, ordered, -⟩ := hs.kept hu
    obtain ⟨⟨p, r, e⟩, -⟩ := restored_restoreCourse (strap := strap) (inhibit := inhibit) (a := a) (b := b)
      (k := image.kept) (s := { s with pending := q })
    rw [e]
    have placed := ordered.replaced
    exact ⟨removeBelow_ordered _ placed, removeBelow_above _ placed.2.1, fun k => absurd k nofun, nofun,
      restoredSequence_lt _⟩

end Sys2Proof.Machine
end

section
/-! PROOFS. The plan record and the cycle timer through every command (R21, R22, R38, R85, R203). -/

namespace Sys2Proof.Machine

-- In order, so that the proofs waiting on one another do not hold a stack each.
set_option Elab.async false

/-! ### A plan record -/

/-- What a plan record holds under record `r`, and what a receiver works the planned rise out of (R38, R203). -/
abbrev PlanKept (r : SetupRecord) (p : PlanRecord) : Prop :=
  (p.cause = .none → p = .blank)
    ∧ (p.cause ≠ .none → (p.candidate.any fun v => decide (v ≤ r.strokeNominal)) = true
        ∧ (p.segment.any fun k => decide (1 ≤ k) && decide (k ≤ 8)) = true)
    ∧ (p.rise = 0 ∨ (r.strokeMin ≤ p.rise ∧ p.rise ≤ r.strokeNominal))
    ∧ p.rise = (if p.cause = .none ∨ p.cause = .held ∨ p.belowMin = true then 0 else p.candidate.getD 0)
    ∧ (∀ t ∈ p.targets.toList, t ≤ 300)

theorem planKept_blank (r : SetupRecord) : PlanKept r .blank :=
  ⟨fun _ => rfl, fun k => absurd rfl k, .inl rfl, rfl, by decide⟩

section
variable {s : State}

/-- The limit that binds is one of the eight, no HELD (R39, R40). -/
theorem bindingLimit_limits (s : State) :
    bindingLimit (limits s) (leastLimit (limits s)) ≠ .none ∧ bindingLimit (limits s) (leastLimit (limits s)) ≠ .held := by
  obtain ⟨found, -⟩ := leastLimit_spec (strokeMax_mem_limits s)
  obtain ⟨before, after, e, -⟩ := bindingLimit_first found
  have named : bindingLimit (limits s) (leastLimit (limits s)) ∈ (limits s).map Prod.fst := by
    have binding := List.mem_append_right before
      (List.mem_cons_self (a := (bindingLimit (limits s) (leastLimit (limits s)), leastLimit (limits s))) (l := after))
    rw [← e] at binding
    exact List.mem_map.mpr ⟨_, binding, rfl⟩
  have listed := (limits_causes_sublist s).subset named
  constructor <;> intro k <;> rw [k] at listed <;> simp at listed

theorem currentSegment_range {r : SetupRecord} (hr : recordInRange r = true) (h : Nat) :
    1 ≤ currentSegment r h ∧ currentSegment r h ≤ 8 := by
  have bounds : 1 ≤ r.item 2 ∧ r.item 2 ≤ 8 := item_bounds hr (i := 1) (by decide)
  have count : 1 ≤ r.segCount ∧ r.segCount ≤ 8 := by
    simp only [SetupRecord.segCount, SetupRecord.nat]
    omega
  unfold currentSegment
  split
  · decide
  · cases hf : ((List.range r.segCount).map (· + 1)).find? fun k =>
        decide (r.segStart k ≤ h) && decide (h < r.segStart k + r.segLen k) with
    | none => exact count
    | some k =>
      obtain ⟨i, hi, rfl⟩ := List.mem_map.mp (List.mem_of_find?_eq_some hf)
      have := List.mem_range.mp hi
      show 1 ≤ i + 1 ∧ i + 1 ≤ 8
      omega

theorem planOf_targets_le (s : State) : ∀ t ∈ (planOf s).targets.toList, t ≤ 300 := by
  intro t ht
  obtain ⟨ch, -, rfl⟩ := PerChannel.mem_toList.mp ht
  show (s.seq.chans.map _).get ch ≤ 300
  rw [PerChannel.get_map]
  exact channelTarget_le _ _ _ _

/-- The plan of a plan event under a record in range (R37 to R40). -/
theorem planKept_planOf (hr : recordInRange s.setup = true) : PlanKept s.setup (planOf s) := by
  have targets := planOf_targets_le s
  obtain ⟨none, held⟩ := bindingLimit_limits s
  obtain ⟨-, least⟩ := leastLimit_spec (strokeMax_mem_limits s)
  have nominal : leastLimit (limits s) ≤ s.setup.strokeNominal := least _ (strokeMax_mem_limits s)
  have candidate : ((planOf s).candidate.any fun v => decide (v ≤ s.setup.strokeNominal)) = true :=
    decide_eq_true nominal
  have segment : ((planOf s).segment.any fun k => decide (1 ≤ k) && decide (k ≤ 8)) = true := by
    obtain ⟨low, high⟩ := currentSegment_range hr s.seq.height
    exact Bool.and_eq_true_iff.mpr ⟨decide_eq_true low, decide_eq_true high⟩
  cases hp : s.ctl.mode == .paused
  · have cause : (planOf s).cause = bindingLimit (limits s) (leastLimit (limits s)) := by simp [planOf, hp]
    have rise : (planOf s).rise = riseOf s.setup.strokeMin (leastLimit (limits s)) := by simp [planOf, hp]
    have below : (planOf s).belowMin
        = (decide (0 < leastLimit (limits s)) && decide (leastLimit (limits s) < s.setup.strokeMin)) := by
      simp [planOf, hp]
    refine ⟨fun k => absurd (cause.symm.trans k) none, fun _ => ⟨candidate, segment⟩, ?_, ?_, targets⟩
    · rw [rise]
      exact (riseOf_zero_or_ge _ _).imp id fun k => ⟨k, (riseOf_le _ _).trans nominal⟩
    · rw [rise, cause, below, planOf_candidate, Option.getD_some]
      simp only [none, held, false_or, Bool.and_eq_true, decide_eq_true_eq, riseOf]
      split <;> split <;> omega
  · obtain ⟨rise, cause, -⟩ := planOf_paused (beq_iff_eq.mp hp)
    refine ⟨fun k => absurd (cause.symm.trans k) nofun, fun _ => ⟨candidate, segment⟩, .inl rise, ?_, targets⟩
    rw [rise, cause]
    simp

/-! ### The station -/

/-- The plan record, blank outside CLIMBING and PAUSED, with the ramp count and the cycle timer (R22, R29, R85). -/
abbrev Paced (s : State) : Prop :=
  (s.ctl.mode.climbs = false → s.plan.last = .blank) ∧ PlanKept s.setup s.plan.last ∧ s.plan.ramp ≤ 255
    ∧ s.seq.cycleTimer.isSome = (s.ctl.mode.climbs && !s.seq.expiryHeld)
    ∧ (s.seq.expiryHeld = true → s.ctl.mode.climbs = true)

theorem planLaw_iff : PlanLaw s ↔ Paced s := by
  unfold PlanLaw Paced PlanKept
  simp only [and_assoc]

/-- Outside CLIMBING and PAUSED with nothing planned. -/
theorem paced_of_blank (hm : s.ctl.mode.climbs = false) (hp : s.plan.last = .blank) (hr : s.plan.ramp ≤ 255)
    (ht : s.seq.cycleTimer = none) (hh : s.seq.expiryHeld = false) : Paced s := by
  refine ⟨fun _ => hp, hp ▸ planKept_blank _, hr, ?_, fun k => absurd (hh.symm.trans k) nofun⟩
  rw [ht, hm]
  rfl

theorem Paced.blank (h : Paced s) (hm : s.ctl.mode.climbs = false) :
    s.plan.last = .blank ∧ s.seq.cycleTimer = none ∧ s.seq.expiryHeld = false := by
  obtain ⟨blank, -, -, timer, held⟩ := h
  refine ⟨blank hm, ?_, Bool.eq_false_iff.mpr fun k => ?_⟩
  · rw [← Option.not_isSome_iff_eq_none, timer, hm]
    exact nofun
  · rw [hm] at held
    exact absurd (held k) nofun

theorem paced_takeMode {m : Mode} {p : PauseSet} (h : Paced s) : Paced (takeMode m p s) := by
  have started : (takeMode m p s).plan.last = (if m.climbs then s.plan.last else .blank)
      ∧ (takeMode m p s).seq.cycleTimer
        = (if m.climbs then (if m.climbs && !s.ctl.mode.climbs then some s.now else s.seq.cycleTimer) else none)
      ∧ (takeMode m p s).seq.expiryHeld = (m.climbs && !(m.climbs && !s.ctl.mode.climbs) && s.seq.expiryHeld)
      ∧ (takeMode m p s).ctl.mode = m ∧ (takeMode m p s).plan.ramp = s.plan.ramp
      ∧ (takeMode m p s).setup = s.setup := ⟨rfl, rfl, rfl, rfl, rfl, rfl⟩
  obtain ⟨last, timer, held, mode, ramp, record⟩ := started
  have count : (takeMode m p s).plan.ramp ≤ 255 := ramp.trans_le h.2.2.1
  cases hm : m.climbs <;> rw [hm] at last timer held
  · exact paced_of_blank (mode ▸ hm) last count timer held
  · obtain ⟨-, kept, -, runs, -⟩ := h
    have still : (takeMode m p s).plan.last = s.plan.last := last
    have climbs : (takeMode m p s).ctl.mode.climbs = true := hm
    refine ⟨fun k => absurd (climbs.symm.trans k) (by decide), ?_, count, ?_, fun _ => climbs⟩
    · rw [record, still]
      exact kept
    · rw [timer, held, mode, hm]
      cases hs : s.ctl.mode.climbs
      · rfl
      · rw [hs] at runs
        simpa using runs

theorem paced_enterMode (m : Mode) (h : Paced s) : Paced (enterMode m s) := by
  rw [enterMode_eq]
  refine FeedParts.rejudge (P := Paced) {} _ (paced_takeMode ?_)
  split
  · obtain ⟨blank, kept, -, rest⟩ := h
    exact ⟨blank, kept, Nat.zero_le _, rest⟩
  · exact h

theorem latchParts_paced : LatchParts Paced where
  enter m _ h _ _ := paced_enterMode m h

theorem moves_paced : Moves Paced fun _ => true := latchParts_paced.moves

theorem movedParts_paced : MovedParts Paced False where
  moved _ _ h _ := h
  credited _ _ h _ := h
  planned hf := hf.elim
  hold s h hm := by
    obtain ⟨blank, kept, count, -, -⟩ := h
    refine ⟨blank, kept, count, ?_, fun _ => hm⟩
    show false = (s.ctl.mode.climbs && !true)
    rw [Bool.not_true, Bool.and_false]

/-- A plan event writes the plan and restarts the timer (R23, R85). -/
theorem paced_planEvent (h : Based s) (k : Paced s) (hm : s.ctl.mode.climbs = true) : Paced (planEvent s) := by
  obtain ⟨-, -, count, -⟩ := k
  rw [planEvent_eq]
  refine startStrokes_keeps (P := Paced) (fun _ _ k => k) (s := keepChange _ (planned s)) ?_
  refine ⟨fun k => absurd (hm.symm.trans k) (by decide), ?_, ?_, ?_, nofun⟩
  · have inForce : recordInRange (ramped s).setup = true := h.1.2.2.1.inRange
    exact planKept_planOf inForce
  · show (if s.ctl.mode = .climbing then min 255 (s.plan.ramp + 1) else s.plan.ramp) ≤ 255
    split
    · exact Nat.min_le_left _ _
    · exact count
  · show true = (s.ctl.mode.climbs && true)
    rw [hm]
    rfl

theorem joinParts_paced : JoinParts Paced where
  adopt s h := by
    obtain ⟨st, e⟩ := adoptStack_eq (adoptedHeight s) (adoptedMaturity s) (setHeights (adoptedHeight s) s)
    rw [e]
    exact h
  leave m _ h _ _ := paced_enterMode m h

/-- The record changes where nothing is planned. -/
theorem paced_goodCommit (hm : s.ctl.mode = .setup) (h : Paced s) : Paced (goodCommit s) := by
  have idle : s.ctl.mode.climbs = false := by rw [hm]; rfl
  obtain ⟨last, timer, held⟩ := h.blank idle
  have taken : Paced (takeCommit s) := paced_of_blank idle last h.2.2.1 timer held
  exact moves_paced.judgePeers (s := bringIntoForce _) (paced_enterMode .joining taken)

theorem keeps_paced : Keeps fun s => Based s ∧ Paced s :=
  have F : FeedParts Paced := {}
  have M := moves_paced
  have H := movedParts_paced
  have G := keeps_table
  have J := joinParts_paced
  { steer := G.steer.and M.steering
    jacks := G.jacks.andPlan (H.jacks M) fun _ h k hm _ => paced_planEvent h k hm
    concrete := G.concrete.and (F.concrete M)
    line := G.line.and M.line
    peers := G.peers.and (M.peers F fun _ k _ => J.decide M k)
    setup :=
      { stage := fun id v s h hm hid => ⟨G.setup.stage id v s h.1 hm hid, h.2⟩
        refuseCommit := fun c s h hm => ⟨G.setup.refuseCommit c s h.1 hm, h.2⟩
        commit := fun c s h hm hc => ⟨G.setup.commit c s h.1 hm hc, paced_goodCommit hm h.2⟩
        request := fun s h ht => ⟨G.setup.request s h.1 ht, h.2⟩
        window := fun s h ht => ⟨G.setup.window s h.1 ht,
          lockStation_keeps (P := Paced) h.2 fun _ => paced_enterMode .locked h.2⟩
        listen := fun s h ht => ⟨G.setup.listen s h.1 ht, J.decide M h.2⟩ }
    guards := G.guards.and M.guards
    supply := G.supply.and (F.supply M H (fun m _ h _ _ => paced_enterMode m h)
      (ramp := fun _ h => ⟨h.1, h.2.1, Nat.zero_le _, h.2.2.2⟩)
      (fall := fun _ h _ => paced_of_blank rfl rfl h.2.2.1 rfl rfl)) }

theorem paced_step {t : State} (hs : Sound s) (he : step s = .next t) : Paced t := by
  have law : Based s ∧ Paced s := ⟨hs.based, planLaw_iff.mp hs.plan⟩
  refine step_keeps keeps_paced he (fun _ => law) (fun v _ k => settled_keeps v k.2)
    (passTime_keeps (P := Paced) law.2) ?_ ?_ ?_
  · exact fun _ _ _ _ _ _ _ => paced_of_blank rfl rfl (Nat.zero_le _) rfl rfl
  · exact fun _ _ _ _ => paced_of_blank rfl rfl (Nat.zero_le _) rfl rfl
  · intro strap inhibit cut a b image q _ _ _ _
    obtain ⟨⟨p, r, e⟩, -⟩ := restored_restoreCourse (strap := strap) (inhibit := inhibit) (a := a) (b := b)
      (k := image.kept) (s := { s with pending := q })
    rw [e]
    exact paced_of_blank rfl rfl (Nat.zero_le _) rfl rfl

end

end Sys2Proof.Machine
end

section
/-! PROOFS. The cure integrator and the held depth through every command (R66 to R71, R79, R106, R109, R111). -/

namespace Sys2Proof.Machine

-- In order, so that the proofs waiting on one another do not hold a stack each.
set_option Elab.async false

section
variable {s : State}

/-! ### The cure integrator -/

theorem enterMode_isPresent (m : Mode) (s : State) (c : Cond) : (enterMode m s).isPresent c = s.isPresent c :=
  congrArg (fun p : Supervisor => p.present.contains c) (enterMode_sup m s)

theorem SetupKeeps.and {P Q : State → Prop} (a : SetupKeeps P) (b : SetupKeeps Q) : SetupKeeps fun s => P s ∧ Q s where
  stage id v s h hm hid := ⟨a.stage id v s h.1 hm hid, b.stage id v s h.2 hm hid⟩
  refuseCommit c s h hm := ⟨a.refuseCommit c s h.1 hm, b.refuseCommit c s h.2 hm⟩
  commit c s h hm hc := ⟨a.commit c s h.1 hm hc, b.commit c s h.2 hm hc⟩
  request s h ht := ⟨a.request s h.1 ht, b.request s h.2 ht⟩
  window s h ht := ⟨a.window s h.1 ht, b.window s h.2 ht⟩
  listen s h ht := ⟨a.listen s h.1 ht, b.listen s h.2 ht⟩

/-- The ranges of the cure integrator (R66, R69, R70). -/
abbrev CureRanges (c : Cure) : Prop :=
  c.clock < 65536 ∧ c.missed ≤ 255 ∧ c.rate ≤ 2400 ∧ c.sampleTimer.isSome = true
    ∧ (∀ t ∈ c.lastTemp, temperatureInRange t = true) ∧ (∀ t ∈ c.inUse, temperatureInRange t = true)

theorem cureLaw_iff : CureLaw s ↔ CureRanges s.cure
    ∧ (s.isPresent .temperature = true → s.cure.inUse = none ∧ s.cure.rate = 0) := by
  unfold CureLaw CureRanges
  simp only [and_assoc]

theorem CureLaw.aside {t : State} (h : CureLaw s) (a : Aside s t)
    (hd : t.isPresent .temperature = s.isPresent .temperature) : CureLaw t := by
  unfold CureLaw
  rw [a.cure, hd]
  exact h

theorem latchParts_cure : LatchParts CureLaw (· != .temperature) where
  enter m s h _ _ := h.aside (aside_enterMode m s) (enterMode_isPresent m s _)
  appear _ _ hc h _ := h.aside (aside_setPresent _ _) (isPresent_append_of_ne (bne_iff_ne.mp hc))
  vanish _ _ hc h := h.aside (aside_setPresent _ _) (isPresent_filter_of_ne (bne_iff_ne.mp hc))

theorem moves_cure : Moves CureLaw (· != .temperature) := latchParts_cure.moves

theorem SetupLaw.good (h : SetupLaw s) : ∃ own, GoodRecord own s.setup := by
  obtain ⟨-, good⟩ := h
  cases hc : s.join.committed with
  | none =>
    rw [State.setup, hc]
    exact ⟨1, by decide +kernel⟩
  | some r =>
    rw [State.setup, hc]
    exact ⟨_, good r hc⟩

theorem sampleRate_of_unused (h : s.cure.inUse = none) : sampleRate s = 0 := by
  simp [sampleRate, h, derate]

theorem sampleRate_of_used {v : Int} (h : s.cure.inUse = some v) :
    sampleRate s = derate s.sup.onCrystal (cureRate s.setup v) := by
  simp [sampleRate, h]

theorem derate_le (onCrystal : Bool) (rate : Nat) : derate onCrystal rate ≤ rate := by
  unfold derate
  split <;> omega

theorem sampleRate_le (h : SetupLaw s) : sampleRate s ≤ 2400 := by
  obtain ⟨own, good⟩ := h.good
  cases hv : s.cure.inUse with
  | none => exact (sampleRate_of_unused hv).trans_le (Nat.zero_le _)
  | some v => exact (sampleRate_of_used hv).trans_le ((derate_le _ _).trans (cureRate_le good v))

theorem cureRanges_tick (h : CureRanges s.cure) : CureRanges (tickCure s).cure := by
  obtain ⟨-, missed, rate, -, last, use⟩ := h
  exact ⟨Nat.mod_lt _ (by decide), missed, rate, rfl, last, use⟩

theorem cureRanges_apply (hl : SetupLaw s) (h : CureRanges s.cure) : CureRanges (applyCure s).cure := by
  obtain ⟨clock, missed, -, timer, last, use⟩ := h
  exact ⟨clock, missed, sampleRate_le hl, timer, last, use⟩

/-- A valid reading with its trim lies in the range of R69. -/
theorem cureRanges_read {raw : Int} (hl : SetupLaw s) (hr : -400 ≤ raw ∧ raw ≤ 1000) (h : CureRanges s.cure) :
    CureRanges (temperatureRead raw s).cure := by
  obtain ⟨clock, -, rate, timer, -, -⟩ := h
  have trim : -50 ≤ s.setup.tempTrim ∧ s.setup.tempTrim ≤ 50 := item_bounds hl.inRange (i := 43) (by decide)
  have range : temperatureInRange (raw + s.setup.tempTrim) = true := by
    simp only [temperatureInRange, Bool.and_eq_true, decide_eq_true_eq]
    omega
  have one : ∀ t ∈ some (raw + s.setup.tempTrim), temperatureInRange t = true := fun v hv => Option.some.inj hv ▸ range
  exact ⟨clock, Nat.zero_le _, rate, timer, one, one⟩

theorem cureRanges_missed (h : CureRanges s.cure) : CureRanges (temperatureMissed s).cure := by
  obtain ⟨clock, -, rate, timer, last, -⟩ := h
  refine ⟨clock, Nat.min_le_left _ _, rate, timer, last, ?_⟩
  unfold temperatureMissed
  dsimp only
  split
  · exact last
  · exact nofun

/-- A valid reading ends TEMPERATURE (R71). -/
theorem cure_read {raw : Int} (hl : SetupLaw s) (hr : -400 ≤ raw ∧ raw ≤ 1000) (h : CureLaw s) :
    CureLaw (judgeTemperature true (applyCure (temperatureRead raw (tickCure s)))) := by
  obtain ⟨ranges, -⟩ := cureLaw_iff.mp h
  have taken := cureRanges_apply (s := temperatureRead raw (tickCure s)) hl
    (cureRanges_read (s := tickCure s) hl hr (cureRanges_tick ranges))
  refine cureLaw_iff.mpr ⟨?_, fun k => ?_⟩
  · show CureRanges (lapseCond .temperature (applyCure (temperatureRead raw (tickCure s)))).cure
    rw [(aside_lapseCond .temperature _).cure]
    exact taken
  · have absent := lapseCond_isPresent .temperature .temperature (applyCure (temperatureRead raw (tickCure s)))
    rw [show judgeTemperature true (applyCure (temperatureRead raw (tickCure s)))
      = lapseCond .temperature (applyCure (temperatureRead raw (tickCure s))) from rfl, absent] at k
    simp at k

/-- No temperature is in use past T_hold missed samples or while TEMPERATURE stands (R70, R79). -/
theorem cure_missed (hl : SetupLaw s) (h : CureLaw s) :
    CureLaw (judgeTemperature false (applyCure (temperatureMissed (tickCure s)))) := by
  obtain ⟨ranges, -⟩ := cureLaw_iff.mp h
  have taken := cureRanges_apply (s := temperatureMissed (tickCure s)) hl
    (cureRanges_missed (s := tickCure s) (cureRanges_tick ranges))
  have unused : (temperatureMissed (tickCure s)).cure.inUse = none →
      (applyCure (temperatureMissed (tickCure s))).cure.inUse = none
        ∧ (applyCure (temperatureMissed (tickCure s))).cure.rate = 0 := by
    exact fun e => ⟨e, sampleRate_of_unused e⟩
  have missed : (temperatureMissed (tickCure s)).cure.inUse
      = if s.isPresent .temperature = false ∧ min 255 (s.cure.missed + 1) ≤ s.setup.tempHold then s.cure.lastTemp
        else none := rfl
  refine ite_keeps (fun k => absurd k nofun) fun _ => ite_keeps (fun late => ?_) fun _ => ?_
  · have none := unused (missed.trans (if_neg fun k => absurd (lt_of_lt_of_le late k.2) (lt_irrefl _)))
    refine cureLaw_iff.mpr ⟨?_, fun _ => ?_⟩ <;> rw [(aside_raiseCond .temperature _).cure]
    · exact taken
    · exact none
  · refine cureLaw_iff.mpr ⟨taken, fun k => unused (missed.trans (if_neg fun q => ?_))⟩
    exact absurd (k.symm.trans q.1) nofun

theorem joinParts_cure : JoinParts CureLaw where
  adopt s h := by
    obtain ⟨st, e⟩ := adoptStack_eq (adoptedHeight s) (adoptedMaturity s) (setHeights (adoptedHeight s) s)
    rw [e]
    exact h
  leave m s h _ _ := h.aside (aside_enterMode m s) (enterMode_isPresent m s _)

theorem cure_enterMode (m : Mode) (h : CureLaw s) : CureLaw (enterMode m s) :=
  h.aside (aside_enterMode m s) (enterMode_isPresent m s _)

theorem plain_ne_temperature {c : Cond} (h : c.isPlain = true) : (c != .temperature) = true := by
  cases c <;> first | rfl | cases h

theorem keeps_cure : Keeps fun s => Based s ∧ CureLaw s :=
  have F : FeedParts CureLaw := {}
  have H : ChannelParts CureLaw := {}
  have M := moves_cure
  have G := keeps_table
  have J := joinParts_cure
  have plain : ∀ c : Cond, c.isPlain = true → (c != .temperature) = true := fun _ => plain_ne_temperature
  { steer := G.steer.and (M.steering plain)
    jacks := G.jacks.and (H.movedParts.jacks M (hC := plain))
    concrete :=
      { feedHold := fun b s h hm => ⟨G.concrete.feedHold b s h.1 hm, F.rejudge _ (s := { s with ctl.feedHold := b }) h.2⟩
        cureRead := fun raw s h hr => ⟨G.concrete.cureRead raw s h.1 hr, cure_read h.1.1.2.2.1 hr h.2⟩
        cureMissed := fun s h => ⟨G.concrete.cureMissed s h.1, cure_missed h.1.1.2.2.1 h.2⟩
        probeGood := fun d s h hm hd => ⟨G.concrete.probeGood d s h.1 hm hd, F.probeGood M d h.2⟩
        probeBad := fun s h => ⟨G.concrete.probeBad s h.1, F.probeBad M h.2⟩
        settle := fun s h ht => ⟨G.concrete.settle s h.1 ht,
          F.admitIfSettled (s := { s with feed.settleTimer := none, feed.settled := true }) h.2⟩
        feedEnd := fun s h ht => ⟨G.concrete.feedEnd s h.1 ht, M.raise .feedTimeout rfl (s := closeGate .idle s) h.2⟩ }
    line := G.line.and M.line
    peers := G.peers.and (M.peers F fun _ k _ => J.decide M k)
    setup := G.setup.and (M.setup J fun m _ h => cure_enterMode m h)
    guards := G.guards.and M.guards
    supply := G.supply.and (F.supply M H.movedParts fun m _ h _ _ => cure_enterMode m h) }

/-! ### The held depth -/

theorem depth_enterMode (m : Mode) (h : DepthLaw s) : DepthLaw (enterMode m s) := by
  have F : FeedParts DepthLaw := {}
  exact F.enter (by split <;> exact h)

theorem latchParts_depth : LatchParts DepthLaw where
  enter m _ h _ _ := depth_enterMode m h

theorem moves_depth : Moves DepthLaw fun _ => true := latchParts_depth.moves

theorem joinParts_depth : JoinParts DepthLaw where
  adopt s h := by
    obtain ⟨st, e⟩ := adoptStack_eq (adoptedHeight s) (adoptedMaturity s) (setHeights (adoptedHeight s) s)
    rw [e]
    exact h
  leave m _ h _ _ := depth_enterMode m h

/-- The held depth and the last reading, whatever the committed form height (R109, R111). -/
abbrev DepthHeld (s : State) : Prop :=
  (s.feed.probeValid = true → s.feed.depth.isSome = true) ∧ s.feed.probeTimer.isSome = true

/-- A held depth above the committed form height is discarded with its reading (R106, R169). -/
theorem depth_bringIntoForce (h : DepthHeld s) : DepthLaw (bringIntoForce s) := by
  obtain ⟨valid, timer⟩ := h
  have depth : (bringIntoForce s).feed.depth
      = if decide (s.feed.depth.getD 0 ≤ s.setup.formHeight) then s.feed.depth else none := rfl
  have reading : (bringIntoForce s).feed.probeValid
      = if decide (s.feed.depth.getD 0 ≤ s.setup.formHeight) then s.feed.probeValid else false := rfl
  by_cases hf : s.feed.depth.getD 0 ≤ s.setup.formHeight
  · rw [if_pos (decide_eq_true hf)] at depth reading
    refine ⟨fun d hd => ?_, fun k => ?_, timer⟩
    · rw [depth, Option.mem_def] at hd
      rw [hd] at hf
      exact hf
    · rw [depth]
      exact valid (reading ▸ k)
  · have deep : ¬decide (s.feed.depth.getD 0 ≤ s.setup.formHeight) = true := by simpa using hf
    rw [if_neg deep] at depth reading
    refine ⟨?_, fun k => absurd (reading.symm.trans k) nofun, timer⟩
    rw [depth]
    exact nofun

theorem depth_goodCommit (h : DepthLaw s) : DepthLaw (goodCommit s) := by
  have F : FeedParts DepthHeld := {}
  have joining : DepthHeld (enterMode .joining (takeCommit s)) := F.enter (s := takeCommit s) h.2
  exact moves_depth.judgePeers (depth_bringIntoForce joining)

theorem keeps_depth : Keeps DepthLaw :=
  have F : FeedParts DepthLaw := {}
  have H : ChannelParts DepthLaw := {}
  have M := moves_depth
  have J := joinParts_depth
  { steer := M.steering
    jacks := H.movedParts.jacks M
    concrete := F.concrete M
      (probeTick := fun _ h => ⟨h.1, h.2.1, rfl⟩)
      (depth := fun _ _ h hd => ⟨fun _ k => Option.some.inj k ▸ hd, fun _ => rfl, h.2.2⟩)
      (invalid := fun _ h => ⟨h.1, nofun, h.2.2⟩)
    line := M.line
    peers := M.peers F fun _ k _ => J.decide M k
    setup :=
      { commit := fun _ _ h _ _ => depth_goodCommit h
        window := fun _ h _ => lockStation_keeps (P := DepthLaw) h fun _ => depth_enterMode .locked h
        listen := fun _ h _ => J.decide M h }
    guards := M.guards
    supply := F.supply M H.movedParts fun m _ h _ _ => depth_enterMode m h }

/-! ### The resets -/

theorem cureLaw_of_reset (hc : s.cure = (resetConcrete s).cure) : CureLaw s := by
  refine cureLaw_iff.mpr ?_
  rw [hc]
  exact ⟨⟨Nat.zero_lt_succ _, Nat.zero_le _, Nat.zero_le _, rfl, nofun, nofun⟩, fun _ => ⟨rfl, rfl⟩⟩

theorem depthLaw_of_reset (hd : s.feed.depth = none) (hv : s.feed.probeValid = false)
    (ht : s.feed.probeTimer.isSome = true) : DepthLaw s :=
  ⟨by rw [hd]; exact nofun, fun k => absurd (hv.symm.trans k) nofun, ht⟩

end

/-- Settles O7: the plan record with the cycle timer, the cure integrator and the held depth, each with the commands
that write it. -/
theorem stepKeepsPlanAndConcrete : Obligations.StepKeepsPlanAndConcrete := by
  intro s t hs he
  refine ⟨planLaw_iff.mpr (paced_step hs he), ?_, ?_⟩
  · refine step_keeps keeps_cure he (fun _ => ⟨hs.based, hs.cure⟩) (fun v u k => k.2.aside (settled_aside v u)
      (settled_isPresent v u fun _ => nofun)) (passTime_keeps (P := CureLaw) hs.cure) ?_ ?_ ?_
    · exact fun _ _ _ _ _ _ _ => cureLaw_of_reset rfl
    · exact fun _ _ _ _ => cureLaw_of_reset rfl
    · intro strap inhibit cut a b image q _ _ _ _
      obtain ⟨⟨p, r, e⟩, -⟩ := restored_restoreCourse (strap := strap) (inhibit := inhibit) (a := a) (b := b)
        (k := image.kept) (s := { s with pending := q })
      rw [e]
      exact cureLaw_of_reset rfl
  · refine step_keeps keeps_depth he (fun _ => hs.depth) (fun v _ k => settled_keeps v k)
      (passTime_keeps (P := DepthLaw) hs.depth) ?_ ?_ ?_
    · exact fun _ _ _ _ _ _ _ => depthLaw_of_reset rfl rfl rfl
    · exact fun _ _ _ _ => depthLaw_of_reset rfl rfl rfl
    · intro strap inhibit cut a b image q _ _ _ _
      obtain ⟨⟨p, r, e⟩, -⟩ := restored_restoreCourse (strap := strap) (inhibit := inhibit) (a := a) (b := b)
        (k := image.kept) (s := { s with pending := q })
      rw [e]
      exact depthLaw_of_reset rfl rfl rfl

end Sys2Proof.Machine
end

section
/-! PROOFS. The transmit slots, the mute and the error count through every command (R141, R147, R148, R153 to R155,
R159). -/

namespace Sys2Proof.Machine

-- In order, so that the proofs waiting on one another do not hold a stack each.
set_option Elab.async false

section
variable {s : State}

/-! ### The slots -/

@[simp] theorem ReportSlot.isSending_request (p : Prio) (r : ReportSlot) :
    (r.request p).isSending = r.isSending := by
  cases r with
  | empty => rfl
  | pending => rfl
  | sending q f => cases f <;> rfl

@[simp] theorem ReportSlot.isSending_retry (r : ReportSlot) : r.retry.isSending = false := by
  cases r with
  | empty => rfl
  | pending => rfl
  | sending q f => cases f <;> rfl

@[simp] theorem ReportSlot.isSending_sent (r : ReportSlot) : r.sent.isSending = false := by
  cases r with
  | empty => rfl
  | pending => rfl
  | sending q f => cases f <;> rfl

/-- Out of SETUP a slot is neither PENDING nor changed otherwise (R153). -/
theorem SetupSlot.leaveSetup_ne_pending (r : SetupSlot) : r.leaveSetup ≠ .pending := by
  cases r <;> decide

@[simp] theorem SetupSlot.leaveSetup_sending (r : SetupSlot) : (r.leaveSetup == .sending) = (r == .sending) := by
  cases r <;> rfl

/-! ### The law, on the line alone and with the mode -/

/-- The line interface's own part of the law. -/
abbrev LineHeld (own : Nat) (l : Line) : Prop :=
  ¬(l.report.isSending = true ∧ (l.setupRequest == .sending) = true)
    ∧ l.frame.isSome = (l.report.isSending || l.setupRequest == .sending)
    ∧ ((l.report.isSending || l.setupRequest == .sending) = true → l.idle = false)
    ∧ l.errors ≤ Config.errorLimit ∧ l.muteTimer.isSome = l.muted ∧ l.reportTimer.isSome = true ∧ l.sender = own

/-- A slot that asks or sends is allowed by the mode (R153, R159). -/
abbrev LineAllowed (s : State) : Prop :=
  (attempting s = true → s.ctl.mode ≠ .reduced) ∧ (s.line.setupRequest = .pending → s.effectiveMode = .setup)

theorem lineLaw_iff : LineLaw s ↔ LineHeld s.join.ownNumber s.line ∧ LineAllowed s := by
  constructor
  · rintro ⟨one, frame, busy, pending, errors, mute, report, sender⟩
    exact ⟨⟨fun k => one ⟨k.1, beq_iff_eq.mp k.2⟩, frame, fun k => (busy k).1, errors, mute, report, sender⟩,
      fun k => (busy k).2, pending⟩
  · rintro ⟨⟨one, frame, idle, errors, mute, report, sender⟩, upright, pending⟩
    exact ⟨fun k => one ⟨k.1, beq_iff_eq.mpr k.2⟩, frame, fun k => ⟨idle k, upright k⟩, pending, errors, mute, report,
      sender⟩

/-- A request keeps the slot's place in its attempt. -/
theorem LineHeld.requested {own : Nat} {l : Line} (h : LineHeld own l) (p : Prio) :
    LineHeld own { l with report := l.report.request p } := by
  unfold LineHeld
  dsimp only
  rw [ReportSlot.isSending_request]
  exact h

theorem attempting_of_requested {t : State} {p : Prio}
    (hl : t.line = { s.line with report := s.line.report.request p }) : attempting t = attempting s := by
  rw [attempting, attempting, hl, ReportSlot.isSending_request]

/-- A change of other blocks that requests a report. -/
theorem LineLaw.requested {t : State} (p : Prio) (h : LineLaw s)
    (hl : t.line = { s.line with report := s.line.report.request p } := by rfl) (hc : t.ctl = s.ctl := by rfl)
    (ho : t.join.ownNumber = s.join.ownNumber := by rfl) : LineLaw t := by
  obtain ⟨held, upright, pending⟩ := lineLaw_iff.mp h
  refine lineLaw_iff.mpr ⟨?_, fun k => ?_, fun k => ?_⟩
  · rw [hl, ho]
    exact held.requested p
  · rw [hc]
    exact upright (attempting_of_requested hl ▸ k)
  · rw [effectiveMode_of_ctl hc]
    rw [hl] at k
    exact pending k

/-- The line with its slots out of SETUP, in whatever mode the station comes to. -/
abbrev LineCalm (s : State) : Prop :=
  LineHeld s.join.ownNumber s.line ∧ (attempting s = true → s.ctl.mode ≠ .reduced) ∧ s.line.setupRequest ≠ .pending

theorem LineCalm.law (h : LineCalm s) : LineLaw s := by
  obtain ⟨held, upright, calm⟩ := h
  exact lineLaw_iff.mpr ⟨held, upright, fun k => absurd k calm⟩

theorem LineCalm.requested {t : State} (p : Prio) (h : LineCalm s)
    (hl : t.line = { s.line with report := s.line.report.request p } := by rfl) (hc : t.ctl = s.ctl := by rfl)
    (ho : t.join.ownNumber = s.join.ownNumber := by rfl) : LineCalm t := by
  obtain ⟨held, upright, calm⟩ := h
  refine ⟨?_, fun k => ?_, ?_⟩
  · rw [hl, ho]
    exact held.requested p
  · rw [hc]
    exact upright (attempting_of_requested hl ▸ k)
  · rw [hl]
    exact calm

theorem feedParts_line : FeedParts LineLaw where
  ask _ h _ _ := h.requested .urgent
  leave _ h _ := h.requested .urgent
  close _ _ h _ _ := h.requested .urgent
  opens _ h _ := h.requested .urgent

theorem feedParts_calm : FeedParts LineCalm where
  ask _ h _ _ := h.requested .urgent
  leave _ h _ := h.requested .urgent
  close _ _ h _ _ := h.requested .urgent
  opens _ h _ := h.requested .urgent

/-! ### Modes and latches -/

theorem attempting_takeMode (m : Mode) (p : PauseSet) (s : State) : attempting (takeMode m p s) = attempting s := by
  show ((s.line.report.request .urgent).isSending
    || (if m = .setup then s.line.setupRequest else s.line.setupRequest.leaveSetup) == .sending) = _
  rw [ReportSlot.isSending_request]
  split
  · rfl
  · rw [SetupSlot.leaveSetup_sending]
    rfl

/-- A slot that is left as the mode leaves it keeps its place in its attempt. -/
theorem LineHeld.left {own : Nat} {l : Line} (h : LineHeld own l) {r : SetupSlot}
    (hr : (r == .sending) = (l.setupRequest == .sending)) : LineHeld own { l with setupRequest := r } := by
  unfold LineHeld
  dsimp only
  rw [hr]
  exact h

theorem lineLaw_takeMode {m : Mode} (hm : m ≠ .reduced) (p : PauseSet) (h : LineHeld s.join.ownNumber s.line) :
    LineLaw (takeMode m p s) := by
  have slot : ((if m = .setup then s.line.setupRequest else s.line.setupRequest.leaveSetup) == .sending)
      = (s.line.setupRequest == .sending) := by
    split
    · rfl
    · exact SetupSlot.leaveSetup_sending _
  refine lineLaw_iff.mpr ⟨(h.left slot).requested .urgent, fun _ => hm, fun k => ?_⟩
  have pending : (if m = .setup then s.line.setupRequest else s.line.setupRequest.leaveSetup) = .pending := k
  have taken : (takeMode m p s).effectiveMode = m := effectiveMode_of_ne_reduced hm
  by_cases hs : m = .setup
  · exact taken.trans hs
  · rw [if_neg hs] at pending
    exact absurd pending (SetupSlot.leaveSetup_ne_pending _)

theorem lineLaw_enterMode {m : Mode} (hm : m ≠ .reduced) (h : LineHeld s.join.ownNumber s.line) :
    LineLaw (enterMode m s) := by
  refine feedParts_line.enter (lineLaw_takeMode ?_ _ (by split <;> exact h))
  rcases settle_cases m (entryPause m s) s with ⟨-, -, e⟩ | ⟨-, -, -, e⟩ | ⟨-, -, -, e⟩ | ⟨-, -, e⟩ <;> rw [e]
  · exact nofun
  · exact hm
  · exact nofun
  · exact hm

theorem LineLaw.held (h : LineLaw s) : LineHeld s.join.ownNumber s.line := (lineLaw_iff.mp h).1

theorem latchParts_line : LatchParts LineLaw where
  enter _ _ h _ hm := lineLaw_enterMode (Mode.ne_reduced_of_takesCommands hm) h.held
  stop s h hm hr := by
    obtain ⟨held, upright, pending⟩ := lineLaw_iff.mp h
    refine lineLaw_iff.mpr ⟨held, upright, fun k => ?_⟩
    have setup := pending k
    rw [effectiveMode_of_reduced hm] at setup
    rw [setup] at hr
    cases hr

theorem moves_line : Moves LineLaw fun _ => true := latchParts_line.moves

theorem lineCalm_enterMode {m : Mode} (hm : m.takesCommands = true) (h : LineHeld s.join.ownNumber s.line) :
    LineCalm (enterMode m s) := by
  obtain ⟨held, upright, pending⟩ := lineLaw_iff.mp (lineLaw_enterMode (Mode.ne_reduced_of_takesCommands hm) h)
  refine ⟨held, upright, fun k => ?_⟩
  have takes := enterMode_takesCommands hm s
  rw [pending k] at takes
  cases takes

theorem latchParts_calm : LatchParts LineCalm where
  enter _ _ h _ hm := lineCalm_enterMode hm h.1

/-- A join ends with no SETUP REQUEST waiting (R153). -/
theorem joinParts_calm : JoinParts LineCalm where
  adopt s h := by
    obtain ⟨st, e⟩ := adoptStack_eq (adoptedHeight s) (adoptedMaturity s) (setHeights (adoptedHeight s) s)
    rw [e]
    exact h
  report _ h := h.requested .urgent
  leave _ _ h hm _ := lineCalm_enterMode hm h.1

theorem line_decideJoin (h : Ground s) (k : LineLaw s)
    (hs : s.join.state = .listening ∨ s.join.state = .waitingForLink) : LineLaw (decideJoin s) := by
  obtain ⟨held, upright, pending⟩ := lineLaw_iff.mp k
  obtain ⟨-, -, -, -, he⟩ := h.joining hs
  refine LineCalm.law (joinParts_calm.decide latchParts_calm.moves ⟨held, upright, fun q => ?_⟩)
  rw [pending q] at he
  cases he

theorem channelParts_line : ChannelParts LineLaw := {}

/-! ### Attempts, setup and REDUCED -/

/-- An attempt that did not go out, or went out, leaves no slot SENDING (R155). -/
theorem lineLaw_idle (h : LineHeld s.join.ownNumber s.line) {r : ReportSlot} {q : SetupSlot} {n : Nat}
    (hr : r.isSending = false) (hq : q ≠ .sending) (hn : n ≤ Config.errorLimit)
    (hp : q = .pending → s.effectiveMode = .setup) :
    LineLaw { s with line.report := r, line.setupRequest := q, line.errors := n, line.frame := none } := by
  obtain ⟨-, -, -, -, mute, report, sender⟩ := h
  have still : (r.isSending || q == .sending) = false := by rw [hr, beq_eq_false_iff_ne.mpr hq]; rfl
  refine lineLaw_iff.mpr ⟨⟨fun k => ?_, still.symm, fun k => ?_, hn, mute, report, sender⟩, fun k => ?_, hp⟩
  · exact absurd (hr.symm.trans k.1) nofun
  · exact absurd (still.symm.trans k) nofun
  · exact absurd (still.symm.trans k) nofun

theorem LineLaw.errors (h : LineLaw s) : s.line.errors ≤ Config.errorLimit := by
  obtain ⟨-, -, -, -, errors, -⟩ := h
  exact errors

theorem lineLaw_retryAttempt (h : LineLaw s) : LineLaw (retryAttempt s) := by
  refine lineLaw_idle (n := s.line.errors) h.held (ReportSlot.isSending_retry s.line.report) ?_ h.errors fun k => ?_
  · split
    · split <;> decide
    · assumption
  · split at k
    · split at k
      · assumption
      · cases k
    · exact (lineLaw_iff.mp h).2.2 k

theorem lineLaw_attemptSent (h : LineLaw s) : LineLaw (attemptSent s) := by
  refine lineLaw_idle (n := 0) h.held (ReportSlot.isSending_sent s.line.report) ?_ (Nat.zero_le _) fun k => ?_
  · split
    · decide
    · assumption
  · split at k
    · cases k
    · exact (lineLaw_iff.mp h).2.2 k

theorem lineLaw_countError (h : LineLaw s) : LineLaw (countError s) := by
  refine countError_keeps (P := LineLaw) (fun t k => moves_line.raise .line rfl k) h ?_ ?_
  · intro n t k hn
    obtain ⟨one, frame, busy, pending, -, rest⟩ := k
    exact ⟨one, frame, busy, pending, hn, rest⟩
  · intro d t k
    obtain ⟨one, frame, busy, pending, errors, -, report, sender⟩ := k
    exact ⟨one, frame, busy, pending, errors, rfl, report, sender⟩

/-- An attempt takes one slot while none is SENDING (R143, R154). -/
theorem lineLaw_beginAttempt (h : LineLaw s) (hm : mayAttempt s = true) : LineLaw (beginAttempt s) := by
  have law := h
  obtain ⟨-, -, -, pending, errors, mute, report, sender⟩ := law
  simp only [mayAttempt, Bool.and_eq_true, bne_iff_ne, ne_eq, Bool.not_eq_true'] at hm
  obtain ⟨⟨⟨-, -⟩, upright⟩, still⟩ := hm
  obtain ⟨quiet, silent⟩ := Bool.or_eq_false_iff.mp still
  refine beginAttempt_keeps (P := LineLaw) ?_ (fun p _ hp => ?_) fun _ hp => ?_
  · exact h
  · refine ⟨fun k => absurd (beq_eq_false_iff_ne.mp silent) (fun e => e k.2), ?_, fun _ => ⟨rfl, upright⟩, pending, errors,
      mute, report, sender⟩
    rfl
  · refine ⟨fun k => absurd (quiet.symm.trans k.1) nofun, ?_, fun _ => ⟨rfl, upright⟩, nofun, errors, mute, report,
      sender⟩
    show true = (s.line.report.isSending || true)
    rw [Bool.or_true]

/-- A SETUP REQUEST is asked for in SETUP alone (R153). -/
theorem lineLaw_requestSetup {t : State} (h : LineLaw t) (he : t.effectiveMode = .setup) :
    LineLaw (requestSetup t) := by
  obtain ⟨held, upright, -⟩ := lineLaw_iff.mp h
  have slot : ((requestSetup t).line.setupRequest == .sending) = (t.line.setupRequest == .sending) := by
    show ((match t.line.setupRequest with | .empty => SetupSlot.pending | r => r) == .sending) = _
    cases t.line.setupRequest <;> rfl
  refine lineLaw_iff.mpr ⟨held.left slot, fun k => upright ?_, fun _ => he⟩
  rw [attempting, slot] at k
  exact k

theorem lineLaw_refuseCommit (c : CommitResult) (h : LineLaw s) (hm : s.ctl.mode = .setup) :
    LineLaw (refuseCommit c s) :=
  lineLaw_requestSetup (t := { s with join.lastCommit := c }) h (effectiveMode_of_setup hm)

theorem lineLaw_goodCommit (h : LineLaw s) : LineLaw (goodCommit s) := by
  have joining : LineLaw (enterMode .joining (takeCommit s)) := lineLaw_enterMode (s := takeCommit s) nofun h.held
  exact moves_line.judgePeers (s := bringIntoForce _) joining

theorem lineLaw_lockStation {t : State} (h : LineLaw t) : LineLaw (lockStation t) := by
  refine lockStation_keeps (P := LineLaw) h (fun _ => lineLaw_enterMode nofun h.held) fun _ _ => ?_
  obtain ⟨held, upright, -⟩ := lineLaw_iff.mp h
  have slot := SetupSlot.leaveSetup_sending t.line.setupRequest
  refine lineLaw_iff.mpr ⟨held.left slot, fun k => upright ?_, fun k => ?_⟩
  · have was : (t.line.report.isSending || t.line.setupRequest.leaveSetup == .sending) = true := k
    rw [slot] at was
    exact was
  · exact absurd k (SetupSlot.leaveSetup_ne_pending _)

/-- The line between the entry to REDUCED from mode `m` and the cut of its attempt. -/
abbrev Falling (m : Mode) (t : State) : Prop :=
  LineHeld t.join.ownNumber t.line ∧ (t.line.setupRequest = .pending → m = .setup) ∧ t.effectiveMode = m

theorem feedParts_falling (m : Mode) : FeedParts (Falling m) where
  ask _ h _ _ := ⟨h.1.requested .urgent, h.2⟩
  leave _ h _ := ⟨h.1.requested .urgent, h.2⟩
  close _ _ h _ _ := ⟨h.1.requested .urgent, h.2⟩
  opens _ h _ := ⟨h.1.requested .urgent, h.2⟩

theorem lineLaw_cutAttempt {m : Mode} (h : Falling m s) : LineLaw (cutAttempt m s) := by
  obtain ⟨held, pending, mode⟩ := h
  have errors : s.line.errors ≤ Config.errorLimit := held.2.2.2.1
  refine lineLaw_idle (n := s.line.errors) held (ReportSlot.isSending_retry s.line.report) ?_ errors fun k => ?_
  · split
    · split <;> decide
    · assumption
  · rw [mode]
    split at k
    · split at k
      · assumption
      · cases k
    · exact pending k

/-- The entry to REDUCED cuts the attempt under way (R159). -/
theorem lineLaw_enterReduced (h : LineLaw s) (hm : s.ctl.mode ≠ .reduced) : LineLaw (enterReduced s) := by
  obtain ⟨held, -, pending⟩ := lineLaw_iff.mp h
  rw [effectiveMode_of_ne_reduced hm] at pending
  have fallen : Falling s.ctl.mode (toReduced s) := ⟨held.requested .urgent, pending, rfl⟩
  rw [enterReduced_eq]
  exact lineLaw_cutAttempt ((feedParts_falling s.ctl.mode).rejudge _ fallen)

theorem supplyKeeps_line : SupplyKeeps fun s => Ground s ∧ LineLaw s where
  supplyLow s t h hl e := by
    refine ⟨keeps_ground.supply.supplyLow s t h.1 hl e, ?_⟩
    have raised : LineLaw t := e ▸ moves_line.raise .supplyLow rfl (s := { s with sup.supplyLow := true }) h.2
    refine ite_keeps (fun _ => raised) fun hm => ?_
    exact channelParts_line.movedParts.creditStrokes moves_line (fun _ _ => trivial) (aside_enterReduced t).join_state
      (lineLaw_enterReduced raised hm)
  supplyRecovery s t h hl e := by
    refine ⟨keeps_ground.supply.supplyRecovery s t h.1 hl e, ?_⟩
    have ground : Ground t := e ▸ moves_ground.lapse .supplyLow rfl (s := { s with sup.supplyLow := false }) h.1
    have lapsed : LineLaw t := e ▸ moves_line.lapse .supplyLow rfl (s := { s with sup.supplyLow := false }) h.2
    exact ite_keeps (fun _ => lineLaw_enterMode (returnTo_ne_reduced ground.1) lapsed.held) fun _ => lapsed

theorem Ground.setup_of_request (h : Ground s) (ht : s.join.requestTimer.isSome = true) : s.effectiveMode = .setup := by
  obtain ⟨-, ⟨-, -, -, -, -, request, -, setup, -⟩, -⟩ := h
  rw [request, ← setup] at ht
  exact beq_iff_eq.mp ht

theorem keeps_line : Keeps fun s => Ground s ∧ LineLaw s :=
  have F := feedParts_line
  have H := channelParts_line
  have M := moves_line
  have G := keeps_ground
  { steer := G.steer.and M.steering
    refuse := fun c s h => ⟨G.refuse c s h.1, LineLaw.requested .urgent (s := { s with ctl.refusal := some c }) h.2⟩
    jacks := G.jacks.and (H.movedParts.jacks M)
    concrete := G.concrete.and (F.concrete M (close := fun _ h => h.requested .urgent))
    line :=
      { level := fun b s h hb => ⟨h.1, by
          obtain ⟨one, frame, busy, pending, rest⟩ := h.2
          refine ⟨one, frame, fun k => ⟨?_, (busy k).2⟩, pending, rest⟩
          refine Bool.eq_false_iff.mpr fun q => ?_
          rw [show attempting { s with line.idle := b } = attempting s from rfl, hb q] at k
          cases k⟩
        attempt := fun s h hm => ⟨G.line.attempt s h.1 hm, lineLaw_beginAttempt h.2 hm⟩
        lost := fun s h hs => ⟨G.line.lost s h.1 hs, lineLaw_retryAttempt h.2⟩
        error := fun s h hs => ⟨G.line.error s h.1 hs, lineLaw_countError (lineLaw_retryAttempt h.2)⟩
        sent := fun s h hs => ⟨G.line.sent s h.1 hs, M.lapse .line rfl (lineLaw_attemptSent h.2)⟩
        muteEnd := fun s h => ⟨G.line.muteEnd s h.1, by
          obtain ⟨one, frame, busy, pending, errors, -, rest⟩ := h.2
          exact ⟨one, frame, busy, pending, errors, rfl, rest⟩⟩
        busyEnd := fun s h => ⟨G.line.busyEnd s h.1, lineLaw_countError (s := { s with line.busyTimer := none }) h.2⟩ }
    peers :=
      { duplicate := fun s h => ⟨G.peers.duplicate s h.1, M.duplicate h.2⟩
        arrival := fun n p r s h hr =>
          (moves_ground.and M).handArrival n (s := { s with peers.records := enterReport n r s.peers.records }) h
            (fun _ => (FeedParts.and (P := Ground) {} F).arrival)
            fun t k hw => ⟨ground_decideJoin k.1 (.inr hw), line_decideJoin k.1 k.2 (.inr hw)⟩
        sweep := fun s h => by
          have restarted : LineLaw (requestReport .periodic
              { s with line.reportTimer := some (s.now + s.setup.reportPeriod) }) := by
            obtain ⟨one, frame, busy, pending, errors, mute, -, sender⟩ := h.2
            exact LineLaw.requested .periodic (s := { s with line.reportTimer := some (s.now + s.setup.reportPeriod) })
              ⟨one, frame, busy, pending, errors, mute, rfl, sender⟩
          exact (moves_ground.and M).ageSweep
            ⟨moves_ground.ageDuplicate h.1, M.ageDuplicate restarted⟩
            (fun _ => (FeedParts.and (P := Ground) {} F).admitIfSettled)
            fun t k hw => ⟨ground_decideJoin k.1 (.inr hw), line_decideJoin k.1 k.2 (.inr hw)⟩ }
    setup :=
      { stage := fun id v s h hm hid => ⟨G.setup.stage id v s h.1 hm hid, h.2⟩
        refuseCommit := fun c s h hm => ⟨G.setup.refuseCommit c s h.1 hm, lineLaw_refuseCommit c h.2 hm⟩
        commit := fun c s h hm hc => ⟨G.setup.commit c s h.1 hm hc, lineLaw_goodCommit h.2⟩
        request := fun s h ht => ⟨G.setup.request s h.1 ht, lineLaw_requestSetup
          (t := { s with join.requestTimer := some (s.now + Config.requestPeriod) }) h.2 (h.1.setup_of_request ht)⟩
        window := fun s h ht => ⟨G.setup.window s h.1 ht, lineLaw_lockStation
          (t := { s with join.stage := .closed, join.windowTimer := none, join.requestTimer := none }) h.2⟩
        listen := fun s h ht => ⟨G.setup.listen s h.1 ht, line_decideJoin h.1 h.2 (.inl (h.1.listening ht))⟩ }
    guards := G.guards.and M.guards
    supply := supplyKeeps_line }

/-! ### The close of a command and the resets -/

theorem lineLaw_settled (v : State) {u : State} (h : LineLaw u) : LineLaw (settled v u) := by
  obtain ⟨busy, e⟩ := settled_spec v u
  have law : ∀ (cs : List Cond) (b d : Timer) (r : ReportSlot), r = u.line.report ∨ r = u.line.report.request .urgent →
      LineLaw { u with sup.present := cs, feed.blankTimer := b, line.report := r, line.busyTimer := d } := by
    rintro cs b d r (rfl | rfl)
    · exact h
    · exact LineLaw.requested .urgent (s := { u with line.busyTimer := d }) h
  rw [e]
  refine law _ _ _ _ ?_
  split
  · exact .inl rfl
  · exact .inr rfl

theorem lineLaw_reportFaults (v : State) (h : LineLaw s) : LineLaw (reportFaults v s) := by
  rcases reportFaults_cases v s with ⟨-, e⟩ | ⟨-, e⟩ <;> rw [e]
  · exact h
  · exact h.requested .urgent

theorem lineLaw_inhibitAtReset (h : LineLaw s) : LineLaw (inhibitAtReset s) :=
  ite_keeps (fun _ => lineLaw_reportFaults _ (moves_line.raise .inhibit rfl h)) fun _ => h

/-- A line interface that a reset leaves with no slot in use. -/
theorem lineLaw_of_empty (hr : s.line.report = .empty) (hq : s.line.setupRequest = .empty) (hf : s.line.frame = none)
    (he : (s.line.errors, s.line.muted, s.line.muteTimer) = (0, false, none)) (ht : s.line.reportTimer.isSome = true)
    (hs : s.line.sender = s.join.ownNumber) : LineLaw s := by
  simp only [Prod.mk.injEq] at he
  obtain ⟨errors, muted, timer⟩ := he
  have still : attempting s = false := by rw [attempting, hr, hq]; rfl
  refine ⟨fun k => ?_, ?_, fun k => absurd (still.symm.trans k) nofun, fun k => absurd (hq.symm.trans k) nofun, ?_, ?_, ht, hs⟩
  · rw [hr] at k
    exact absurd k.1 nofun
  · rw [hf, still]
    rfl
  · rw [errors]
    exact Nat.zero_le _
  · rw [timer, muted]
    rfl

theorem lineLaw_locked (strap : BitVec 6) (inhibit : Bool) (a b : Option Image) (s : State) :
    LineLaw (lockedCourse strap inhibit a b s) :=
  lineLaw_inhibitAtReset (lineLaw_of_empty rfl rfl rfl rfl rfl rfl)

theorem lineLaw_setup (strap : BitVec 6) (inhibit : Bool) (s : State) : LineLaw (setupCourse strap inhibit s) :=
  lineLaw_inhibitAtReset ⟨nofun, rfl, nofun, fun _ => rfl, Nat.zero_le _, rfl, rfl, rfl⟩

theorem lineLaw_restoreReset (strap : BitVec 6) (inhibit : Bool) (a b : Option Image) (k : Kept) (s : State) :
    LineLaw (restoreReset strap inhibit a b k s) :=
  lineLaw_of_empty rfl rfl rfl rfl rfl rfl

theorem lineLaw_judged (h : LineLaw s) : LineLaw (inhibitAtReset (judgePeers (reportFaults s (judgeSpread s)))) :=
  lineLaw_inhibitAtReset (moves_line.judgePeers (lineLaw_reportFaults s (moves_line.judgeSpread h)))

theorem lineLaw_restoreLatched (ls : List Cond) (h : LineLaw s) : LineLaw (restoreLatched ls s) := h

theorem lineLaw_restore (strap : BitVec 6) (inhibit : Bool) (a b : Option Image) (k : Kept) (s : State) :
    LineLaw (restoreCourse strap inhibit a b k s) := by
  have course := restoreCourse_eq strap inhibit a b k s
  dsimp only at course
  rw [course]
  exact lineLaw_judged (lineLaw_restoreLatched k.latched (lineLaw_restoreReset strap inhibit a b k s))

end

/-- Settles O13: a request leaves a SENDING slot SENDING, an attempt takes one slot, and each of its ends leaves
none. -/
theorem stepKeepsLineInterface : Obligations.StepKeepsLineInterface := by
  intro s t hs he
  refine step_keeps keeps_line he (fun _ => ⟨hs.ground, hs.line⟩) (fun v _ k => lineLaw_settled v k.2)
    (passTime_keeps (P := LineLaw) hs.line) ?_ ?_ ?_
  · exact fun strap inhibit a b q _ _ => lockedCourse_eq strap inhibit a b _ ▸ lineLaw_locked strap inhibit a b _
  · exact fun strap inhibit q _ => setupCourse_eq strap inhibit _ ▸ lineLaw_setup strap inhibit _
  · exact fun strap inhibit cut a b image q _ _ _ _ => lineLaw_restore strap inhibit a b image.kept _

end Sys2Proof.Machine
end

section
/-! PROOFS. The presence marks with what they stand for (R181, R186, R189, R194, R195). -/

namespace Sys2Proof.Machine

-- In order, so that the proofs waiting on one another do not hold a stack each.
set_option Elab.async false

section
variable {s t : State}

/-! ### The marks and what they stand for -/

/-- The conditions that stand with the supply, the inhibit input and the time base. -/
def Cond.isBase (c : Cond) : Bool := c == .supplyLow || c == .inhibit || c == .clockFallback

/-- The presence marks, distinct, with three of them as given. -/
abbrev Marks (low inhibit fallback : Bool) (s : State) : Prop :=
  s.sup.present.Nodup ∧ s.isPresent .supplyLow = low ∧ s.isPresent .inhibit = inhibit
    ∧ s.isPresent .clockFallback = fallback

/-- The supply, the inhibit input and the time base as given. -/
abbrev Sources (low inhibit crystal : Bool) (run : Timer) (s : State) : Prop :=
  s.sup.supplyLow = low ∧ s.inhibitInput = inhibit ∧ s.sup.onCrystal = crystal ∧ s.sup.crystalTimer = run

/-- The marks with what they stand for; no run of the crystal outside fallback (R195). -/
abbrev Shown (s : State) : Prop :=
  Marks s.sup.supplyLow s.inhibitInput (!s.sup.onCrystal) s ∧ (s.sup.crystalTimer.isSome = true → s.sup.onCrystal = false)

theorem shown_of {low inhibit crystal : Bool} {run : Timer} (h : Marks low inhibit (!crystal) s)
    (k : Sources low inhibit crystal run s) (hr : run.isSome = true → crystal = false) : Shown s := by
  obtain ⟨rfl, rfl, rfl, rfl⟩ := k
  exact ⟨h, hr⟩

theorem nodup_appear {c : Cond} (h : s.sup.present.Nodup) (hc : s.isPresent c = false) :
    (s.sup.present ++ [c]).Nodup := by
  rw [List.nodup_append]
  refine ⟨h, List.nodup_singleton c, fun d hd e he => ?_⟩
  rw [List.mem_singleton.mp he]
  rintro rfl
  rw [State.isPresent, List.contains_eq_mem, decide_eq_false_iff_not] at hc
  exact hc hd

theorem latchParts_marks (low inhibit fallback : Bool) : LatchParts (Marks low inhibit fallback) fun c => !c.isBase where
  enter m s h _ _ := by
    unfold Marks State.isPresent
    rw [enterMode_sup]
    exact h
  appear c s hc h hp := by
    obtain ⟨distinct, hs, hi, hf⟩ := h
    have ne : ∀ d : Cond, d.isBase = true → c ≠ d := fun d hd e => by
      subst e
      rw [hd] at hc
      cases hc
    exact ⟨nodup_appear distinct hp, (isPresent_append_of_ne (ne _ rfl)).trans hs,
      (isPresent_append_of_ne (ne _ rfl)).trans hi, (isPresent_append_of_ne (ne _ rfl)).trans hf⟩
  vanish c s hc h := by
    obtain ⟨distinct, hs, hi, hf⟩ := h
    have ne : ∀ d : Cond, d.isBase = true → c ≠ d := fun d hd e => by
      subst e
      rw [hd] at hc
      cases hc
    exact ⟨distinct.filter _, (isPresent_filter_of_ne (ne _ rfl)).trans hs,
      (isPresent_filter_of_ne (ne _ rfl)).trans hi, (isPresent_filter_of_ne (ne _ rfl)).trans hf⟩

theorem latchParts_sources (low inhibit crystal : Bool) (run : Timer) : LatchParts (Sources low inhibit crystal run) where
  enter m s h _ _ := by
    unfold Sources
    rw [enterMode_sup, (aside_enterMode m s).inhibitInput]
    exact h

/-- The marks, with one of the three about to change, and the sources as they stand. -/
abbrev Both (low inhibit fallback : Bool) (l i c : Bool) (run : Timer) (s : State) : Prop :=
  Marks low inhibit fallback s ∧ Sources l i c run s

theorem moves_both (low inhibit fallback l i c : Bool) (run : Timer) :
    Moves (Both low inhibit fallback l i c run) fun c => !c.isBase && true :=
  (latchParts_marks low inhibit fallback).moves.and (latchParts_sources l i c run).moves

/-- What holds of the marks and the sources holds of the law. -/
theorem moves_shown : Moves Shown fun c => !c.isBase && true where
  enter m s h hs hm := shown_of ((moves_both _ _ _ _ _ _ _).enter m s ⟨h.1, rfl, rfl, rfl, rfl⟩ hs hm).1
    ((moves_both _ _ _ _ _ _ _).enter m s ⟨h.1, rfl, rfl, rfl, rfl⟩ hs hm).2 h.2
  pause _ _ h := h
  latch c s hc h hl := shown_of ((moves_both _ _ _ _ _ _ _).latch c s hc ⟨h.1, rfl, rfl, rfl, rfl⟩ hl).1
    ((moves_both _ _ _ _ _ _ _).latch c s hc ⟨h.1, rfl, rfl, rfl, rfl⟩ hl).2 h.2
  appear c s hc h hp := shown_of ((moves_both _ _ _ _ _ _ _).appear c s hc ⟨h.1, rfl, rfl, rfl, rfl⟩ hp).1
    ((moves_both _ _ _ _ _ _ _).appear c s hc ⟨h.1, rfl, rfl, rfl, rfl⟩ hp).2 h.2
  vanish c s hc h := shown_of ((moves_both _ _ _ _ _ _ _).vanish c s hc ⟨h.1, rfl, rfl, rfl, rfl⟩).1
    ((moves_both _ _ _ _ _ _ _).vanish c s hc ⟨h.1, rfl, rfl, rfl, rfl⟩).2 h.2

/-! ### The onset and the end of one of the three -/

theorem latchParts_nodup : LatchParts fun t : State => t.sup.present.Nodup where
  enter m s h _ _ := by rw [enterMode_sup]; exact h
  appear _ _ _ h hp := nodup_appear h hp
  vanish _ _ _ h := h.filter _

theorem marks_raise {low inhibit fallback : Bool} (c : Cond) (h : Marks low inhibit fallback s) :
    Marks (c == .supplyLow || low) (c == .inhibit || inhibit) (c == .clockFallback || fallback) (raiseCond c s) := by
  obtain ⟨distinct, rfl, rfl, rfl⟩ := h
  refine ⟨latchParts_nodup.moves.raise c rfl distinct, ?_, ?_, ?_⟩ <;> rw [raiseCond_isPresent, Bool.beq_comm]

theorem marks_lapse {low inhibit fallback : Bool} (c : Cond) (h : Marks low inhibit fallback s) :
    Marks (c != .supplyLow && low) (c != .inhibit && inhibit) (c != .clockFallback && fallback) (lapseCond c s) := by
  obtain ⟨distinct, rfl, rfl, rfl⟩ := h
  refine ⟨latchParts_nodup.moves.lapse c rfl distinct, ?_, ?_, ?_⟩ <;> rw [lapseCond_isPresent, bne, bne, Bool.beq_comm]

theorem sources_raise {l i c : Bool} {run : Timer} (d : Cond) (h : Sources l i c run s) :
    Sources l i c run (raiseCond d s) :=
  (latchParts_sources l i c run).moves.raise d rfl h

theorem sources_lapse {l i c : Bool} {run : Timer} (d : Cond) (h : Sources l i c run s) :
    Sources l i c run (lapseCond d s) :=
  (latchParts_sources l i c run).moves.lapse d rfl h

theorem plain_not_base {c : Cond} (h : c.isPlain = true) : (!c.isBase && true) = true := by
  cases c <;> simp_all [Cond.isPlain, Cond.isBase]

theorem channelParts_both (low inhibit fallback l i c : Bool) (run : Timer) :
    ChannelParts (Both low inhibit fallback l i c run) := {}

theorem channelParts_shown : ChannelParts Shown := {}

theorem shown_enterMode (m : Mode) (h : Shown s) : Shown (enterMode m s) := by
  unfold Shown Marks State.isPresent
  rw [enterMode_sup, (aside_enterMode m s).inhibitInput]
  exact h

theorem joinParts_shown : JoinParts Shown where
  adopt s h := by
    obtain ⟨st, e⟩ := adoptStack_eq (adoptedHeight s) (adoptedMaturity s) (setHeights (adoptedHeight s) s)
    rw [e]
    exact h
  leave m _ h _ _ := shown_enterMode m h

theorem jackKeeps_shown : JackKeeps Shown True :=
  channelParts_shown.movedParts.jacksApart moves_shown
    (fun s h hi => by
      obtain ⟨marks, run⟩ := h
      have credited : Both s.sup.supplyLow false (!s.sup.onCrystal) s.sup.supplyLow true s.sup.onCrystal s.sup.crystalTimer
          (creditStrokes s (updateAll (Channel.inhibit s.now) { s with inhibitInput := true })) :=
        (channelParts_both _ _ _ _ _ _ _).movedParts.creditStrokes (moves_both _ _ _ _ _ _ _) (fun _ _ => trivial) rfl
          ⟨hi ▸ marks, rfl, rfl, rfl, rfl⟩
      exact shown_of (marks_raise .inhibit credited.1) (sources_raise .inhibit credited.2) run)
    (fun s h hi => by
      obtain ⟨marks, run⟩ := h
      have lapsed := marks_lapse .inhibit (s := updateAll (Channel.release s.setup s.now (s.ctl.mode == .reduced))
        { s with inhibitInput := false }) marks
      exact shown_of lapsed (sources_lapse .inhibit ⟨rfl, rfl, rfl, rfl⟩) run)
    (hC := fun _ => plain_not_base)

theorem guardKeeps_shown : GuardKeeps Shown True where
  clear _ _ h _ := moves_shown.clear h
  loopAsserted _ h _ := moves_shown.loopAsserted h
  loopReleased _ _ _ h _ e := moves_shown.loopReleased h e
  crystalIdle _ h _ := ⟨h.1, nofun⟩
  crystalStops s h hc := by
    obtain ⟨marks, -⟩ := h
    exact shown_of (crystal := false) (marks_raise .clockFallback
      (s := { s with sup.crystalTimer := none, sup.onCrystal := false }) marks)
      (sources_raise .clockFallback ⟨rfl, rfl, rfl, rfl⟩) fun _ => rfl
  crystalRuns _ _ h hc := ⟨h.1, fun _ => hc⟩
  crystalBack s h := by
    obtain ⟨marks, -⟩ := h
    exact shown_of (crystal := true) (run := none) (marks_lapse .clockFallback
      (s := { s with sup.crystalTimer := none, sup.onCrystal := true }) marks)
      (sources_lapse .clockFallback ⟨rfl, rfl, rfl, rfl⟩) nofun

theorem supplyKeeps_shown : SupplyKeeps Shown where
  supplyLow s t h _ e := by
    obtain ⟨marks, run⟩ := h
    have raised : Shown t := e ▸ shown_of (low := true)
      (marks_raise .supplyLow (s := { s with sup.supplyLow := true }) marks)
      (sources_raise .supplyLow ⟨rfl, rfl, rfl, rfl⟩) run
    refine ite_keeps (fun _ => raised) fun _ => ?_
    exact channelParts_shown.movedParts.creditStrokes moves_shown (fun _ _ => trivial) (aside_enterReduced t).join_state
      (FeedParts.enterReduced (P := Shown) {} raised)
  supplyRecovery s t h _ e := by
    obtain ⟨marks, run⟩ := h
    have lapsed : Shown t := e ▸ shown_of (low := false)
      (marks_lapse .supplyLow (s := { s with sup.supplyLow := false }) marks)
      (sources_lapse .supplyLow ⟨rfl, rfl, rfl, rfl⟩) run
    exact ite_keeps (fun _ => shown_enterMode _ lapsed) fun _ => lapsed

theorem keeps_shown : Keeps Shown :=
  have F : FeedParts Shown := {}
  have M := moves_shown
  have J := joinParts_shown
  { steer := M.steering fun _ => plain_not_base
    jacks := jackKeeps_shown
    concrete := F.concrete M (hC := fun _ => plain_not_base)
    line := M.line
    peers := M.peers F fun _ k _ => J.decide M k
    setup := M.setup J fun m _ h => shown_enterMode m h
    guards := guardKeeps_shown
    supply := supplyKeeps_shown }

/-! ### The close of a command and the resets -/

/-- The close of a command ends every EXTEND TIMEOUT whose stroke is over (R186). -/
theorem presence_settled (v : State) {u : State} (h : Shown u) : PresenceLaw (settled v u) := by
  obtain ⟨⟨distinct, low, inhibit, fallback⟩, run⟩ := h
  have shown : ∀ c : Cond, (∀ ch : Ch, c ≠ .extendTimeout ch) → (settled v u).isPresent c = u.isPresent c :=
    fun c hc => settled_isPresent v u hc
  have low := (shown .supplyLow fun _ => nofun).trans low
  have inhibit := (shown .inhibit fun _ => nofun).trans inhibit
  have fallback := (shown .clockFallback fun _ => nofun).trans fallback
  clear shown
  obtain ⟨busy, e⟩ := settled_spec v u
  rw [e] at low inhibit fallback ⊢
  refine ⟨distinct.filter _, low, inhibit, fallback, run, fun ch _ k => ?_⟩
  have ended : extendTimeoutOver u (.extendTimeout ch) = true := k
  show (u.sup.present.filter fun c => !extendTimeoutOver u c).contains (.extendTimeout ch) = false
  rw [List.contains_eq_mem, decide_eq_false_iff_not, List.mem_filter, ended]
  exact fun q => absurd q.2 nofun

/-- A reset leaves CLOCK FALLBACK, and INHIBIT with its input. -/
theorem presence_withInhibit {inhibit : Bool} (hp : s.sup.present = [.clockFallback])
    (hs : Sources false inhibit false none s) : PresenceLaw (withInhibit inhibit s) := by
  obtain ⟨low, input, crystal, run⟩ := hs
  have list : (withInhibit inhibit s).sup.present
      = if inhibit then [.clockFallback, .inhibit] else [.clockFallback] := by
    show (if inhibit then s.sup.present ++ [.inhibit] else s.sup.present) = _
    rw [hp]
    rfl
  have sources : Sources false inhibit false none (withInhibit inhibit s) := ⟨low, input, crystal, run⟩
  obtain ⟨low, input, crystal, run⟩ := sources
  unfold PresenceLaw State.isPresent
  rw [list, low, input, crystal, run]
  cases inhibit
  · exact ⟨by decide, rfl, rfl, rfl, nofun, fun ch _ _ => by cases ch <;> rfl⟩
  · exact ⟨by decide, rfl, rfl, rfl, nofun, fun ch _ _ => by cases ch <;> rfl⟩

/-- The marks of a restore: distinct, with the internal oscillator and the supply and input as found. -/
abbrev Restarted (inhibit : Bool) (s : State) : Prop :=
  s.sup.present.Nodup ∧ Sources false inhibit false none s

theorem moves_restarted (inhibit : Bool) : Moves (Restarted inhibit) fun _ => true :=
  latchParts_nodup.moves.and (latchParts_sources false inhibit false none).moves

theorem restarted_reportFaults {inhibit : Bool} (v : State) (h : Restarted inhibit s) :
    Restarted inhibit (reportFaults v s) := by
  rcases reportFaults_cases v s with ⟨-, e⟩ | ⟨-, e⟩ <;> rw [e] <;> exact h

theorem restarted_judged {inhibit : Bool} (h : Restarted inhibit s) :
    Restarted inhibit (inhibitAtReset (judgePeers (reportFaults s (judgeSpread s)))) :=
  have peers := (moves_restarted inhibit).judgePeers
    (restarted_reportFaults s ((moves_restarted inhibit).judgeSpread h))
  ite_keeps (P := Restarted inhibit)
    (fun _ => restarted_reportFaults _ ((moves_restarted inhibit).raise .inhibit rfl peers)) fun _ => peers

theorem restarted_restoreCourse (strap : BitVec 6) (inhibit : Bool) (a b : Option Image) (k : Kept) (s : State) :
    Restarted inhibit (restoreCourse strap inhibit a b k s) := by
  have reset : Restarted inhibit (restoreLatched k.latched (restoreReset strap inhibit a b k s)) :=
    ⟨List.nodup_singleton Cond.clockFallback, rfl, rfl, rfl, rfl⟩
  have course := restoreCourse_eq strap inhibit a b k s
  dsimp only at course
  rw [course]
  exact restarted_judged reset

theorem presence_restore (strap : BitVec 6) (inhibit : Bool) (a b : Option Image) (k : Kept) (s : State) :
    PresenceLaw (restoreCourse strap inhibit a b k s) := by
  obtain ⟨distinct, low, input, crystal, run⟩ := restarted_restoreCourse strap inhibit a b k s
  have shown (c : Cond) (hn : c ≠ .neighbourLost) (hp : c ≠ .peerSilent) :=
    restoreCourse_isPresent (strap := strap) (inhibit := inhibit) (a := a) (b := b) (k := k) (s := s) hn hp
  refine ⟨distinct, ?_, ?_, ?_, fun _ => crystal, fun ch _ _ => ?_⟩
  · rw [shown .supplyLow (by decide) (by decide), low]
    rfl
  · rw [shown .inhibit (by decide) (by decide), input]
    cases inhibit <;> rfl
  · rw [shown .clockFallback (by decide) (by decide), crystal]
    rfl
  · rw [shown (.extendTimeout ch) nofun nofun]
    cases ch <;> rfl

end

/-- Settles O16: each of the three onsets and ends comes with the change that it stands for. -/
theorem stepKeepsPresence : Obligations.StepKeepsPresence := by
  intro s t hs he
  have shown : Shown s := by
    obtain ⟨distinct, low, inhibit, fallback, run, -⟩ := hs.presence
    exact ⟨⟨distinct, low, inhibit, fallback⟩, run⟩
  refine step_keeps keeps_shown he (fun _ => shown) (fun v _ k => presence_settled v k)
    (passTime_keeps (P := PresenceLaw) hs.presence) ?_ ?_ ?_
  · exact fun strap inhibit a b q _ _ => presence_withInhibit rfl ⟨rfl, rfl, rfl, rfl⟩
  · exact fun strap inhibit q _ => presence_withInhibit rfl ⟨rfl, rfl, rfl, rfl⟩
  · exact fun strap inhibit cut a b image q _ _ _ _ => presence_restore strap inhibit a b image.kept _

end Sys2Proof.Machine
end

section
/-! PROOFS. What the close of a command leaves of the state its blocks have made, and the commands and events
without effect (R13, R16, R17, R150, R167). -/

namespace Sys2Proof.Machine

-- In order, so that the proofs waiting on one another do not hold a stack each.
set_option Elab.async false

section
variable (s t : State)

/-! ### The close of a command, item by item -/

@[simp] theorem settled_now : (settled s t).now = t.now := by
  obtain ⟨busy, e⟩ := settled_spec s t
  rw [e]

@[simp] theorem settled_inhibitInput : (settled s t).inhibitInput = t.inhibitInput := by
  obtain ⟨busy, e⟩ := settled_spec s t
  rw [e]

@[simp] theorem settled_ctl : (settled s t).ctl = t.ctl := by
  obtain ⟨busy, e⟩ := settled_spec s t
  rw [e]

@[simp] theorem settled_plan : (settled s t).plan = t.plan := by
  obtain ⟨busy, e⟩ := settled_spec s t
  rw [e]

@[simp] theorem settled_seq : (settled s t).seq = t.seq := by
  obtain ⟨busy, e⟩ := settled_spec s t
  rw [e]

@[simp] theorem settled_stack : (settled s t).stack = t.stack := by
  obtain ⟨busy, e⟩ := settled_spec s t
  rw [e]

@[simp] theorem settled_cure : (settled s t).cure = t.cure := by
  obtain ⟨busy, e⟩ := settled_spec s t
  rw [e]

@[simp] theorem settled_peers : (settled s t).peers = t.peers := by
  obtain ⟨busy, e⟩ := settled_spec s t
  rw [e]

@[simp] theorem settled_join : (settled s t).join = t.join := by
  obtain ⟨busy, e⟩ := settled_spec s t
  rw [e]

@[simp] theorem settled_setup : (settled s t).setup = t.setup := by
  simp [State.setup]

@[simp] theorem settled_chan (ch : Ch) : (settled s t).chan ch = t.chan ch := by
  simp [State.chan]

/-- The line interface but for a requested report and the busy-line timer. -/
theorem settled_line :
    ∃ busy, (settled s t).line
      = { t.line with
          report := if faultView (endExtendTimeouts t) = faultView s then t.line.report
            else t.line.report.request .urgent
          busyTimer := busy } := by
  obtain ⟨busy, e⟩ := settled_spec s t
  exact ⟨busy, by rw [e]⟩

@[simp] theorem settled_report : (settled s t).line.report
    = if faultView (endExtendTimeouts t) = faultView s then t.line.report
      else t.line.report.request .urgent := by
  obtain ⟨busy, e⟩ := settled_line s t
  rw [e]

@[simp] theorem settled_setupRequest : (settled s t).line.setupRequest = t.line.setupRequest := by
  obtain ⟨busy, e⟩ := settled_line s t
  rw [e]

@[simp] theorem settled_errors : (settled s t).line.errors = t.line.errors := by
  obtain ⟨busy, e⟩ := settled_line s t
  rw [e]

@[simp] theorem settled_muted : (settled s t).line.muted = t.line.muted := by
  obtain ⟨busy, e⟩ := settled_line s t
  rw [e]

@[simp] theorem settled_muteTimer : (settled s t).line.muteTimer = t.line.muteTimer := by
  obtain ⟨busy, e⟩ := settled_line s t
  rw [e]

@[simp] theorem settled_reportTimer : (settled s t).line.reportTimer = t.line.reportTimer := by
  obtain ⟨busy, e⟩ := settled_line s t
  rw [e]

@[simp] theorem settled_frame : (settled s t).line.frame = t.line.frame := by
  obtain ⟨busy, e⟩ := settled_line s t
  rw [e]

/-- The feed controller but for the blank timer. -/
theorem settled_feed :
    (settled s t).feed
      = { t.feed with
          blankTimer := if anyMoving s && !anyMoving t then blankStart t else t.feed.blankTimer } := by
  obtain ⟨busy, e⟩ := settled_spec s t
  rw [e]

/-- The supervisor but for the presence marks. -/
theorem settled_sup :
    (settled s t).sup
      = { t.sup with present := t.sup.present.filter fun c => !extendTimeoutOver t c } := by
  obtain ⟨busy, e⟩ := settled_spec s t
  rw [e]

end

/-! ### The close where no channel comes to rest -/

section
variable {s t : State}

/-- Where no EXTEND TIMEOUT arose and no channel changed, a sound state has none to end (R186). -/
theorem endExtendTimeouts_of_chans (hs : Sound s) (hc : t.seq.chans = s.seq.chans)
    (hp : ∀ ch : Ch, t.isPresent (.extendTimeout ch) = true → s.isPresent (.extendTimeout ch) = true) :
    endExtendTimeouts t = t := by
  obtain ⟨-, -, -, -, -, hover⟩ := hs.presence
  have keep : ∀ c ∈ t.sup.present, extendTimeoutOver t c = false := by
    intro c hmem
    cases c with
    | extendTimeout ch =>
      have same : extendTimeoutOver t (.extendTimeout ch) = extendTimeoutOver s (.extendTimeout ch) := by
        simp only [extendTimeoutOver, State.chan, hc]
      have present : s.isPresent (.extendTimeout ch) = true := hp ch (by simpa [State.isPresent] using hmem)
      rw [same, ← Bool.not_eq_true]
      intro hend
      rw [hover ch (Ch.mem_all ch) hend] at present
      cases present
    | _ => rfl
  have all : t.sup.present.filter (fun c => !extendTimeoutOver t c) = t.sup.present :=
    List.filter_eq_self.mpr fun c hmem => by simp [keep c hmem]
  unfold endExtendTimeouts
  rw [all]

theorem anyMoving_of_chans (hc : t.seq.chans = s.seq.chans) : anyMoving t = anyMoving s := by
  simp only [anyMoving, hc]

/-- A command that changes no channel and ends no EXTEND TIMEOUT closes with a report of a changed fault set
and the busy-line timer alone. -/
theorem settled_calm (hs : Sound s) (hc : t.seq.chans = s.seq.chans)
    (hp : ∀ ch : Ch, t.isPresent (.extendTimeout ch) = true → s.isPresent (.extendTimeout ch) = true) :
    (settled s t).body = t.body ∧ (settled s t).sup = t.sup ∧ (settled s t).feed = t.feed
      ∧ (settled s t).line.report
        = if faultView t = faultView s then t.line.report else t.line.report.request .urgent := by
  have ends := endExtendTimeouts_of_chans hs hc hp
  have present : t.sup.present.filter (fun c => !extendTimeoutOver t c) = t.sup.present :=
    congrArg (fun u : State => u.sup.present) ends
  obtain ⟨busy, e⟩ := settled_spec s t
  rw [ends, present, anyMoving_of_chans hc, Bool.and_not_self] at e
  rw [e]
  exact ⟨rfl, rfl, rfl, rfl⟩

/-! ### Nothing changes -/

/-- A command answers the state it found, as far as a statement reads it. -/
abbrev Unchanged (c : Instr) (s : State) : Prop :=
  ∃ t, exec c s = .next t ∧ t.body = s.body ∧ t.line.report = s.line.report

/-- A command whose blocks leave the station alone changes nothing. -/
theorem unchanged_of (hs : Sound s) {c : Instr} (he : exec c s = finish s s) : Unchanged c s :=
  ⟨settled s s, he, settled_of_same hs rfl rfl⟩

theorem stopStation_idle (h : s.ctl.mode.climbs = false) : stopStation s = s := by
  simp [stopStation, h]

theorem pauseStation_idle (h : s.ctl.mode.climbs = false) : pauseStation s = s := by
  simp [pauseStation, h]

theorem resumeStation_deaf (h : s.ctl.mode.takesCommands = false) (k : Nat) : resumeStation k s = s := by
  simp [resumeStation, h]

theorem clearStation_deaf (h : s.ctl.mode.takesCommands = false) : clearStation s = s := by
  simp [clearStation, h]

theorem setRateScale_deaf (h : s.ctl.mode.takesCommands = false) (p : Nat) : setRateScale p s = s := by
  simp [setRateScale, h]

theorem setFeedHold_deaf (h : s.ctl.mode.takesCommands = false) (a : Nat) : setFeedHold a s = s := by
  simp [setFeedHold, h]

/-- The modes that take no deck command (R13). -/
theorem mem_deaf_iff {m : Mode} : m ∈ [.setup, .locked, .joining, .reduced] ↔ m.takesCommands = false := by
  cases m <;> decide

theorem climbs_of_deaf (h : s.ctl.mode.takesCommands = false) : s.ctl.mode.climbs = false := by
  rw [← Bool.not_eq_true] at h ⊢
  exact mt Mode.takesCommands_of_climbs h

theorem addressed_eq_false_iff (sender : BitVec 6) (target : Byte) :
    addressed s sender target = false
      ↔ sender.toNat < 60 ∨ (target.toNat ≠ 0 ∧ target.toNat ≠ s.join.ownNumber) := by
  simp only [addressed, isConsole, Bool.and_eq_false_iff, decide_eq_false_iff_not, Bool.or_eq_false_iff,
    beq_eq_false_iff_ne, Nat.not_le]

/-- The seven deck commands off the station's address (R13). -/
theorem exec_deck_unaddressed {sender : BitVec 6} {target : Byte} (h : addressed s sender target = false)
    (argument : Byte) :
    ∀ c ∈ [Instr.start sender target argument, .stop sender target argument,
        .pause sender target argument, .resume sender target argument,
        .clear sender target argument, .rateScale sender target argument,
        .feedHold sender target argument], exec c s = finish s s := by
  simp [exec, execStart, execStop, execPause, execResume, execClear, execRateScale, execFeedHold, h]

/-- The six deck commands that a mode without deck commands ignores (R13). -/
theorem exec_deck_deaf (h : s.ctl.mode.takesCommands = false) (sender : BitVec 6) (target argument : Byte) :
    ∀ c ∈ [Instr.stop sender target argument, .pause sender target argument,
        .resume sender target argument, .clear sender target argument,
        .rateScale sender target argument, .feedHold sender target argument], exec c s = finish s s := by
  simp [exec, execStop, execPause, execResume, execClear, execRateScale, execFeedHold,
    stopStation_idle (climbs_of_deaf h), pauseStation_idle (climbs_of_deaf h), resumeStation_deaf h,
    clearStation_deaf h, setRateScale_deaf h, setFeedHold_deaf h]

/-- An event of the setup, the join or the stroke cycle whose timer is stopped or whose moment has not come. -/
theorem exec_stale_cycle :
    ∀ e ∈ [(s.join.windowTimer.isNone, Instr.windowExpiry),
        (s.join.requestTimer.isNone, .setupRequestTimerExpiry),
        (s.join.listenTimer.isNone, .joinListenExpiry),
        (s.seq.cycleTimer.isNone, .cycleTimerExpiry),
        (!s.seq.expiryHeld || !allAtRest s, .cycleCompletion),
        (!s.setup.banked || !bankAReady s || !bankBWaiting s, .bankBStart)],
      e.1 = true → exec e.2 s = finish s s := by
  simp only [List.forall_mem_cons, List.not_mem_nil, false_imp_iff, implies_true, and_true,
    Option.isNone_iff_eq_none, Bool.or_eq_true, Bool.not_eq_true']
  refine ⟨fun h => ?_, fun h => ?_, fun h => ?_, fun h => ?_, ?_, ?_⟩
  · simp [exec, execWindowExpiry, h]
  · simp [exec, execSetupRequestTimerExpiry, h]
  · simp [exec, execJoinListenExpiry, h]
  · simp [exec, execCycleTimerExpiry, h]
  · rintro (h | h) <;> simp [exec, execCycleCompletion, cycleComplete, h]
  · rintro ((h | h) | h) <;> simp [exec, execBankBStart, bankBDue, h]

/-- A channel's event out of its state or with its timer stopped. -/
theorem exec_stale_channel (ch : Ch) :
    ∀ e ∈ [((s.chan ch).deferred.isNone, Instr.deferredValveOpening ch),
        ((s.chan ch).strokeTimer.isNone || (s.chan ch).state != .extend, .tExtExpiry ch),
        ((s.chan ch).strokeTimer.isNone || (s.chan ch).state != .hold, .holdEnd ch),
        ((s.chan ch).strokeTimer.isNone || (s.chan ch).state != .retract || (s.chan ch).blind, .tRetExpiry ch),
        ((s.chan ch).strokeTimer.isNone || (s.chan ch).state != .retract || !(s.chan ch).blind,
          .blindRetractionEnd ch)],
      e.1 = true → exec e.2 s = finish s s := by
  simp only [List.forall_mem_cons, List.not_mem_nil, false_imp_iff, implies_true, and_true,
    Option.isNone_iff_eq_none, Bool.or_eq_true, Bool.not_eq_true', bne_iff_ne]
  refine ⟨fun h => ?_, ?_, ?_, ?_, ?_⟩
  · simp [exec, execDeferredValveOpening, h]
  · rintro (h | h) <;> simp [exec, execTExtExpiry, h]
  · rintro (h | h) <;> simp [exec, execHoldEnd, h]
  · rintro ((h | h) | h) <;> simp [exec, execTRetExpiry, h]
  · rintro ((h | h) | h) <;> simp [exec, execBlindRetractionEnd, h]

theorem expireAt_none : expireAt none s = s := by simp [expireAt]

/-- An event of the feed or of the line out of its condition or with its timer stopped. -/
theorem exec_stale_line :
    ∀ e ∈ [(s.feed.blankTimer.isNone, Instr.blankTimerExpiry),
        (s.feed.settleTimer.isNone, .settleTimerExpiry),
        (s.feed.feedTimer.isNone, .feedTimerExpiry),
        (!attempting s, .arbitrationLost), (!attempting s, .transmitError),
        (!attempting s, .sentWhole), (attempting s, .lineIdle),
        (s.line.muteTimer.isNone, .muteTimerExpiry),
        (s.line.busyTimer.isNone, .busyLineTimerExpiry)],
      e.1 = true → exec e.2 s = finish s s := by
  simp only [List.forall_mem_cons, List.not_mem_nil, false_imp_iff, implies_true, and_true,
    Option.isNone_iff_eq_none, Bool.not_eq_true']
  refine ⟨fun h => ?_, fun h => ?_, fun h => ?_, fun h => ?_, fun h => ?_, fun h => ?_, fun h => ?_,
    fun h => ?_, fun h => ?_⟩
  · have stopped : ({ s.feed with blankTimer := none } : Feed) = s.feed := by rw [← h]
    have same : ({ expireAt s.feed.blankTimer s with feed := { s.feed with blankTimer := none } } : State) = s := by
      rw [stopped, h, expireAt_none]
    exact congrArg (finish s) same
  · simp [exec, execSettleTimerExpiry, h]
  · simp [exec, execFeedTimerExpiry, h]
  · simp [exec, execArbitrationLost, h]
  · simp [exec, execTransmitError, h]
  · simp [exec, execSentWhole, h]
  · simp [exec, execLineIdle, h]
  · simp [exec, execMuteTimerExpiry, h]
  · simp [exec, execBusyLineTimerExpiry, h]

/-- An event of the supervisor whose timer is stopped or whose input stands already. -/
theorem exec_stale_guard :
    ∀ e ∈ [(s.sup.clearTimer.isNone, Instr.clearPendingTimerExpiry),
        (s.sup.crystalTimer.isNone, .crystalRunTimerExpiry),
        (s.sup.loopSensed, .haltLoopSensedAsserted),
        (!s.sup.loopSensed, .haltLoopSensedReleased),
        (s.sup.supplyLow, .supplyLow), (!s.sup.supplyLow, .supplyRecovery),
        (s.inhibitInput, .inhibitAsserted),
        (!s.inhibitInput, .inhibitReleased)],
      e.1 = true → exec e.2 s = finish s s := by
  simp only [List.forall_mem_cons, List.not_mem_nil, false_imp_iff, implies_true, and_true,
    Option.isNone_iff_eq_none, Bool.not_eq_true']
  refine ⟨fun h => ?_, fun h => ?_, fun h => ?_, fun h => ?_, fun h => ?_, fun h => ?_, fun h => ?_,
    fun h => ?_⟩
  · simp [exec, execClearPendingTimerExpiry, h]
  · simp [exec, execCrystalRunTimerExpiry, h]
  · simp [exec, execHaltLoopSensedAsserted, h]
  · simp [exec, execHaltLoopSensedReleased, h]
  · simp [exec, execSupplyLow, h]
  · simp [exec, execSupplyRecovery, h]
  · simp [exec, execInhibitAsserted, h]
  · simp [exec, execInhibitReleased, h]

theorem exec_localClear_idle {low : Nat}
    (h : low < 50 ∨ s.ctl.mode.takesCommands = false) : exec (.localClear low) s = finish s s := by
  rcases h with h | h
  · have short : ¬Config.localClearLow ≤ low := Nat.not_le.mpr h
    simp [exec, execLocalClear, short]
  · simp [exec, execLocalClear, clearStation_deaf h]

theorem exec_setupCommit_ignored {sender : BitVec 6} {target : Byte}
    (h : s.ctl.mode ≠ .setup ∨ addressed s sender target = false) (check : Byte) :
    exec (.setupCommit sender target check) s = finish s s := by
  rcases h with h | h <;> simp [exec, execSetupCommit, h]

/-- Settles O57: each of these commands and events leaves its blocks as they are, and the close of a command
adds nothing to a station that stands. -/
theorem commandsWithoutEffect : Obligations.CommandsWithoutEffect := by
  intro s sender target argument low hs
  have whole : ∀ c, exec c s = finish s s → ∃ t, exec c s = .next t ∧ t.body = s.body
      ∧ t.line.report = s.line.report ∧ t.join = s.join := fun c he => by
    obtain ⟨hb, hr⟩ := settled_of_same hs rfl rfl
    exact ⟨settled s s, he, hb, hr, settled_join s s⟩
  refine ⟨fun _ => whole _ rfl, fun _ => whole _ rfl, fun h => ?_, fun h => ?_, fun h c hc => ?_, fun h check => ?_,
    fun h c hc => ?_, fun ch e he hstale => ?_⟩
  · rw [mem_deaf_iff] at h
    exact unchanged_of hs (exec_localClear_idle h)
  · rw [mem_deaf_iff] at h
    rcases h with h | h
    · exact unchanged_of hs (exec_deck_unaddressed h argument _ (by simp))
    · exact unchanged_of hs (exec_deck_deaf h sender target argument _ (by simp))
  · exact unchanged_of hs (exec_deck_unaddressed ((addressed_eq_false_iff sender target).mpr h) argument c hc)
  · rw [← addressed_eq_false_iff] at h
    exact unchanged_of hs (exec_setupCommit_ignored h check)
  · rw [mem_deaf_iff] at h
    exact unchanged_of hs (exec_deck_deaf h sender target argument c hc)
  · refine unchanged_of hs ?_
    have split := List.mem_append (s := [_, _, _, _, _, _] ++ ([_, _, _, _, _] : List (Bool × Instr)))
      (t := [_, _, _, _, _, _, _, _, _] ++ ([_, _, _, _, _, _, _, _] : List (Bool × Instr))) |>.mp he
    simp only [List.mem_append] at split
    rcases split with (h | h) | (h | h)
    · exact exec_stale_cycle e h hstale
    · exact exec_stale_channel ch e h hstale
    · exact exec_stale_line e h hstale
    · exact exec_stale_guard e h hstale

end

end Sys2Proof.Machine
end

section
/-! PROOFS. The deck commands STOP, PAUSE, RATE SCALE and RESUME in a sound station (R7, R10, R14, R18). -/

namespace Sys2Proof.Machine

-- In order, so that the proofs waiting on one another do not hold a stack each.
set_option Elab.async false

section
variable {s : State} {m : Mode} {p : PauseSet}

/-! ### A mode taken on among the modes that feed -/

/-- A sound station in a mode that takes deck commands holds neither a return mode nor a PENDING SETUP REQUEST
(R17, R153). -/
theorem Sound.calm (hs : Sound s) (hm : s.ctl.mode.takesCommands = true) :
    s.ctl.returnMode = none ∧ s.line.setupRequest ≠ .pending := by
  obtain ⟨hret, -⟩ := hs.mode
  obtain ⟨-, -, -, hreq, -⟩ := hs.line
  have reduced := Mode.ne_reduced_of_takesCommands hm
  constructor
  · have absent : s.ctl.returnMode.isSome = false := by rw [hret]; simpa using reduced
    exact Option.not_isSome_iff_eq_none.mp (by simp [absent])
  · intro hp
    have setup : s.ctl.mode = .setup := (effectiveMode_of_takesCommands hm).symm.trans (hreq hp)
    rw [setup] at hm
    cases hm

/-- A mode taken on outside SETUP, where neither a return mode nor a SETUP REQUEST is dropped with it. -/
theorem takeMode_body (hm : m ≠ .setup) (hret : s.ctl.returnMode = none) (hreq : s.line.setupRequest ≠ .pending) :
    (takeMode m p s).body
      = { s with
          ctl.mode := m
          ctl.pause := p
          plan.last := if m.climbs then s.plan.last else .blank
          seq.cycleTimer :=
            if m.climbs then (if m.climbs && !s.ctl.mode.climbs then some s.now else s.seq.cycleTimer) else none
          seq.expiryHeld := m.climbs && !(m.climbs && !s.ctl.mode.climbs) && s.seq.expiryHeld }.body := by
  have leave : s.line.setupRequest.leaveSetup = s.line.setupRequest := by
    cases hq : s.line.setupRequest <;> simp_all [SetupSlot.leaveSetup]
  simp [takeMode, State.body, keepChange, requestReport, hm, leave, hret]

/-- The same where the station stays in CLIMBING and PAUSED: the plan and the cycle timer go on. -/
theorem takeMode_body_climbs (hm : m.climbs = true) (hc : s.ctl.mode.climbs = true)
    (hret : s.ctl.returnMode = none) (hreq : s.line.setupRequest ≠ .pending) :
    (takeMode m p s).body = { s with ctl.mode := m, ctl.pause := p }.body := by
  have setup : m ≠ .setup := by rintro rfl; cases hm
  rw [takeMode_body setup hret hreq]
  simp [hm, hc]

/-- An entry between modes that feed is the mode taken where the entry checks settle: the permission stands
(R110). -/
theorem enterMode_of_works {n : Mode} (hw : s.ctl.mode.works = true) (hn : n.works = true) (hm : m ≠ .climbing)
    (hsettle : settle m (entryPause m s) s = (n, p)) (hg : s.feed.state ≠ .idle → feedAllowed s = true) :
    enterMode m s = takeMode n p s := by
  have kept : feedAllowed (takeMode n p s) = feedAllowed s := by simp [feedAllowed, hn, hw]
  rw [enterMode_eq, hsettle, if_neg hm]
  exact rejudgeFeed_of_same kept fun h => kept.trans (hg h)

/-- The same for CLIMBING, which sets the ramp to 0 (R6). -/
theorem enterMode_climbing_of_works {n : Mode} (hw : s.ctl.mode.works = true) (hn : n.works = true)
    (hsettle : settle .climbing (entryPause .climbing s) s = (n, p))
    (hg : s.feed.state ≠ .idle → feedAllowed s = true) :
    enterMode .climbing s = takeMode n p { s with plan.ramp := 0 } := by
  have kept : feedAllowed (takeMode n p { s with plan.ramp := 0 }) = feedAllowed s := by
    simp [feedAllowed, hn, hw]
  rw [enterMode_eq, hsettle, if_pos rfl]
  exact rejudgeFeed_of_same kept fun h => kept.trans (hg h)

/-! ### STOP -/

/-- STOP in CLIMBING and PAUSED (R14, R22, R85). -/
theorem stopStation_climbs (hs : Sound s) (hc : s.ctl.mode.climbs = true) :
    (stopStation s).body
        = { s with
            ctl := { s.ctl with mode := .standing, pause := ⟨false, false, false, none⟩ }
            plan.last := ⟨0, none, .none, false, none, ⟨0, 0, 0, 0⟩⟩
            seq.cycleTimer := none
            seq.expiryHeld := false }.body
      ∧ (stopStation s).line.report = s.line.report.request .urgent := by
  have works := Mode.works_of_climbs hc
  obtain ⟨hret, hreq⟩ := hs.calm (Mode.takesCommands_of_climbs hc)
  obtain ⟨htop, -⟩ := hs.entry
  obtain ⟨-, hgate, -⟩ := hs.gate
  have settles : settle .standing (entryPause .standing s) s = (.standing, .empty) := by
    simp [settle, entryPause, Mode.works, Mode.climbs, htop works]
  have entered : stopStation s = takeMode .standing .empty s := by
    rw [stopStation, if_pos hc]
    exact enterMode_of_works works rfl nofun settles hgate
  rw [entered]
  exact ⟨takeMode_body nofun hret hreq, rfl⟩

/-! ### PAUSE -/

/-- PAUSE in CLIMBING enters PAUSED with OPERATOR alone (R7, R11). -/
theorem pauseStation_climbing (hs : Sound s) (hm : s.ctl.mode = .climbing) :
    (pauseStation s).body
        = { s with ctl := { s.ctl with mode := .paused, pause := ⟨true, false, false, none⟩ } }.body
      ∧ (pauseStation s).line.report = s.line.report.request .urgent := by
  have climbs : s.ctl.mode.climbs = true := by rw [hm]; rfl
  have works := Mode.works_of_climbs climbs
  obtain ⟨hret, hreq⟩ := hs.calm (Mode.takesCommands_of_climbs climbs)
  obtain ⟨-, hempty, -⟩ := hs.pause
  obtain ⟨htop, hwait⟩ := hs.entry
  obtain ⟨-, hgate, -⟩ := hs.gate
  have free : waitingSegment s = none := by
    rcases hwait climbs with h | h
    · rw [hempty hm] at h; cases h
    · exact h
  have joined : ({ s.ctl.pause with operator := true } : PauseSet) = ⟨true, false, false, none⟩ := by
    simp [hempty hm, PauseSet.empty]
  have settles : settle .paused (entryPause .paused { s with ctl.pause := ⟨true, false, false, none⟩ })
      { s with ctl.pause := ⟨true, false, false, none⟩ } = (.paused, ⟨true, false, false, none⟩) := by
    have entry : entryPause .paused { s with ctl.pause := ⟨true, false, false, none⟩ }
        = ⟨true, false, false, none⟩ := by simp [entryPause, hm, Mode.climbs]
    have top : atTop { s with ctl.pause := ⟨true, false, false, none⟩ } = false := htop works
    have waits : waitingSegment { s with ctl.pause := ⟨true, false, false, none⟩ } = none := free
    rw [entry, settle, top, addWaiting, waits]
    rfl
  have entered : pauseStation s
      = takeMode .paused ⟨true, false, false, none⟩ { s with ctl.pause := ⟨true, false, false, none⟩ } := by
    rcases addPause_cases (fun p => { p with operator := true }) s with ⟨-, h⟩ | ⟨h | ⟨h, -⟩, -⟩ | ⟨h, -⟩
    · rw [pauseStation, if_pos climbs, h, joined]
      exact enterMode_of_works works rfl nofun settles hgate
    · rw [hm] at h; cases h
    · rw [hm] at h; cases h
    · rw [climbs] at h; cases h
  rw [entered]
  exact ⟨takeMode_body_climbs rfl climbs hret hreq, rfl⟩

theorem pauseStation_paused (hm : s.ctl.mode = .paused) :
    pauseStation s = { s with ctl.pause.operator := true } := by
  simp [pauseStation, addPause, hm, Mode.climbs]

/-! ### RESUME -/

/-- The last member leaves: CLIMBING with the ramp at 0, or PAUSED at a segment that waits (R6, R10, R11). `s`
is the station with the set emptied. -/
theorem enterMode_climbing_of_emptied (hm : s.ctl.mode = .paused) (hempty : s.ctl.pause = .empty)
    (htop : atTop s = false) (hret : s.ctl.returnMode = none) (hreq : s.line.setupRequest ≠ .pending)
    (hgate : s.feed.state ≠ .idle → feedAllowed s = true) :
    let t := enterMode .climbing s
    t.body
        = { s with
            ctl := { s.ctl with
              mode := if waitingSegment s = none then .climbing else .paused
              pause := ⟨false, false, false, waitingSegment s⟩ }
            plan.ramp := 0 }.body
      ∧ t.line.report = s.line.report.request .urgent := by
  intro t
  have climbs : s.ctl.mode.climbs = true := by rw [hm]; rfl
  have settles : settle .climbing (entryPause .climbing s) s
      = (if waitingSegment s = none then .climbing else .paused, ⟨false, false, false, waitingSegment s⟩) := by
    have entry : entryPause .climbing s = .empty := by simp [entryPause, climbs, hempty]
    rw [entry]
    exact settle_climbing_empty htop
  have mode : (if waitingSegment s = none then Mode.climbing else .paused).climbs = true := by split <;> rfl
  have entered : t = takeMode (if waitingSegment s = none then .climbing else .paused)
      ⟨false, false, false, waitingSegment s⟩ { s with plan.ramp := 0 } :=
    enterMode_climbing_of_works (Mode.works_of_climbs climbs) (Mode.works_of_climbs mode) settles hgate
  rw [entered]
  exact ⟨takeMode_body_climbs mode climbs hret hreq, rfl⟩

/-- What RESUME 0 does in PAUSED under OPERATOR (R7). -/
theorem resumeStation_operator (hs : Sound s) (hm : s.ctl.mode = .paused) (ho : s.ctl.pause.operator = true) :
    (s.ctl.pause.faultHold = true ∨ s.ctl.pause.rejoin = true ∨ s.ctl.pause.segment ≠ none →
        resumeStation 0 s = { s with ctl.pause.operator := false })
      ∧ (s.ctl.pause.faultHold = false → s.ctl.pause.rejoin = false → s.ctl.pause.segment = none →
        (resumeStation 0 s).body = { s with
            ctl := { s.ctl with mode := .climbing, pause := ⟨false, false, false, none⟩ }
            plan.ramp := 0 }.body
          ∧ (resumeStation 0 s).line.report = s.line.report.request .urgent) := by
  have takes : s.ctl.mode.takesCommands = true := by rw [hm]; rfl
  have changed : ({ s.ctl.pause with operator := false } : PauseSet) ≠ s.ctl.pause := fun h => by
    have := congrArg PauseSet.operator h
    rw [ho] at this
    cases this
  have drops : resumeStation 0 s = dropPause (fun p => { p with operator := false }) s := by
    simp [resumeStation, takes]
  constructor
  · intro others
    have stays : ¬(s.ctl.mode = .paused
        ∧ ({ s.ctl.pause with operator := false } : PauseSet).isEmpty = true) := by
      rintro ⟨-, h⟩
      simp only [PauseSet.isEmpty, Bool.and_eq_true, Bool.not_eq_true', Option.isNone_iff_eq_none] at h
      obtain ⟨⟨⟨-, h1⟩, h2⟩, h3⟩ := h
      rcases others with h | h | h
      · exact absurd (h.symm.trans h1) nofun
      · exact absurd (h.symm.trans h2) nofun
      · exact h h3
    rw [drops, dropPause]
    exact (if_neg changed).trans (if_neg stays)
  · intro hf hr hg
    have climbs : s.ctl.mode.climbs = true := by rw [hm]; rfl
    obtain ⟨hret, hreq⟩ := hs.calm takes
    obtain ⟨htop, hwait⟩ := hs.entry
    obtain ⟨-, hgate, -⟩ := hs.gate
    have free : waitingSegment s = none := by
      rcases hwait climbs with h | h
      · rw [hg] at h; cases h
      · exact h
    have emptied : ({ s.ctl.pause with operator := false } : PauseSet) = .empty := by
      simp [PauseSet.empty, hf, hr, hg]
    have enters : resumeStation 0 s = enterMode .climbing { s with ctl.pause := .empty } := by
      rw [drops, dropPause]
      refine (if_neg changed).trans ((if_pos ⟨hm, ?_⟩).trans ?_) <;> rw [emptied]
      rfl
    obtain ⟨hbody, hreport⟩ := enterMode_climbing_of_emptied (s := { s with ctl.pause := .empty }) hm rfl
      (htop (Mode.works_of_climbs climbs)) hret hreq hgate
    have waits : waitingSegment { s with ctl.pause := .empty } = none := free
    rw [waits] at hbody
    rw [enters]
    exact ⟨hbody, hreport⟩

/-- A released segment waits no more (R10). -/
theorem waitingSegment_released_ne {k : Nat} (hk : 2 ≤ k ∧ k ≤ 8) :
    waitingSegment { s with ctl.released := releaseSegment k s.ctl.released } ≠ some k := by
  intro h
  have found := List.find?_some h
  have member : k ∈ releaseSegment k s.ctl.released := by
    have listed : k ∈ [2, 3, 4, 5, 6, 7, 8] := by
      obtain ⟨h2, h8⟩ := hk
      simp only [List.mem_cons, List.not_mem_nil, or_false]
      omega
    exact List.mem_filter.mpr ⟨listed, by simp⟩
  simp [unreleased, member] at found

/-- The check for the next segment, in PAUSED without a SEGMENT ENTRY (R10). -/
theorem segmentCheck_paused (hm : s.ctl.mode = .paused) (hn : s.ctl.pause.segment = none) :
    segmentCheck s = { s with ctl.pause.segment := waitingSegment s } := by
  cases hw : waitingSegment s with
  | none =>
    have same : ({ s.ctl with pause := { s.ctl.pause with segment := none } } : ModeCtl) = s.ctl := by rw [← hn]
    calc segmentCheck s
      _ = s := by simp [segmentCheck, hw]
      _ = { s with ctl := { s.ctl with pause := { s.ctl.pause with segment := none } } } := by rw [same]
  | some k => simp [segmentCheck, addPause, addWaiting, hm, Mode.climbs, hn, hw]

/-- The check for the next segment finds nothing to do where a SEGMENT ENTRY stands as the check would set it. -/
theorem segmentCheck_settled (h : s.ctl.pause.segment = waitingSegment s) : segmentCheck s = s := by
  cases hw : waitingSegment s with
  | none => simp [segmentCheck, hw]
  | some k => simp [segmentCheck, h, hw]

/-- What RESUME `k` does in PAUSED at segment `k` (R10). -/
theorem resumeStation_segment (hs : Sound s) (hm : s.ctl.mode = .paused) {k : Nat} (hk : 2 ≤ k ∧ k ≤ 8)
    (hp : s.ctl.pause.segment = some k) :
    let released := releaseSegment k s.ctl.released
    let next := waitingSegment { s with ctl.released := released }
    let others : Prop := s.ctl.pause.operator = true ∨ s.ctl.pause.faultHold = true ∨ s.ctl.pause.rejoin = true
    (others →
        (resumeStation k s).body = { s with
            ctl := { s.ctl with released := released, pause.segment := next } }.body
          ∧ (resumeStation k s).line.report = s.line.report)
      ∧ (¬others →
        (resumeStation k s).body = { s with
            ctl := { s.ctl with
              released := released
              mode := if next = none then .climbing else .paused
              pause := ⟨false, false, false, next⟩ }
            plan.ramp := 0 }.body
          ∧ (resumeStation k s).line.report = s.line.report.request .urgent) := by
  intro released next others
  have takes : s.ctl.mode.takesCommands = true := by rw [hm]; rfl
  have climbs : s.ctl.mode.climbs = true := by rw [hm]; rfl
  let u := releaseHeld k s
  have resumes : resumeStation k s
      = segmentCheck (dropPause (fun p => { p with segment := none }) u) := by
    have hk0 : k ≠ 0 := by omega
    simp [resumeStation, takes, hk0, hk, resumeSegment, hp, u]
  have changed : ({ u.ctl.pause with segment := none } : PauseSet) ≠ u.ctl.pause := fun h => by
    have := congrArg PauseSet.segment h
    rw [show u.ctl.pause.segment = some k from hp] at this
    cases this
  constructor
  · intro ho
    have stays : ¬(u.ctl.mode = .paused
        ∧ ({ u.ctl.pause with segment := none } : PauseSet).isEmpty = true) := by
      rintro ⟨-, h⟩
      simp only [PauseSet.isEmpty, Bool.and_eq_true, Bool.not_eq_true'] at h
      obtain ⟨⟨⟨h1, h2⟩, h3⟩, -⟩ := h
      rcases ho with h | h | h
      · exact absurd (h.symm.trans h1) nofun
      · exact absurd (h.symm.trans h2) nofun
      · exact absurd (h.symm.trans h3) nofun
    have dropped : dropPause (fun p => { p with segment := none }) u
        = { u with ctl.pause := { u.ctl.pause with segment := none } } :=
      (if_neg changed).trans (if_neg stays)
    have checked := segmentCheck_paused (s := { u with ctl.pause := { u.ctl.pause with segment := none } }) hm rfl
    rw [resumes, dropped, checked]
    exact ⟨rfl, rfl⟩
  · intro ho
    obtain ⟨hret, hreq⟩ := hs.calm takes
    obtain ⟨htop, -⟩ := hs.entry
    obtain ⟨-, hgate, -⟩ := hs.gate
    have none_else : s.ctl.pause.operator = false ∧ s.ctl.pause.faultHold = false
        ∧ s.ctl.pause.rejoin = false := by
      simpa [others, not_or, Bool.not_eq_true] using ho
    obtain ⟨h1, h2, h3⟩ := none_else
    have emptied : ({ u.ctl.pause with segment := none } : PauseSet) = .empty := by
      show ({ s.ctl.pause with segment := none } : PauseSet) = .empty
      simp [PauseSet.empty, h1, h2, h3]
    have dropped : dropPause (fun p => { p with segment := none }) u
        = enterMode .climbing { u with ctl.pause := .empty } := by
      rw [dropPause]
      refine (if_neg changed).trans ((if_pos ⟨hm, ?_⟩).trans ?_) <;> rw [emptied]
      rfl
    obtain ⟨hbody, hreport⟩ := enterMode_climbing_of_emptied (s := { u with ctl.pause := .empty }) hm rfl
      (htop (Mode.works_of_climbs climbs)) hret hreq hgate
    have ctl := congrArg (fun t : State => t.ctl) hbody
    have seq := congrArg (fun t : State => t.seq) hbody
    have join := (aside_enterMode .climbing { u with ctl.pause := .empty }).setup
    have settles : segmentCheck (enterMode .climbing { u with ctl.pause := .empty })
        = enterMode .climbing { u with ctl.pause := .empty } := by
      refine segmentCheck_settled ?_
      have segment : (enterMode .climbing { u with ctl.pause := .empty }).ctl.pause.segment = next :=
        congrArg (fun c : ModeCtl => c.pause.segment) ctl
      have rel : (enterMode .climbing { u with ctl.pause := .empty }).ctl.released = released :=
        congrArg (fun c : ModeCtl => c.released) ctl
      have height : (enterMode .climbing { u with ctl.pause := .empty }).seq.height = s.seq.height :=
        congrArg (fun q : Sequencer => q.height) seq
      rw [segment]
      simp only [waitingSegment, unreleased, rel, height, join, next]
      rfl
    rw [resumes, dropped, settles]
    exact ⟨hbody, hreport⟩

/-- RESUME out of PAUSED, or with an argument that names nothing waited for, does nothing (R7, R10). -/
theorem resumeStation_idle (hs : Sound s) {k : Nat}
    (h : s.ctl.mode ≠ .paused ∨ (k = 0 ∧ s.ctl.pause.operator = false) ∨ k = 1 ∨ 8 < k
      ∨ (2 ≤ k ∧ s.ctl.pause.segment ≠ some k)) : resumeStation k s = s := by
  have named : (k = 0 → s.ctl.pause.operator = false) → (2 ≤ k → k ≤ 8 → s.ctl.pause.segment ≠ some k) →
      resumeStation k s = s := by
    intro h0 h2
    unfold resumeStation
    split
    · rfl
    split
    · have same : ({ s.ctl.pause with operator := false } : PauseSet) = s.ctl.pause := by
        rw [← h0 ‹k = 0›]
      simp [dropPause, same]
    split
    · rename_i hk
      obtain ⟨hl, hu⟩ := hk
      simp [resumeSegment, h2 hl hu]
    · rfl
  rcases h with h | ⟨h, ho⟩ | h | h | ⟨hk, h⟩
  · obtain ⟨hout, hclimbing, -⟩ := hs.pause
    by_cases hc : s.ctl.mode.takesCommands = true
    · have empty : s.ctl.pause = .empty := by
        by_cases hm : s.ctl.mode = .climbing
        · exact hclimbing hm
        · refine hout ?_
          rw [effectiveMode_of_takesCommands hc]
          cases hmode : s.ctl.mode <;> simp_all [Mode.climbs]
      exact named (fun _ => by rw [empty]; rfl) fun _ _ => by rw [empty]; nofun
    · exact resumeStation_deaf (Bool.eq_false_iff.mpr hc) k
  · exact named (fun _ => ho) fun h2 h8 => by omega
  · exact named (fun h0 => by omega) fun h2 h8 => by omega
  · exact named (fun h0 => by omega) fun h2 h8 => by omega
  · exact named (fun h0 => by omega) fun _ _ => h

/-! ### The commands -/

/-- A block that moves no channel and leaves the supervisor answers its own state. -/
theorem answers_same (hs : Sound s) {c : Instr} {t : State} (he : exec c s = finish s t)
    (hc : t.seq.chans = s.seq.chans := by rfl) (hp : t.sup = s.sup := by rfl) :
    ∃ u, exec c s = .next u ∧ u.body = t.body ∧ u.line.report = t.line.report := by
  obtain ⟨hb, hr⟩ := settled_of_same hs hc hp
  exact ⟨settled s t, he, hb, hr⟩

theorem stopStation_same : (stopStation s).seq.chans = s.seq.chans ∧ (stopStation s).sup = s.sup := by
  unfold stopStation
  split
  · exact ⟨enterMode_chans _ s, enterMode_sup _ s⟩
  · exact ⟨rfl, rfl⟩

theorem pauseStation_same : (pauseStation s).seq.chans = s.seq.chans ∧ (pauseStation s).sup = s.sup := by
  unfold pauseStation
  split
  · exact ⟨addPause_chans _ s, addPause_sup _ s⟩
  · exact ⟨rfl, rfl⟩

theorem segmentCheck_same : (segmentCheck s).seq.chans = s.seq.chans ∧ (segmentCheck s).sup = s.sup := by
  unfold segmentCheck
  split
  · exact ⟨addPause_chans _ s, addPause_sup _ s⟩
  · exact ⟨rfl, rfl⟩

theorem resumeStation_same (k : Nat) :
    (resumeStation k s).seq.chans = s.seq.chans ∧ (resumeStation k s).sup = s.sup := by
  unfold resumeStation
  split
  · exact ⟨rfl, rfl⟩
  split
  · exact ⟨dropPause_chans _ s, dropPause_sup _ s⟩
  split
  · unfold resumeSegment
    split
    · obtain ⟨hc, hp⟩ := segmentCheck_same
        (s := dropPause (fun p => { p with segment := none }) (releaseHeld k s))
      exact ⟨hc.trans (dropPause_chans _ _), hp.trans (dropPause_sup _ _)⟩
    · exact ⟨rfl, rfl⟩
  · exact ⟨rfl, rfl⟩

/-- The modes that take deck commands (R13). -/
theorem mem_taking_iff : m ∈ [.standing, .climbing, .paused, .stopped, .topped] ↔ m.takesCommands = true := by
  cases m <;> decide

/-- Settles O54: STOP is the entry to STANDING, PAUSE the joining of OPERATOR, RATE SCALE one item of the mode
controller. -/
theorem stopPauseAndRate : Obligations.StopPauseAndRate := by
  intro s sender target argument hs ha
  refine ⟨?_, ?_, ?_⟩
  · obtain ⟨hc, hp⟩ := stopStation_same (s := s)
    obtain ⟨t, he, hb, hr⟩ := answers_same (c := .stop sender target argument) hs
      (congrArg (finish s) (if_pos ha)) hc hp
    refine ⟨t, he, fun hm => ?_, fun hm => ?_⟩
    · obtain ⟨kb, kr⟩ := stopStation_climbs hs hm
      exact ⟨hb.trans kb, hr.trans kr⟩
    · rw [stopStation_idle hm] at hb hr
      exact ⟨hb, hr⟩
  · obtain ⟨hc, hp⟩ := pauseStation_same (s := s)
    obtain ⟨t, he, hb, hr⟩ := answers_same (c := .pause sender target argument) hs
      (congrArg (finish s) (if_pos ha)) hc hp
    refine ⟨t, he, fun hm => ?_, fun hm => ?_, fun hm => ?_⟩
    · obtain ⟨kb, kr⟩ := pauseStation_climbing hs hm
      exact ⟨hb.trans kb, hr.trans kr⟩
    · rw [pauseStation_paused hm] at hb hr
      exact ⟨hb, hr⟩
    · rw [pauseStation_idle hm] at hb hr
      exact ⟨hb, hr⟩
  · have same : (setRateScale argument.toNat s).seq.chans = s.seq.chans
        ∧ (setRateScale argument.toNat s).sup = s.sup := by
      unfold setRateScale
      split <;> exact ⟨rfl, rfl⟩
    have report : (setRateScale argument.toNat s).line.report = s.line.report := by
      unfold setRateScale
      split <;> rfl
    obtain ⟨hc, hp⟩ := same
    obtain ⟨t, he, hb, hr⟩ := answers_same (c := .rateScale sender target argument) hs
      (congrArg (finish s) (if_pos ha)) hc hp
    refine ⟨t, he, hr.trans report, fun hm => ?_, fun hm => ?_⟩
    · rw [mem_taking_iff] at hm
      rw [setRateScale, if_pos hm] at hb
      exact hb
    · rw [mem_deaf_iff] at hm
      rw [setRateScale_deaf hm] at hb
      exact hb

/-- Settles O55: RESUME drops OPERATOR or the segment waited at from the pause-cause set, by its argument. -/
theorem resumeReleases : Obligations.ResumeReleases := by
  intro s sender target argument hs ha
  dsimp only
  generalize hk : argument.toNat = k
  obtain ⟨hc, hp⟩ := resumeStation_same (s := s) k
  obtain ⟨t, he, hb, hr⟩ := answers_same (c := .resume sender target argument) hs
    ((congrArg (finish s) (if_pos ha)).trans (by rw [hk])) hc hp
  refine ⟨t, he, fun hm hk ho => ?_, fun hm h2 h8 hseg => ?_, fun hidle => ?_⟩
  · rw [hk] at hb hr
    obtain ⟨some, last⟩ := resumeStation_operator hs hm ho
    refine ⟨fun h => ?_, fun hf hj hg => ?_⟩
    · rw [some h] at hb hr
      exact ⟨hb, hr⟩
    · obtain ⟨kb, kr⟩ := last hf hj hg
      exact ⟨hb.trans kb, hr.trans kr⟩
  · obtain ⟨held, emptied⟩ := resumeStation_segment hs hm ⟨h2, h8⟩ hseg
    refine ⟨waitingSegment_released_ne ⟨h2, h8⟩, fun ho => ?_, fun ho => ?_⟩
    · obtain ⟨kb, kr⟩ := held ho
      exact ⟨hb.trans kb, hr.trans kr⟩
    · obtain ⟨kb, kr⟩ := emptied ho
      exact ⟨hb.trans kb, hr.trans kr⟩
  · rw [resumeStation_idle hs hidle] at hb hr
    exact ⟨hb, hr⟩

end

end Sys2Proof.Machine
end

section
/-! PROOFS. The link list of a committed record (R134): each number once, in the order of its sources. -/

namespace Sys2Proof.Machine

-- In order, so that the proofs waiting on one another do not hold a stack each.
set_option Elab.async false

/-! ### Each number once -/

/-- A number joins a list that does not hold it. -/
def joinOnce (l : List Nat) (m : Nat) : List Nat := if l.contains m then l else l ++ [m]

theorem mem_joinOnce {l : List Nat} {m x : Nat} : x ∈ joinOnce l m ↔ x ∈ l ∨ x = m := by
  unfold joinOnce
  split
  · rename_i h
    have member : m ∈ l := by simpa using h
    exact ⟨.inl, fun k => k.elim id fun e => e ▸ member⟩
  · simp

theorem joinOnce_nodup {l : List Nat} (h : l.Nodup) (m : Nat) : (joinOnce l m).Nodup := by
  unfold joinOnce
  split
  · exact h
  · rename_i k
    have absent : m ∉ l := by simpa using k
    exact List.nodup_append.mpr ⟨h, List.nodup_singleton m, by
      rintro a ha b hb rfl
      exact absent (List.mem_singleton.mp hb ▸ ha)⟩

theorem joinOnce_length_le (l : List Nat) (m : Nat) : (joinOnce l m).length ≤ l.length + 1 := by
  unfold joinOnce
  split <;> simp

theorem joinOnce_prefix (l : List Nat) (m : Nat) : l <+: joinOnce l m := by
  unfold joinOnce
  split
  · exact List.prefix_rfl
  · exact List.prefix_append l [m]

/-- What a list of numbers joined one by one holds, in which order and how many. -/
theorem foldl_joinOnce (ms : List Nat) :
    ∀ l : List Nat, l.Nodup → (ms.foldl joinOnce l).Nodup ∧ l <+: ms.foldl joinOnce l
      ∧ (ms.foldl joinOnce l).length ≤ l.length + ms.length
      ∧ ∀ x, x ∈ ms.foldl joinOnce l ↔ x ∈ l ∨ x ∈ ms := by
  induction ms with
  | nil => exact fun l h => ⟨h, List.prefix_rfl, by simp, by simp⟩
  | cons m ms ih =>
    intro l h
    obtain ⟨hn, hp, hl, hm⟩ := ih (joinOnce l m) (joinOnce_nodup h m)
    refine ⟨hn, (joinOnce_prefix l m).trans hp, ?_, fun x => ?_⟩
    · have := joinOnce_length_le l m
      simp only [List.foldl_cons, List.length_cons]
      omega
    · simp only [List.foldl_cons, hm, mem_joinOnce, List.mem_cons, or_assoc]

/-! ### The sources of the list -/

section
variable {n : Nat} {r : SetupRecord}

/-- The neighbours in the ring, predecessor first, without the station itself. -/
def ringNeighbours (n : Nat) (r : SetupRecord) : List Nat :=
  if r.linkRing then
    [if n = r.ringFirst then r.ringLast else n - 1,
     if n = r.ringLast then r.ringFirst else n + 1].filter (· != n)
  else []

/-- The cross links that are set. -/
def crossLinks (r : SetupRecord) : List Nat := [r.linkX1, r.linkX2].filter (· != 0)

theorem linkList_eq (n : Nat) (r : SetupRecord) :
    linkList n r = (ringNeighbours n r ++ crossLinks r).foldl joinOnce [] := rfl

theorem mem_ringNeighbours {m : Nat} :
    m ∈ ringNeighbours n r ↔ r.linkRing = true
      ∧ (m = (if n = r.ringFirst then r.ringLast else n - 1)
        ∨ m = (if n = r.ringLast then r.ringFirst else n + 1)) ∧ m ≠ n := by
  unfold ringNeighbours
  split
  · rename_i h
    simp only [List.mem_filter, List.mem_cons, List.not_mem_nil, or_false, bne_iff_ne, h, true_and]
  · rename_i h
    simp [h]

theorem mem_crossLinks {m : Nat} : m ∈ crossLinks r ↔ m ≠ 0 ∧ (m = r.linkX1 ∨ m = r.linkX2) := by
  simp only [crossLinks, List.mem_filter, List.mem_cons, List.not_mem_nil, or_false, bne_iff_ne, and_comm]

theorem ringNeighbours_length_le : (ringNeighbours n r).length ≤ 2 := by
  unfold ringNeighbours
  split
  · exact List.length_filter_le _ _
  · exact Nat.zero_le 2

theorem crossLinks_length_le : (crossLinks r).length ≤ 2 := List.length_filter_le _ _

/-- The ring and the cross links of a record that passed its commit lie within the roster (R168). -/
theorem ring_of_good (hr : GoodRecord n r) :
    1 ≤ r.ringFirst ∧ n ≤ r.roster
      ∧ (r.linkRing = true → r.ringFirst ≤ n ∧ n ≤ r.ringLast ∧ r.ringLast ≤ r.roster)
      ∧ ∀ x ∈ [r.linkX1, r.linkX2], x ≠ 0 → x ≤ r.roster ∧ x ≠ n := by
  obtain ⟨hrange, hrules⟩ := hr
  have rule : ∀ k, 1 ≤ k → k ≤ 7 → ruleHolds n r k = true := failedRule_eq_none_iff.mp hrules
  have first : 1 ≤ r.item 71 := (item_bounds hrange (i := 70) (by decide)).1
  refine ⟨?_, rosterRule_iff.mp (rule 5 (by decide) (by decide)),
    ringRule_iff.mp (rule 7 (by decide) (by decide)), linksRule_iff.mp (rule 6 (by decide) (by decide))⟩
  simp only [SetupRecord.ringFirst, SetupRecord.nat]
  omega

/-- Every source names another station of the roster. -/
theorem mem_sources (hn : 1 ≤ n) (hr : GoodRecord n r) {m : Nat} (h : m ∈ ringNeighbours n r ++ crossLinks r) :
    m ≠ n ∧ 1 ≤ m ∧ m ≤ r.roster := by
  obtain ⟨hfirst, -, hring, hcross⟩ := ring_of_good hr
  rcases List.mem_append.mp h with h | h
  · obtain ⟨hon, hm, hne⟩ := mem_ringNeighbours.mp h
    obtain ⟨h1, h2, h3⟩ := hring hon
    refine ⟨hne, ?_⟩
    rcases hm with rfl | rfl <;> split_ifs at hne ⊢ <;> omega
  · obtain ⟨hz, hm⟩ := mem_crossLinks.mp h
    obtain ⟨hle, hne⟩ := hcross m (by simpa using hm) hz
    exact ⟨hne, Nat.pos_of_ne_zero hz, hle⟩

/-- The predecessor comes first. -/
theorem ringNeighbours_head (hn : 1 ≤ n) (hon : r.linkRing = true) (hne : r.ringFirst ≠ r.ringLast) :
    ∃ rest, ringNeighbours n r = (if n = r.ringFirst then r.ringLast else n - 1) :: rest := by
  have other : ((if n = r.ringFirst then r.ringLast else n - 1) != n) = true := by
    rw [bne_iff_ne]
    split <;> omega
  rw [ringNeighbours, if_pos hon, List.filter_cons_of_pos (p := (· != n)) other]
  exact ⟨_, rfl⟩

end

/-- Settles O40: the list is the ring neighbours and the cross links joined one by one. -/
theorem linkListFormed : Obligations.LinkListFormed := by
  intro n r hn hr
  obtain ⟨hnodup, -, hlength, hmem⟩ := foldl_joinOnce (ringNeighbours n r ++ crossLinks r) [] List.nodup_nil
  have within : ∀ m ∈ linkList n r, m ≠ n ∧ 1 ≤ m ∧ m ≤ r.roster := fun m h =>
    mem_sources hn hr (((hmem m).mp h).resolve_left List.not_mem_nil)
  refine ⟨hnodup, ?_, fun h => (within n h).1 rfl, fun m h => (within m h).2, fun m => ?_, fun hon hne => ?_⟩
  · have := ringNeighbours_length_le (n := n) (r := r)
    have := crossLinks_length_le (r := r)
    have sum : (ringNeighbours n r ++ crossLinks r).length
        = (ringNeighbours n r).length + (crossLinks r).length := List.length_append
    rw [linkList_eq]
    simp only [List.length_nil] at hlength
    omega
  · rw [linkList_eq, hmem, List.mem_append, mem_ringNeighbours, mem_crossLinks]
    simp only [List.not_mem_nil, false_or]
    rfl
  · obtain ⟨rest, first⟩ := ringNeighbours_head hn hon hne
    rw [linkList_eq, first, List.cons_append, List.foldl_cons]
    obtain ⟨-, ⟨tail, hp⟩, -⟩ := foldl_joinOnce (rest ++ crossLinks r)
      [if n = r.ringFirst then r.ringLast else n - 1] (List.nodup_singleton _)
    show (List.foldl joinOnce [if n = r.ringFirst then r.ringLast else n - 1] _).head? = _
    rw [← hp]
    rfl

end Sys2Proof.Machine
end

section
/-! PROOFS. A sound station's answer to the onset and the end of a condition that does not latch: FAULT HOLD
follows the HOLD-class conditions and nothing else moves (R6, R8, R183). -/

namespace Sys2Proof.Machine

-- In order, so that the proofs waiting on one another do not hold a stack each.
set_option Elab.async false

section
variable {s t u : State}

/-! ### Alike but for the busy-line timer and the two images -/

/-- Two states that a statement cannot tell apart: alike but for the busy-line timer and the two retained
images. -/
structure Alike (t u : State) : Prop where
  body : t.body = u.body
  report : t.line.report = u.line.report

theorem Alike.refl (s : State) : Alike s s := ⟨rfl, rfl⟩

theorem Alike.trans (h : Alike s t) (k : Alike t u) : Alike s u :=
  ⟨h.body.trans k.body, h.report.trans k.report⟩

theorem alike_keepChange (b : Bool) (s : State) : Alike (keepChange b s) s := ⟨rfl, rfl⟩

/-- Two states alike but for the REPORT slot, the busy-line timer and the two retained images. -/
abbrev SameBody (t u : State) : Prop := t.body = u.body

namespace SameBody

variable (h : SameBody t u)
include h

theorem now {x : Nat} (e : u.now = x := by rfl) : t.now = x :=
  (congrArg (fun s : State => s.now) h).trans e
theorem inhibitInput {x : Bool} (e : u.inhibitInput = x := by rfl) : t.inhibitInput = x :=
  (congrArg (fun s : State => s.inhibitInput) h).trans e
theorem ctl {x : ModeCtl} (e : u.ctl = x := by rfl) : t.ctl = x :=
  (congrArg (fun s : State => s.ctl) h).trans e
theorem plan {x : Planner} (e : u.plan = x := by rfl) : t.plan = x :=
  (congrArg (fun s : State => s.plan) h).trans e
theorem seq {x : Sequencer} (e : u.seq = x := by rfl) : t.seq = x :=
  (congrArg (fun s : State => s.seq) h).trans e
theorem stack {x : Stack} (e : u.stack = x := by rfl) : t.stack = x :=
  (congrArg (fun s : State => s.stack) h).trans e
theorem cure {x : Cure} (e : u.cure = x := by rfl) : t.cure = x :=
  (congrArg (fun s : State => s.cure) h).trans e
theorem feed {x : Feed} (e : u.feed = x := by rfl) : t.feed = x :=
  (congrArg (fun s : State => s.feed) h).trans e
theorem peers {x : Peers} (e : u.peers = x := by rfl) : t.peers = x :=
  (congrArg (fun s : State => s.peers) h).trans e
theorem sup {x : Supervisor} (e : u.sup = x := by rfl) : t.sup = x :=
  (congrArg (fun s : State => s.sup) h).trans e
theorem setupRequest {x : SetupSlot} (e : u.line.setupRequest = x := by rfl) : t.line.setupRequest = x :=
  (congrArg (fun s : State => s.line.setupRequest) h).trans e
theorem errors {x : Nat} (e : u.line.errors = x := by rfl) : t.line.errors = x :=
  (congrArg (fun s : State => s.line.errors) h).trans e
theorem muted {x : Bool} (e : u.line.muted = x := by rfl) : t.line.muted = x :=
  (congrArg (fun s : State => s.line.muted) h).trans e
theorem muteTimer {x : Timer} (e : u.line.muteTimer = x := by rfl) : t.line.muteTimer = x :=
  (congrArg (fun s : State => s.line.muteTimer) h).trans e
theorem reportTimer {x : Timer} (e : u.line.reportTimer = x := by rfl) : t.line.reportTimer = x :=
  (congrArg (fun s : State => s.line.reportTimer) h).trans e
theorem frame {x : Option TxFrame} (e : u.line.frame = x := by rfl) : t.line.frame = x :=
  (congrArg (fun s : State => s.line.frame) h).trans e
theorem latched {x : List Cond} (e : u.sup.latched = x := by rfl) : t.sup.latched = x :=
  (congrArg (fun s : State => s.sup.latched) h).trans e
theorem drive {x : Bool} (e : u.sup.drive = x := by rfl) : t.sup.drive = x :=
  (congrArg (fun s : State => s.sup.drive) h).trans e
theorem mode {x : Mode} (e : u.ctl.mode = x := by rfl) : t.ctl.mode = x :=
  (congrArg (fun s : State => s.ctl.mode) h).trans e
theorem joinParts : ∃ a b, t.join = { u.join with imageA := a, imageB := b } := by
  have e : ({ t.join with imageA := none, imageB := none } : Join) = { u.join with imageA := none, imageB := none } :=
    (congrArg (fun s : State => s.join) h :)
  refine ⟨t.join.imageA, t.join.imageB, ?_⟩
  calc t.join
    _ = { ({ t.join with imageA := none, imageB := none } : Join) with
          imageA := t.join.imageA, imageB := t.join.imageB } := rfl
    _ = _ := by rw [e]
theorem setup {x : SetupRecord} (e : u.setup = x := by rfl) : t.setup = x := (congrArg State.setup h).trans e
theorem holdPresent {x : Bool} (e : u.holdPresent = x := by rfl) : t.holdPresent = x :=
  (congrArg State.holdPresent h).trans e
theorem faultView : faultView t = faultView u := (congrArg Machine.faultView h :)
theorem isPresent (c : Cond) : t.isPresent c = u.isPresent c := (congrArg (fun s : State => s.isPresent c) h :)
theorem isLatched (c : Cond) : t.isLatched c = u.isLatched c := (congrArg (fun s : State => s.isLatched c) h :)

end SameBody

/-- The close over a command whose blocks move no channel and raise no EXTEND TIMEOUT. -/
theorem settled_alike (hs : Sound s) (k : Alike t u) (hc : u.seq.chans = s.seq.chans)
    (hp : ∀ ch : Ch, u.isPresent (.extendTimeout ch) = true → s.isPresent (.extendTimeout ch) = true) :
    (settled s t).body = u.body ∧ (settled s t).line.report
      = if faultView u = faultView s then u.line.report else u.line.report.request .urgent := by
  obtain ⟨hb, -, -, hr⟩ := settled_calm (t := t) hs ((congrArg Sequencer.chans (SameBody.seq k.body)).trans hc)
    fun ch h => hp ch ((SameBody.isPresent k.body _).symm.trans h)
  rw [SameBody.faultView k.body, k.report] at hr
  exact ⟨hb.trans k.body, hr⟩

/-! ### A steady station -/

/-- What FAULT HOLD needs to find in a station so that it joins and leaves with no other effect: the entry
checks hold, the permission stands, and the pause-cause set is that of the mode (R6, R11, R110). -/
structure Steady (s : State) : Prop where
  top : s.ctl.mode.works = true → atTop s = false
  waits : s.ctl.mode.climbs = true → s.ctl.pause.segment.isSome = true ∨ waitingSegment s = none
  gate : s.feed.state ≠ .idle → feedAllowed s = true
  taken : s.ctl.mode.takesCommands = true → s.ctl.returnMode = none ∧ s.line.setupRequest ≠ .pending
  outside : s.effectiveMode.climbs = false → s.ctl.pause = .empty
  climbing : s.ctl.mode = .climbing → s.ctl.pause = .empty
  paused : s.ctl.mode = .paused → s.ctl.pause.isEmpty = false

theorem Sound.steady (hs : Sound s) : Steady s := by
  obtain ⟨htop, hwait⟩ := hs.entry
  obtain ⟨hout, hclimbing, hpaused, -⟩ := hs.pause
  obtain ⟨-, hgate, -⟩ := hs.gate
  exact ⟨htop, hwait, hgate, hs.calm, hout, hclimbing, hpaused⟩

/-- What a steady station is judged by: the mode controller, the height, the record, the feed and the SETUP
REQUEST slot. -/
theorem Steady.same (h : Steady s) (hctl : t.ctl = s.ctl := by rfl) (hheight : t.seq.height = s.seq.height := by rfl)
    (hsetup : t.setup = s.setup := by rfl) (hfeed : t.feed = s.feed := by rfl)
    (hreq : t.line.setupRequest = .pending → s.line.setupRequest = .pending := by exact id) : Steady t := by
  have eff : t.effectiveMode = s.effectiveMode := effectiveMode_of_ctl hctl
  have top : atTop t = atTop s := by simp only [atTop, hsetup, hheight]
  have waits : waitingSegment t = waitingSegment s := by
    simp only [waitingSegment, unreleased, hsetup, hheight, hctl]
  have allowed : feedAllowed t = feedAllowed s := by simp only [feedAllowed, hctl, hfeed]
  constructor
  · rw [hctl, top]; exact h.top
  · rw [hctl, waits]; exact h.waits
  · rw [hfeed, allowed]; exact h.gate
  · rw [hctl]
    exact fun hm => ⟨(h.taken hm).1, fun k => (h.taken hm).2 (hreq k)⟩
  · rw [eff, hctl]; exact h.outside
  · rw [hctl]; exact h.climbing
  · rw [hctl]; exact h.paused

/-! ### FAULT HOLD follows -/

/-- FAULT HOLD as it stands with the HOLD-class conditions (R8, R17). -/
def heldPause (s : State) : PauseSet :=
  { s.ctl.pause with faultHold := s.effectiveMode.climbs && s.holdPresent }

/-- The mode that goes with the pause-cause set of `heldPause` (R6). -/
def heldMode (s : State) : Mode :=
  if s.ctl.mode = .climbing ∧ s.holdPresent = true then .paused
  else if s.ctl.mode = .paused ∧ heldPause s = .empty then .climbing
  else s.ctl.mode

/-- The station once FAULT HOLD has followed. -/
def holdFollowed (s : State) : State :=
  { s with
    ctl.mode := heldMode s
    ctl.pause := heldPause s
    plan.ramp := if s.ctl.mode = .paused ∧ heldPause s = .empty then 0 else s.plan.ramp
    line.report := if heldMode s = s.ctl.mode then s.line.report else s.line.report.request .urgent }

theorem PauseSet.isEmpty_iff {p : PauseSet} : p.isEmpty = true ↔ p = .empty := by
  obtain ⟨a, b, c, d⟩ := p
  simp [PauseSet.isEmpty, PauseSet.empty, and_assoc]

/-- A station whose FAULT HOLD stands with its conditions has nothing to follow. -/
theorem holdFollowed_self (h : Steady s) (hf : heldPause s = s.ctl.pause) : holdFollowed s = s := by
  have mode : heldMode s = s.ctl.mode := by
    unfold heldMode
    split
    · rename_i k
      obtain ⟨hm, hh⟩ := k
      have held : (heldPause s).faultHold = true := by simp [heldPause, State.effectiveMode, hm, hh, Mode.climbs]
      rw [hf, h.climbing hm] at held
      cases held
    split
    · rename_i k
      obtain ⟨hm, he⟩ := k
      have := h.paused hm
      rw [← hf, he] at this
      cases this
    · rfl
  have ramp : ¬(s.ctl.mode = .paused ∧ s.ctl.pause = .empty) := by
    rintro ⟨hm, he⟩
    have := h.paused hm
    rw [he] at this
    cases this
  simp only [holdFollowed, mode, hf, if_neg ramp, if_true]

/-- FAULT HOLD joins the empty set of a station in CLIMBING (R6, R8). -/
theorem addPause_hold_climbing (h : Steady s) (hm : s.ctl.mode = .climbing) :
    Alike (addPause (fun p => { p with faultHold := true }) s)
      { s with
        ctl.mode := .paused
        ctl.pause := ⟨false, true, false, none⟩
        line.report := s.line.report.request .urgent } := by
  have climbs : s.ctl.mode.climbs = true := by rw [hm]; rfl
  have works := Mode.works_of_climbs climbs
  obtain ⟨hret, hreq⟩ := h.taken (Mode.takesCommands_of_climbs climbs)
  have free : waitingSegment s = none := by
    rcases h.waits climbs with k | k
    · rw [h.climbing hm] at k; cases k
    · exact k
  have joined : ({ s.ctl.pause with faultHold := true } : PauseSet) = ⟨false, true, false, none⟩ := by
    simp [h.climbing hm, PauseSet.empty]
  have settles : settle .paused (entryPause .paused { s with ctl.pause := ⟨false, true, false, none⟩ })
      { s with ctl.pause := ⟨false, true, false, none⟩ } = (.paused, ⟨false, true, false, none⟩) := by
    have entry : entryPause .paused { s with ctl.pause := ⟨false, true, false, none⟩ }
        = ⟨false, true, false, none⟩ := by simp [entryPause, hm, Mode.climbs]
    have top : atTop { s with ctl.pause := ⟨false, true, false, none⟩ } = false := h.top works
    have waits : waitingSegment { s with ctl.pause := ⟨false, true, false, none⟩ } = none := free
    rw [entry, settle, top, addWaiting, waits]
    rfl
  have entered : addPause (fun p => { p with faultHold := true }) s
      = takeMode .paused ⟨false, true, false, none⟩ { s with ctl.pause := ⟨false, true, false, none⟩ } := by
    rcases addPause_cases (fun p => { p with faultHold := true }) s with ⟨-, e⟩ | ⟨k | ⟨k, -⟩, -⟩ | ⟨k, -⟩
    · rw [e, joined]
      exact enterMode_of_works works rfl nofun settles h.gate
    · rw [hm] at k; cases k
    · rw [hm] at k; cases k
    · rw [climbs] at k; cases k
  rw [entered]
  exact ⟨takeMode_body_climbs rfl climbs hret hreq, rfl⟩

/-- The last member leaves the set of a station in PAUSED (R6). -/
theorem enterMode_climbing_of_last (h : Steady s) (hm : s.ctl.mode = .paused) (hn : s.ctl.pause.segment = none) :
    Alike (enterMode .climbing { s with ctl.pause := .empty })
      { s with
        ctl.mode := .climbing
        ctl.pause := .empty
        plan.ramp := 0
        line.report := s.line.report.request .urgent } := by
  have climbs : s.ctl.mode.climbs = true := by rw [hm]; rfl
  obtain ⟨hret, hreq⟩ := h.taken (Mode.takesCommands_of_climbs climbs)
  have free : waitingSegment { s with ctl.pause := .empty } = none := by
    rcases h.waits climbs with k | k
    · rw [hn] at k; cases k
    · exact k
  obtain ⟨hbody, hreport⟩ := enterMode_climbing_of_emptied (s := { s with ctl.pause := .empty }) hm rfl
    (h.top (Mode.works_of_climbs climbs)) hret hreq h.gate
  rw [free] at hbody
  exact ⟨hbody, hreport⟩

/-- The station follows the onset and the end of the HOLD-class conditions, where its FAULT HOLD stood with
`before` (R8, R183). -/
theorem followHold_alike (h : Steady s) {before : Bool}
    (hf : s.ctl.pause.faultHold = (s.effectiveMode.climbs && before)) :
    Alike (followHold before s) (holdFollowed s) := by
  rcases followHold_cases before s with ⟨hb, e⟩ | ⟨hb, hh, e⟩ | ⟨hb, hh, e⟩
  · have stands : heldPause s = s.ctl.pause := by rw [heldPause, ← hb, ← hf]
    rw [e, holdFollowed_self h stands]
    exact Alike.refl s
  · have off : heldPause s = { s.ctl.pause with faultHold := false } := by simp [heldPause, hh]
    have notClimbing : heldMode s = if s.ctl.mode = .paused ∧ heldPause s = .empty then .climbing else s.ctl.mode := by
      simp [heldMode, hh]
    rw [e]
    rcases dropPause_cases (fun p => { p with faultHold := false }) s with ⟨k, d⟩ | ⟨-, hm, k, d⟩ | ⟨-, k, d⟩ <;> rw [d]
    · rw [holdFollowed_self h (off.trans k)]
      exact Alike.refl s
    · rw [PauseSet.isEmpty_iff, ← off] at k
      have segment : s.ctl.pause.segment = none := by
        have := congrArg PauseSet.segment (off.symm.trans k)
        exact this
      have last := enterMode_climbing_of_last h hm segment
      rw [← off, k]
      refine last.trans ⟨?_, ?_⟩ <;> simp [holdFollowed, notClimbing, hm, k, State.body]
    · have stays : ¬(s.ctl.mode = .paused ∧ heldPause s = .empty) := by
        rwa [off, ← PauseSet.isEmpty_iff]
      rw [← off]
      refine ⟨?_, ?_⟩ <;> simp only [holdFollowed, notClimbing, if_neg stays, if_true, State.body]
  · rw [e]
    by_cases hm : s.ctl.mode = .climbing
    · have joined : heldPause s = ⟨false, true, false, none⟩ := by
        simp [heldPause, h.climbing hm, State.effectiveMode, hm, hh, Mode.climbs, PauseSet.empty]
      refine (addPause_hold_climbing h hm).trans ⟨?_, ?_⟩ <;>
        simp [holdFollowed, heldMode, hm, hh, joined, State.body]
    · have held : heldPause s = .empty → s.ctl.mode ≠ .paused := by
        intro k hp
        have on : (heldPause s).faultHold = true := by
          simp [heldPause, State.effectiveMode, hp, hh, Mode.climbs]
        rw [k] at on
        cases on
      have mode : heldMode s = s.ctl.mode := by
        simp only [heldMode, hm, false_and, if_false]
        exact if_neg fun k => held k.2 k.1
      have ramp : ¬(s.ctl.mode = .paused ∧ heldPause s = .empty) := fun k => held k.2 k.1
      have stands : holdFollowed s = { s with ctl.pause := heldPause s } := by
        simp only [holdFollowed, mode, if_neg ramp, if_true]
      rw [stands]
      rcases addPause_cases (fun p => { p with faultHold := true }) s with ⟨k, -⟩ | ⟨k, d⟩ | ⟨k, hr, d⟩
      · exact absurd k hm
      · have climbs : s.effectiveMode.climbs = true := by
          rcases k with k | ⟨k, kr⟩
          · rw [State.effectiveMode, k]; rfl
          · rwa [State.effectiveMode, k]
        have joined : heldPause s = { s.ctl.pause with faultHold := true } := by simp [heldPause, climbs, hh]
        rw [d, joined]
        exact Alike.refl _
      · have deaf : s.effectiveMode.climbs = false := by
          by_cases kr : s.ctl.mode = .reduced
          · rw [effectiveMode_of_reduced kr]
            exact hr.resolve_left (absurd kr)
          · rwa [effectiveMode_of_ne_reduced kr]
        have same : heldPause s = s.ctl.pause := by
          rw [heldPause, deaf, Bool.false_and, h.outside deaf]
          rfl
        rw [d, same]
        exact Alike.refl _

/-! ### A condition that does not latch -/

/-- FAULT HOLD stands with the HOLD-class conditions (R8). -/
theorem Sound.held (hs : Sound s) : s.ctl.pause.faultHold = (s.effectiveMode.climbs && s.holdPresent) := by
  obtain ⟨hout, -, -, hheld, -⟩ := hs.pause
  cases hc : s.effectiveMode.climbs
  · rw [hout hc]; rfl
  · rw [hheld hc, Bool.true_and]

/-- The conditions present once `c` is present. -/
def presentWith (c : Cond) (s : State) : List Cond :=
  if s.isPresent c then s.sup.present else s.sup.present ++ [c]

/-- The onset of a condition that does not latch. -/
theorem raiseCond_alike (h : Steady s) (hf : s.ctl.pause.faultHold = (s.effectiveMode.climbs && s.holdPresent))
    {c : Cond} (hl : s.latching c = false) :
    Alike (raiseCond c s) (holdFollowed { s with sup.present := presentWith c s }) := by
  rcases raiseCond_cases c s with ⟨hc, e⟩ | ⟨-, k, -⟩ | ⟨hc, -, e⟩
  · have same : ({ s with sup.present := presentWith c s } : State) = s := by simp [presentWith, hc]
    have stands : heldPause s = s.ctl.pause := by rw [heldPause, ← hf]
    rw [e, same, holdFollowed_self h stands]
    exact Alike.refl s
  · rw [hl] at k; cases k
  · have joined : presentWith c s = s.sup.present ++ [c] := by simp [presentWith, hc]
    rw [e, ← joined]
    exact followHold_alike (h.same (t := { s with sup.present := presentWith c s })) hf

/-- The end of a condition. -/
theorem lapseCond_alike (h : Steady s) (hf : s.ctl.pause.faultHold = (s.effectiveMode.climbs && s.holdPresent))
    (c : Cond) :
    Alike (lapseCond c s) (holdFollowed { s with sup.present := s.sup.present.filter (· != c) }) := by
  rcases lapseCond_cases c s with ⟨hc, e⟩ | ⟨hc, e⟩
  · have all : s.sup.present.filter (· != c) = s.sup.present :=
      List.filter_eq_self.mpr fun d hd => bne_iff_ne.mpr fun k => by
        rw [State.isPresent, ← k, List.contains_iff_mem.mpr hd] at hc
        cases hc
    have same : ({ s with sup.present := s.sup.present.filter (· != c) } : State) = s := by rw [all]
    have stands : heldPause s = s.ctl.pause := by rw [heldPause, ← hf]
    rw [e, same, holdFollowed_self h stands]
    exact Alike.refl s
  · rw [e]
    exact followHold_alike (h.same (t := { s with sup.present := s.sup.present.filter (· != c) })) hf

end

end Sys2Proof.Machine
end

section
/-! PROOFS. Attempts, their ends, the line's level and its timers, and the time base (R143 to R149, R154 to R159,
R195, R196). -/

namespace Sys2Proof.Machine

-- In order, so that the proofs waiting on one another do not hold a stack each.
set_option Elab.async false

section
variable {s t u : State}

/-! ### Slots -/

/-- A second urgent request adds nothing. -/
@[simp] theorem ReportSlot.request_urgent_twice (r : ReportSlot) :
    (r.request .urgent).request .urgent = r.request .urgent := by
  rcases r with _ | p | ⟨p, _ | f⟩ <;> rfl

theorem retryAttempt_setupRequest (s : State) :
    (retryAttempt s).line.setupRequest
      = if s.line.setupRequest = .sending then (if s.effectiveMode = .setup then .pending else .empty)
        else s.line.setupRequest := by
  unfold retryAttempt
  cases s.line.setupRequest <;> simp

theorem retryAttempt_eq (s : State) :
    retryAttempt s = { s with
      line.report := s.line.report.retry
      line.setupRequest :=
        if s.line.setupRequest = .sending then (if s.effectiveMode = .setup then .pending else .empty)
        else s.line.setupRequest
      line.frame := none } := by
  rw [← retryAttempt_setupRequest]
  rfl

theorem attemptSent_eq (s : State) :
    attemptSent s = { s with
      line.report := s.line.report.sent
      line.setupRequest := if s.line.setupRequest = .sending then .empty else s.line.setupRequest
      line.errors := 0
      line.frame := none } := by
  unfold attemptSent
  cases s.line.setupRequest <;> simp

theorem attempting_iff : attempting s = true ↔ s.line.report.isSending = true ∨ s.line.setupRequest = .sending := by
  simp [attempting]

/-! ### The beginning of an attempt -/

theorem mayAttempt_iff : mayAttempt s = true ↔ s.line.idle = true ∧ s.line.muted = false ∧ s.ctl.mode ≠ .reduced
    ∧ s.line.report.isSending = false ∧ s.line.setupRequest ≠ .sending := by
  simp only [mayAttempt, attempting, Bool.and_eq_true, Bool.not_eq_true', Bool.or_eq_false_iff, bne_iff_ne,
    beq_eq_false_iff_ne, and_assoc]

theorem beginAttempt_report {p : Prio} (h : s.line.report = .pending p) :
    beginAttempt s = { s with
      line.report := .sending p none, line.idle := false, line.frame := some (reportFrame p s) } := by
  simp [beginAttempt, h]

theorem beginAttempt_request (h : s.line.report = .empty) (k : s.line.setupRequest = .pending) :
    beginAttempt s = { s with
      line.setupRequest := .sending, line.idle := false, line.frame := some (requestFrame s) } := by
  simp [beginAttempt, h, k]

theorem beginAttempt_empty (h : s.line.report = .empty) (k : s.line.setupRequest = .empty) : beginAttempt s = s := by
  simp [beginAttempt, h, k]

/-- Settles O41: an attempt takes the REPORT slot before the SETUP REQUEST slot, and none begins elsewhere. -/
theorem attemptTakesSlot : Obligations.AttemptTakesSlot := by
  intro s hs may
  have hmay : mayAttempt s = true ↔ may := mayAttempt_iff
  have sender : s.line.sender = s.join.ownNumber := by
    obtain ⟨-, -, -, -, -, -, -, h⟩ := hs.line
    exact h
  refine ⟨fun p h hp => ?_, fun h hr hq => ?_, fun h => ?_⟩
  · have begins : exec .attemptStart s = finish s (beginAttempt s) := congrArg (finish s) (if_pos (hmay.mpr h))
    rw [beginAttempt_report hp] at begins
    obtain ⟨t, he, hb, hr⟩ := answers_same hs begins
    refine ⟨t, he, hr, hb.trans ?_⟩
    rw [reportFrame, sender]
    cases p <;> rfl
  · have begins : exec .attemptStart s = finish s (beginAttempt s) := congrArg (finish s) (if_pos (hmay.mpr h))
    rw [beginAttempt_request hr hq] at begins
    obtain ⟨t, he, hb, kr⟩ := answers_same hs begins
    refine ⟨t, he, kr.trans hr, hb.trans ?_⟩
    rw [requestFrame, sender]
  · refine unchanged_of hs (congrArg (finish s) ?_)
    rcases h with h | ⟨hr, hq⟩
    · exact if_neg (mt hmay.mp h)
    · rw [beginAttempt_empty hr hq]
      exact ite_self s

/-! ### LINE -/

/-- LINE is of class HOLD and latches nowhere (R181). -/
theorem line_not_latching (s : State) : s.latching .line = false := rfl

theorem line_unlatched (hs : Sound s) : s.isLatched .line = false := by
  obtain ⟨-, ⟨-, hclass⟩, -⟩ := hs.latch
  rw [State.isLatched, ← Bool.not_eq_true, List.contains_iff_mem]
  intro h
  rcases hclass _ h with k | k <;> cases k

/-- A condition of class HOLD that is present holds the station (R183). -/
theorem holdPresent_of {c : Cond} (hc : s.classOf c = .hold) (he : s.effective c = true) (hp : s.isPresent c = true) :
    s.holdPresent = true :=
  List.any_eq_true.mpr ⟨c, List.contains_iff_mem.mp hp, by simp [hc, he]⟩

theorem isPresent_presentWith (c d : Cond) (s : State) :
    ({ s with sup.present := presentWith c s } : State).isPresent d = (s.isPresent d || d == c) := by
  unfold presentWith
  by_cases h : s.isPresent c = true
  · rw [if_pos h]
    by_cases e : d = c
    · subst e
      simpa [State.isPresent] using h
    · simp [State.isPresent, e]
  · rw [if_neg h]
    simp [State.isPresent, Bool.beq_eq_decide_eq]

theorem isPresent_without (c d : Cond) (s : State) :
    ({ s with sup.present := s.sup.present.filter (· != c) } : State).isPresent d = (s.isPresent d && d != c) := by
  simp only [State.isPresent]
  by_cases e : d = c
  · subst e; simp
  · simp [e, List.contains_eq_mem, List.mem_filter]

/-- The fault set changes with a condition that it shows and that is not latched (R197). -/
theorem faultView_ne_of_present {c : Cond} (hmem : c ∈ Cond.all) (hs : s.isPresent c = false)
    (hl : s.isLatched c = false) (ht : t.isPresent c = true) : faultView t ≠ faultView s := by
  intro h
  have shown : c ∈ (faultView t).shown := List.mem_filter.mpr ⟨hmem, by simp [ht]⟩
  rw [h] at shown
  have := (List.mem_filter.mp shown).2
  simp [hs, hl] at this

/-- A condition without a latch arises over a sound station's channels and timers: what the close leaves. -/
theorem raise_calm (hs : Sound s) (h : Steady t) (hctl : t.ctl = s.ctl) (hc : t.seq.chans = s.seq.chans)
    (hsup : t.sup.present = s.sup.present) (hj : t.setup = s.setup) (harm : t.sup.armed = s.sup.armed)
    {c : Cond} (hl : t.latching c = false) (hne : ∀ ch : Ch, c ≠ .extendTimeout ch) :
    let u := holdFollowed { t with sup.present := presentWith c t }
    (settled s (raiseCond c t)).body = u.body ∧ (settled s (raiseCond c t)).line.report
      = if faultView u = faultView s then u.line.report else u.line.report.request .urgent := by
  have hold : t.holdPresent = s.holdPresent := by
    simp only [State.holdPresent, State.classOf, State.effective, hsup, hj, harm]
  have held : t.ctl.pause.faultHold = (t.effectiveMode.climbs && t.holdPresent) := by
    rw [hctl, effectiveMode_of_ctl hctl, hold]
    exact hs.held
  refine settled_alike hs (raiseCond_alike h held hl) hc fun ch k => ?_
  have split := (isPresent_presentWith c (.extendTimeout ch) t).symm.trans k
  simpa [(hne ch).symm, State.isPresent, hsup] using split

/-- A condition ends over a sound station's channels and timers: what the close leaves. -/
theorem lapse_calm (hs : Sound s) (h : Steady t) (hctl : t.ctl = s.ctl) (hc : t.seq.chans = s.seq.chans)
    (hsup : t.sup.present = s.sup.present) (hj : t.setup = s.setup) (harm : t.sup.armed = s.sup.armed) (c : Cond) :
    let u := holdFollowed { t with sup.present := t.sup.present.filter (· != c) }
    (settled s (lapseCond c t)).body = u.body ∧ (settled s (lapseCond c t)).line.report
      = if faultView u = faultView s then u.line.report else u.line.report.request .urgent := by
  have hold : t.holdPresent = s.holdPresent := by
    simp only [State.holdPresent, State.classOf, State.effective, hsup, hj, harm]
  have held : t.ctl.pause.faultHold = (t.effectiveMode.climbs && t.holdPresent) := by
    rw [hctl, effectiveMode_of_ctl hctl, hold]
    exact hs.held
  refine settled_alike hs (lapseCond_alike h held c) hc fun ch k => ?_
  have split := (isPresent_without c (.extendTimeout ch) t).symm.trans k
  simp only [Bool.and_eq_true, State.isPresent, hsup] at split
  exact split.1

end

end Sys2Proof.Machine
end

section
/-! PROOFS. The ends of an attempt, the line's level and its timers (R143 to R149, R155), and the time base (R195,
R196). -/

namespace Sys2Proof.Machine

-- In order, so that the proofs waiting on one another do not hold a stack each.
set_option Elab.async false

section
variable {s t u : State}

/-! ### The ends of an attempt -/

/-- A retry and a whole sending leave a steady station steady. -/
theorem steady_retryAttempt (h : Steady s) (hl : LineLaw s) :
    Steady (retryAttempt s) := by
  obtain ⟨-, -, -, hreq, -⟩ := hl
  constructor
  · exact h.top
  · exact h.waits
  · exact h.gate
  · intro hm
    refine ⟨(h.taken hm).1, fun hp => ?_⟩
    rw [retryAttempt_setupRequest] at hp
    have notSetup : s.effectiveMode ≠ .setup := by
      have taken : s.ctl.mode.takesCommands = true := hm
      rw [effectiveMode_of_takesCommands taken]
      rintro e
      rw [e] at taken
      cases taken
    rw [if_neg notSetup] at hp
    split at hp
    · cases hp
    · exact (h.taken hm).2 hp
  · exact h.outside
  · exact h.climbing
  · exact h.paused

theorem steady_attemptSent (h : Steady s) : Steady (attemptSent s) :=
  h.same (hreq := by
    rw [attemptSent_eq]
    dsimp only
    split
    · nofun
    · exact id)

/-- A mute starts where the count reaches 16, and LINE with it (R147, R148). -/
theorem countError_cases (s : State) :
    (s.line.errors < 15 ∧ countError s = { s with line.errors := s.line.errors + 1 })
      ∨ (15 ≤ s.line.errors ∧ countError s = raiseCond .line { s with
          line.errors := 16, line.muted := true, line.muteTimer := some (s.now + 5000) }) := by
  unfold countError
  by_cases h : s.line.errors < 15
  · have e : min Config.errorLimit (s.line.errors + 1) = s.line.errors + 1 :=
      Nat.min_eq_right (Nat.succ_le_of_lt (Nat.lt_of_lt_of_le h (by decide)))
    have few : ¬Config.errorLimit ≤ s.line.errors + 1 := by
      show ¬16 ≤ _
      omega
    exact .inl ⟨h, by dsimp only; rw [e, if_neg few]⟩
  · have e : min Config.errorLimit (s.line.errors + 1) = 16 := Nat.min_eq_left (by show 16 ≤ _; omega)
    exact .inr ⟨Nat.not_lt.mp h, by dsimp only; rw [e]; rfl⟩

/-- What an error that starts a mute leaves: LINE present, and FAULT HOLD with it. `t` is what the blocks made of
`s` before the count. -/
theorem mute_calm (hs : Sound s) (h : Steady t) (hctl : t.ctl = s.ctl := by rfl)
    (hseq : t.seq = s.seq := by rfl) (hsup : t.sup = s.sup := by rfl) (hj : t.setup = s.setup := by rfl)
    (n : Nat) :
    let v := raiseCond .line { t with line.errors := 16, line.muted := true, line.muteTimer := some n }
    let w := holdFollowed { t with
        line.errors := 16, line.muted := true, line.muteTimer := some n, sup.present := presentWith .line s }
    (settled s v).body = w.body
      ∧ (settled s v).line.report
        = (if s.isPresent .line = true then t.line.report else t.line.report.request .urgent) := by
  intro v w
  let m : State := { t with line.errors := 16, line.muted := true, line.muteTimer := some n }
  have steady : Steady m := h.same
  obtain ⟨hb, hr⟩ := raise_calm hs steady hctl (congrArg Sequencer.chans hseq) (congrArg Supervisor.present hsup)
    hj (congrArg Supervisor.armed hsup) (line_not_latching m) nofun
  have with' : presentWith .line m = presentWith .line s := by
    show presentWith .line t = _
    unfold presentWith State.isPresent
    rw [hsup]
  rw [with'] at hb hr
  refine ⟨hb, ?_⟩
  have view_sup : ∀ x : State, x.sup = s.sup → faultView x = faultView s := fun x hx => by
    simp only [faultView, State.isPresent, funext (fun c => show x.isLatched c = s.isLatched c by
      simp only [State.isLatched, hx]), hx]
  rw [hr]
  by_cases hp : s.isPresent .line = true
  · have same : ({ m with sup.present := presentWith .line s } : State) = m := by
      simp [presentWith, hp, m, hsup]
    have held : heldPause m = m.ctl.pause := by
      have hold : m.holdPresent = s.holdPresent := by
        simp only [State.holdPresent, State.classOf, State.effective, show m.sup = s.sup from hsup,
          show m.setup = s.setup from hj]
      have eff : m.effectiveMode = s.effectiveMode := effectiveMode_of_ctl hctl
      rw [heldPause, hold, eff, ← hs.held, show m.ctl.pause = s.ctl.pause from congrArg ModeCtl.pause hctl]
    rw [same, holdFollowed_self steady held, if_pos (view_sup m hsup), if_pos hp]
  · have arises : faultView (holdFollowed { m with sup.present := presentWith .line s }) ≠ faultView s := by
      refine faultView_ne_of_present (c := .line) (by decide) (Bool.eq_false_iff.mpr hp) (line_unlatched hs) ?_
      have := isPresent_presentWith .line .line s
      exact this.trans (by simp)
    rw [if_neg arises, if_neg hp]
    show (if _ then t.line.report else t.line.report.request .urgent).request .urgent = _
    split
    · rfl
    · exact ReportSlot.request_urgent_twice _

/-- LINE pauses a station in CLIMBING (R8, R148). -/
theorem heldMode_line {t : State} (hp : t.isPresent .line = true) (hm : t.ctl.mode = .climbing) :
    heldMode t = .paused :=
  if_pos ⟨hm, holdPresent_of rfl rfl hp⟩

/-- Settles O42: the three ends of an attempt act on the slots alone, but that a whole sending ends LINE and
the sixteenth error starts a mute with it. -/
theorem attemptEnds : Obligations.AttemptEnds := by
  intro s hs hatt retried sent request
  rw [← attempting_iff] at hatt
  have hretried : s.line.report.retry = retried := by
    dsimp only [retried]
    rcases s.line.report with _ | p | ⟨p, _ | f⟩
    · rfl
    · rfl
    · rfl
    · cases p <;> cases f <;> rfl
  have hsent : s.line.report.sent = sent := by
    dsimp only [sent]
    rcases s.line.report with _ | p | ⟨p, _ | f⟩ <;> rfl
  have hretry := retryAttempt_eq s
  rw [hretried] at hretry
  have hwhole := attemptSent_eq s
  rw [hsent] at hwhole
  refine ⟨?_, ?_, ?_⟩
  · have ends : exec .arbitrationLost s = finish s (retryAttempt s) := congrArg (finish s) (if_pos hatt)
    obtain ⟨t, he, hb, hr⟩ := answers_same hs ends
    rw [hretry] at hb hr
    exact ⟨t, he, hr, hb⟩
  · have ends : exec .sentWhole s = finish s (lapseCond .line (attemptSent s)) :=
      congrArg (finish s) (if_pos hatt)
    obtain ⟨hb, hr⟩ := lapse_calm hs (steady_attemptSent hs.steady) rfl rfl rfl rfl rfl .line
    have absent : (settled s (lapseCond .line (attemptSent s))).isPresent .line = false := by
      refine (SameBody.isPresent hb .line).trans ?_
      exact (isPresent_without .line .line (attemptSent s)).trans (by simp)
    refine ⟨_, ends, SameBody.errors hb, SameBody.frame hb, ?_, absent, SameBody.muted hb, SameBody.now hb,
      SameBody.seq hb, SameBody.stack hb, SameBody.cure hb, SameBody.feed hb, SameBody.peers hb,
      SameBody.latched hb, fun hp => ?_⟩
    · rw [SameBody.setupRequest hb, hwhole]
      rfl
    · have lapses : lapseCond .line (attemptSent s) = attemptSent s := by
        rcases lapseCond_cases .line (attemptSent s) with ⟨-, e⟩ | ⟨k, -⟩
        · exact e
        · exact absurd (k.symm.trans hp) nofun
      rw [lapses]
      obtain ⟨kb, kr⟩ := settled_of_same (t := attemptSent s) hs rfl rfl
      exact ⟨kr.trans (congrArg (fun x : State => x.line.report) hwhole), SameBody.ctl kb, SameBody.plan kb,
        SameBody.sup kb⟩
  · have ends : exec .transmitError s = finish s (countError (retryAttempt s)) :=
      congrArg (finish s) (if_pos hatt)
    rcases countError_cases (retryAttempt s) with ⟨hfew, e⟩ | ⟨hmany, e⟩
    · rw [e, hretry] at ends
      obtain ⟨t, he, hb, hr⟩ := answers_same hs ends
      have few : s.line.errors < 15 := hfew
      refine ⟨t, he, SameBody.frame hb, ?_, SameBody.setupRequest hb, SameBody.now hb, SameBody.stack hb,
        SameBody.cure hb, SameBody.peers hb, SameBody.latched hb,
        fun _ => ⟨hr, hb⟩, fun h => absurd few (by omega)⟩
      refine (SameBody.errors hb).trans ?_
      show s.line.errors + 1 = _
      omega
    · obtain ⟨hb, -⟩ := mute_calm hs (steady_retryAttempt hs.steady hs.line) (n := s.now + 5000)
      have many : 15 ≤ s.line.errors := hmany
      rw [e] at ends
      refine ⟨_, ends, SameBody.frame hb, ?_, ?_, SameBody.now hb, SameBody.stack hb, SameBody.cure hb,
        SameBody.peers hb, SameBody.latched hb, fun h => absurd many (by omega),
        fun _ => ⟨SameBody.muted hb, SameBody.muteTimer hb, ?_, fun hm _ => ?_⟩⟩
      · refine (SameBody.errors hb).trans ?_
        show 16 = _
        omega
      · refine (SameBody.setupRequest hb).trans ?_
        exact congrArg (fun x : State => x.line.setupRequest) hretry
      · refine (SameBody.isPresent hb .line).trans ?_
        exact (isPresent_presentWith .line .line s).trans (by simp)
      · exact SameBody.mode hb (heldMode_line ((isPresent_presentWith .line .line s).trans (by simp)) hm)

/-! ### The line's level and its timers -/

/-- The busy-line timer after a command: it goes on, starts, or stands stopped with its condition (R149). -/
theorem settled_busyTimer (s t : State) :
    (settled s t).line.busyTimer
      = if busyLine (settled s t) then some (t.line.busyTimer.getD (t.now + 10)) else none := by
  have follow : ∀ x : State, busyLine (followBusyLine x) = busyLine x := fun x => by
    obtain ⟨b, e, -⟩ := followBusyLine_cases x
    rw [e]
    rfl
  have timer : ∀ x : State, (followBusyLine x).line.busyTimer
      = if busyLine x then some (x.line.busyTimer.getD (x.now + 10)) else none := fun x => by
    unfold followBusyLine
    split
    · cases hb : x.line.busyTimer <;> simp [hb, Config.busyLength]
    · rfl
  have before : (reportFaults s (blankAfterMotion s (endExtendTimeouts t))).line.busyTimer = t.line.busyTimer
      ∧ (reportFaults s (blankAfterMotion s (endExtendTimeouts t))).now = t.now := by
    rcases reportFaults_cases s (blankAfterMotion s (endExtendTimeouts t)) with ⟨-, e⟩ | ⟨-, e⟩ <;> rw [e] <;>
      rcases blankAfterMotion_cases s (endExtendTimeouts t) with ⟨-, -, e⟩ | ⟨-, e⟩ <;> rw [e] <;> exact ⟨rfl, rfl⟩
  obtain ⟨hbusy, hnow⟩ := before
  show (followBusyLine _).line.busyTimer = if busyLine (followBusyLine _) then _ else _
  rw [timer, follow, hbusy, hnow]

/-- The line level after a command is the one its blocks made. -/
theorem settled_idle (s t : State) : (settled s t).line.idle = t.line.idle := by
  obtain ⟨busy, e⟩ := settled_line s t
  rw [e]

/-- The busy-line timer as a statement reads it: running while a slot is PENDING on a busy line (R149). -/
theorem busyLine_iff : busyLine s = true ↔ s.line.idle = false
    ∧ (s.line.report.isPending = true ∨ s.line.setupRequest = .pending) ∧ s.line.muted = false
    ∧ s.ctl.mode ≠ .reduced := by
  simp only [busyLine, Bool.and_eq_true, Bool.or_eq_true, Bool.not_eq_true', beq_iff_eq, bne_iff_ne]
  tauto

/-- The timer that runs where a slot waits on the line found busy. -/
abbrev Waits (s : State) (n : Nat) (muted : Bool) : Timer :=
  if (s.line.report.isPending = true ∨ s.line.setupRequest = .pending) ∧ muted = false ∧ s.ctl.mode ≠ .reduced then
    some n else none

/-- The timer after a command that leaves both slots, the mute and the mode as they were. -/
theorem busyTimer_of_slots {n : Nat} (hr : (settled s t).line.report = s.line.report)
    (hq : t.line.setupRequest = s.line.setupRequest) (hm : t.line.muted = s.line.muted) (hc : t.ctl = s.ctl)
    (hn : t.line.busyTimer.getD (t.now + 10) = n) :
    (settled s t).line.busyTimer = if t.line.idle = true then none else Waits s n s.line.muted := by
  rw [settled_busyTimer, hn]
  have cond : busyLine (settled s t) = true ↔ t.line.idle = false
      ∧ (s.line.report.isPending = true ∨ s.line.setupRequest = .pending) ∧ s.line.muted = false
      ∧ s.ctl.mode ≠ .reduced := by
    rw [busyLine_iff, settled_idle, hr, settled_setupRequest, hq, settled_muted, hm, settled_ctl, hc]
  cases hi : t.line.idle
  · simp only [hi, true_and] at cond
    simp only [cond, Waits, Bool.false_eq_true, if_false]
  · simp only [hi, Bool.true_eq_false, false_and, iff_false, Bool.not_eq_true] at cond
    simp [cond]

theorem busyTimer_of_muted (hm : t.line.muted = true) : (settled s t).line.busyTimer = none := by
  have off : busyLine (settled s t) = false := by
    rw [← Bool.not_eq_true, busyLine_iff, settled_muted, hm]
    rintro ⟨-, -, k, -⟩
    cases k
  rw [settled_busyTimer, off]
  rfl

/-- Settles O43: the line's level and the mute's end leave all but the busy-line timer, and its expiry counts an
error. -/
theorem lineLevelAndTimers : Obligations.LineLevelAndTimers := by
  intro s d hs now waits
  refine ⟨fun hr hq => ?_, ?_, fun hd => ?_, fun hd => ?_⟩
  · have free : attempting s = false := by
      rw [← Bool.not_eq_true, attempting_iff]
      rintro (k | k)
      · exact absurd (hr.symm.trans k) nofun
      · exact hq k
    have falls : exec .lineIdle s = finish s { s with line.idle := true } :=
      congrArg (finish s) (if_neg (by simp [free]))
    obtain ⟨hb, hrep⟩ := settled_of_same (t := { s with line.idle := true }) hs rfl rfl
    refine ⟨_, falls, hb, hrep, ?_⟩
    exact (busyTimer_of_slots hrep rfl rfl rfl rfl).trans (if_pos rfl)
  · obtain ⟨hb, hrep⟩ := settled_of_same (t := { s with line.idle := false }) hs rfl rfl
    refine ⟨_, rfl, hb, hrep, fun hn => ?_, fun b hn => ?_⟩
    · exact (busyTimer_of_slots hrep rfl rfl rfl (by simp [hn])).trans (if_neg nofun)
    · exact (busyTimer_of_slots hrep rfl rfl rfl (by simp [hn])).trans (if_neg nofun)
  · have ends : exec .muteTimerExpiry s
        = finish s { s with now := now, line.muted := false, line.muteTimer := none } := by
      simp [exec, execMuteTimerExpiry, hd, expireAt, now]
    obtain ⟨t, he, hb, hrep⟩ := answers_same hs ends
    exact ⟨t, he, hb, hrep⟩
  · let v : State := { s with now := now, line.busyTimer := none }
    have counts : exec .busyLineTimerExpiry s = finish s (countError v) := by
      simp [exec, execBusyLineTimerExpiry, hd, expireAt, now, v]
    rcases countError_cases v with ⟨hfew, e⟩ | ⟨hmany, e⟩
    · have few : s.line.errors < 15 := hfew
      rw [e] at counts
      obtain ⟨hb, hrep⟩ := settled_of_same (t := { v with line.errors := v.line.errors + 1 }) hs rfl rfl
      refine ⟨_, counts, SameBody.now hb, ?_, fun _ => ⟨hb, hrep, ?_⟩, fun h => absurd few (by omega)⟩
      · refine (SameBody.errors hb).trans ?_
        show s.line.errors + 1 = _
        omega
      · exact busyTimer_of_slots hrep rfl rfl rfl rfl
    · have many : 15 ≤ s.line.errors := hmany
      obtain ⟨hb, hrep⟩ := mute_calm hs (hs.steady.same (t := v)) (n := now + 5000)
      rw [e] at counts
      have muted := SameBody.muted hb
      rw [settled_muted] at muted
      refine ⟨_, counts, SameBody.now hb, ?_, fun h => absurd many (by omega),
        fun _ => ⟨SameBody.muted hb, SameBody.muteTimer hb, busyTimer_of_muted muted, ?_, SameBody.frame hb,
          SameBody.setupRequest hb, hrep, ?_⟩⟩
      · refine (SameBody.errors hb).trans ?_
        show 16 = _
        omega
      · refine (SameBody.isPresent hb .line).trans ?_
        exact (isPresent_presentWith .line .line s).trans (by simp)
      · rw [hrep]
        show (if _ then s.line.report else s.line.report.request .urgent).isSending = _
        split
        · rfl
        · exact ReportSlot.isSending_request _ _

end

end Sys2Proof.Machine
end

section
/-! PROOFS. The time base leaves the crystal and returns to it (R195, R196). -/

namespace Sys2Proof.Machine

-- In order, so that the proofs waiting on one another do not hold a stack each.
set_option Elab.async false

section
variable {s t u : State}

/-- A supervision whose class code is 0 or 1 latches nowhere (R181, R206). -/
theorem latching_eq_false_of_code {c : Cond} {v : Int} (hc : s.classOf c = .ofCode v) (hv : v ≤ 1) :
    s.latching c = false := by
  have two : v ≠ 2 := by omega
  have three : v ≠ 3 := by omega
  have none : s.classOf c ≠ .latch ∧ s.classOf c ≠ .trip := by
    rw [hc, FaultClass.ofCode, if_neg two, if_neg three]
    split <;> exact ⟨nofun, nofun⟩
  simp [State.latching, none]

theorem clockFallback_not_latching (hs : Sound s) (hj : t.setup = s.setup) : t.latching .clockFallback = false :=
  latching_eq_false_of_code rfl (hj ▸ (item_bounds hs.setup.inRange (i := 83) (by decide)).2)

/-- What a change of the time base alone leaves as it was. -/
abbrev BaseSame (s t : State) : Prop :=
  t.seq = s.seq ∧ t.stack = s.stack ∧ t.cure = s.cure ∧ t.feed = s.feed ∧ t.peers = s.peers
    ∧ t.join.listenTimer = s.join.listenTimer ∧ t.join.windowTimer = s.join.windowTimer
    ∧ t.join.requestTimer = s.join.requestTimer ∧ t.line.muteTimer = s.line.muteTimer
    ∧ t.line.reportTimer = s.line.reportTimer ∧ t.sup.clearTimer = s.sup.clearTimer
    ∧ t.sup.latched = s.sup.latched

/-- The mode controller where FAULT HOLD alone has followed (R6, R8). -/
abbrev HoldFollows (s t : State) : Prop :=
  t.ctl = { s.ctl with
    mode := if s.ctl.mode = .climbing ∧ t.holdPresent = true then .paused
      else if s.ctl.mode = .paused ∧ t.ctl.pause = ⟨false, false, false, none⟩ then .climbing
      else s.ctl.mode
    pause := { s.ctl.pause with faultHold := s.effectiveMode.climbs && t.holdPresent } }

theorem holdFollows_of_body (h : SameBody t (holdFollowed u)) (hu : u.ctl = s.ctl := by rfl) : HoldFollows s t := by
  have hold : t.holdPresent = u.holdPresent := SameBody.holdPresent h
  have pause : t.ctl.pause = heldPause u := congrArg ModeCtl.pause (SameBody.ctl h)
  have eff : u.effectiveMode = s.effectiveMode := effectiveMode_of_ctl hu
  unfold HoldFollows
  rw [hold, pause, ← hu, ← eff]
  exact SameBody.ctl h

/-- What the join unit's timers are in a state alike. -/
theorem SameBody.joinTimers (h : SameBody t u) : t.join.listenTimer = u.join.listenTimer
    ∧ t.join.windowTimer = u.join.windowTimer ∧ t.join.requestTimer = u.join.requestTimer := by
  obtain ⟨a, b, e⟩ := SameBody.joinParts h
  rw [e]
  exact ⟨rfl, rfl, rfl⟩

/-- The time base's change as a statement reads it: `w` is the supervisor it leaves. -/
theorem baseSame_of_body {w : Supervisor} (h : SameBody t (holdFollowed { s with now := u.now, sup := w }))
    (hc : w.clearTimer = s.sup.clearTimer := by rfl) (hl : w.latched = s.sup.latched := by rfl) : BaseSame s t := by
  obtain ⟨listen, window, request⟩ := SameBody.joinTimers h
  exact ⟨SameBody.seq h, SameBody.stack h, SameBody.cure h, SameBody.feed h, SameBody.peers h, listen, window,
    request, SameBody.muteTimer h, SameBody.reportTimer h,
    (congrArg Supervisor.clearTimer (SameBody.sup h)).trans hc, SameBody.latched h hl⟩

/-- The crystal stops under it: the time base falls back with CLOCK FALLBACK present (R195). -/
theorem crystalStopped_onCrystal (hs : Sound s) (hx : s.sup.onCrystal = true) :
    ∃ t, exec .crystalStopped s = .next t
      ∧ SameBody t (holdFollowed { s with
          now := s.now
          sup := { s.sup with
            present := presentWith .clockFallback s, onCrystal := false, crystalTimer := none } }) := by
  let v : State := { s with sup.crystalTimer := none, sup.onCrystal := false }
  have stops : exec .crystalStopped s = finish s (raiseCond .clockFallback v) :=
    congrArg (finish s) (if_pos hx)
  obtain ⟨hb, -⟩ := raise_calm hs (hs.steady.same (t := v)) rfl rfl rfl rfl rfl
    (clockFallback_not_latching (t := v) hs rfl) nofun
  exact ⟨_, stops, hb⟩

/-- Settles O60: the crystal's stop is the onset of CLOCK FALLBACK, the end of the run its end, and FAULT HOLD
follows both. -/
theorem timeBaseFollowsCrystal : Obligations.TimeBaseFollowsCrystal := by
  intro s d hs same followed
  obtain ⟨-, -, -, hbase, -⟩ := hs.presence
  refine ⟨?_, ?_, fun hd => ?_⟩
  · cases hx : s.sup.onCrystal
    · let v : State := { s with sup.crystalTimer := none }
      have stands : heldPause v = v.ctl.pause := by
        show ({ s.ctl.pause with faultHold := s.effectiveMode.climbs && s.holdPresent } : PauseSet) = s.ctl.pause
        rw [← hs.held]
      have stops : exec .crystalStopped s = finish s v := congrArg (finish s) (if_neg (by simp [hx]))
      obtain ⟨hb, -, -, hr⟩ := settled_calm (t := v) hs rfl fun _ => id
      have held := hb.trans (congrArg State.body (holdFollowed_self (hs.steady.same (t := v)) stands).symm)
      have fallback : s.isPresent .clockFallback = true := by rw [hbase, hx]; rfl
      have view : faultView v = faultView s := rfl
      refine ⟨_, stops, baseSame_of_body (u := s) held, SameBody.now hb,
        (congrArg Supervisor.onCrystal (SameBody.sup hb (x := v.sup))).trans hx,
        congrArg Supervisor.crystalTimer (SameBody.sup hb (x := v.sup)),
        (SameBody.isPresent hb .clockFallback).trans fallback, holdFollows_of_body held, fun hc => ?_,
        fun _ => ⟨hb, ?_⟩⟩
      · exact (SameBody.holdPresent hb).trans (holdPresent_of (s := s) hc rfl fallback)
      · rw [hr, if_pos view]
    · obtain ⟨t, he, hb⟩ := crystalStopped_onCrystal hs hx
      have shown : t.isPresent .clockFallback = true :=
        (SameBody.isPresent hb .clockFallback).trans
          ((isPresent_presentWith .clockFallback .clockFallback s).trans (by simp))
      refine ⟨t, he, baseSame_of_body (u := s) hb, SameBody.now hb,
        congrArg Supervisor.onCrystal (SameBody.sup hb), congrArg Supervisor.crystalTimer (SameBody.sup hb), shown,
        holdFollows_of_body hb, fun hc => holdPresent_of ?_ rfl shown, fun h => absurd h nofun⟩
      exact (congrArg (fun r : SetupRecord => r.classOf .clockFallback) (SameBody.setup hb)).trans hc
  · have seen : exec .crystalCycleSeen s = finish s
        (if s.sup.onCrystal = false ∧ s.sup.crystalTimer = none then
          { s with sup.crystalTimer := some (s.now + 10000) } else s) := by
      refine congrArg (finish s) ?_
      simp only [Bool.and_eq_true, Bool.not_eq_true', Option.isNone_iff_eq_none]
      rfl
    refine ⟨_, seen, ?_⟩
    split
    · obtain ⟨hb, -, -, hr⟩ := settled_calm (t := { s with sup.crystalTimer := some (s.now + 10000) }) hs rfl
        fun _ => id
      have view : faultView { s with sup.crystalTimer := some (s.now + 10000) } = faultView s := rfl
      exact ⟨hr.trans (if_pos view), hb⟩
    · obtain ⟨hb, hr⟩ := settled_of_same (t := s) hs rfl rfl
      exact ⟨hr, hb⟩
  · let v : State := { s with now := max s.now d, sup.crystalTimer := none, sup.onCrystal := true }
    have ends : exec .crystalRunTimerExpiry s = finish s (lapseCond .clockFallback v) := by
      simp [exec, execCrystalRunTimerExpiry, hd, expireAt, v]
    obtain ⟨hb, -⟩ := lapse_calm hs (hs.steady.same (t := v)) rfl rfl rfl rfl rfl .clockFallback
    refine ⟨_, ends, baseSame_of_body (u := v) hb, SameBody.now hb,
      congrArg Supervisor.onCrystal (SameBody.sup hb), congrArg Supervisor.crystalTimer (SameBody.sup hb), ?_,
      holdFollows_of_body hb, ?_⟩
    · exact (SameBody.isPresent hb .clockFallback).trans
        ((isPresent_without .clockFallback .clockFallback v).trans (by simp))
    · refine (SameBody.holdPresent hb).trans ?_
      show (s.sup.present.filter (· != .clockFallback)).any _ = _
      rw [List.any_filter]
      refine congrArg (s.sup.present.any ·) (funext fun e => ?_)
      exact (Bool.and_assoc _ _ _).symm

end

end Sys2Proof.Machine
end

section
/-! PROOFS. Frames bit by bit: what is laid out on the line is read back, and the command a whole frame brings
about (R142, R150, R199 to R201, R204). -/

namespace Sys2Proof.Machine

-- In order, so that the proofs waiting on one another do not hold a stack each.
set_option Elab.async false

/-! ### Numbers in bits -/

@[simp] theorem natBits_length (w v : Nat) : (natBits w v).length = w := by simp [natBits]

theorem natBits_succ (w v : Nat) : natBits (w + 1) v = natBits w (v / 2) ++ [v.testBit 0] := by
  have before : ∀ i ∈ List.range w, v.testBit (w - i) = (v / 2).testBit (w - 1 - i) := by
    intro i hi
    have hlt := List.mem_range.mp hi
    have up : w - i = w - 1 - i + 1 := by omega
    rw [up, Nat.testBit_succ]
  simp [natBits, List.range_succ, List.map_congr_left before]

@[simp] theorem ofBits_nil : ofBits [] = 0 := rfl

theorem ofBits_append (bs : List Bool) (b : Bool) : ofBits (bs ++ [b]) = ofBits bs * 2 + b.toNat := by
  simp [ofBits]

/-- A number's low bits spell its remainder. -/
theorem ofBits_natBits (w : Nat) : ∀ v : Nat, ofBits (natBits w v) = v % 2 ^ w := by
  induction w with
  | zero => intro v; simp [natBits, Nat.mod_one]
  | succ w ih =>
    intro v
    have low : (v.testBit 0).toNat = v % 2 := by
      rw [Nat.testBit_zero]
      rcases Nat.mod_two_eq_zero_or_one v with h | h <;> simp [h]
    rw [natBits_succ, ofBits_append, ih, low, Nat.pow_succ']
    have split := Nat.mod_mul (x := v) (a := 2) (b := 2 ^ w)
    omega

theorem ofBits_natBits_of_lt {w v : Nat} (h : v < 2 ^ w) : ofBits (natBits w v) = v := by
  rw [ofBits_natBits, Nat.mod_eq_of_lt h]

/-- Bits spell a number with those bits. -/
theorem natBits_ofBits (bs : List Bool) : natBits bs.length (ofBits bs) = bs := by
  induction bs using List.reverseRecOn with
  | nil => rfl
  | append_singleton bs b ih =>
    have half : (ofBits bs * 2 + b.toNat) / 2 = ofBits bs := by
      have := b.toNat_le
      omega
    have low : (ofBits bs * 2 + b.toNat).testBit 0 = b := by
      rw [Nat.testBit_zero]
      cases b <;> simp
    rw [List.length_append, List.length_singleton, natBits_succ, ofBits_append, half, low, ih]

theorem frameCheck_lt (message : List Bool) : frameCheck message < 65536 :=
  checkRegister_lt (w := 16) (by decide) _ _ (by decide)

/-! ### The line of a frame, read -/

@[simp] theorem readPlain_plainBit (b : Bool) : readPlain (plainBit b) = b := by cases b <;> rfl

@[simp] theorem readCoded_codedBit (b : Bool) : readCoded (codedBit b) = some b := by cases b <;> rfl

/-- The self-clocked part of a frame: the kind, the length, the payload and the check. -/
def codedPart (f : TxFrame) : List Bool :=
  natBits 3 f.kind ++ natBits 5 f.payload.length ++ f.payload.flatMap (natBits 8) ++ natBits 16 f.check

theorem flatMap_natBits_length (bytes : List Nat) : (bytes.flatMap (natBits 8)).length = 8 * bytes.length := by
  induction bytes with
  | nil => rfl
  | cons b bs ih =>
    simp only [List.flatMap_cons, List.length_append, natBits_length, ih, List.length_cons]
    omega

theorem codedPart_length (f : TxFrame) : (codedPart f).length = 24 + 8 * f.payload.length := by
  simp only [codedPart, List.length_append, natBits_length, flatMap_natBits_length]
  omega

theorem frameLine_head (f : TxFrame) : (frameLine f).head? = some (plainBit false) := rfl

theorem frameLine_arbitration (f : TxFrame) :
    ((frameLine f).drop 1).take 8 = (natBits 2 f.priority ++ natBits 6 f.sender).map plainBit := rfl

theorem frameLine_body (f : TxFrame) :
    (frameLine f).drop 9 = (codedPart f).map codedBit ++ [plainBit true, plainBit true] := rfl

/-- A stretch of the self-clocked part, read bit by bit. -/
theorem readCoded_stretch (bits : List Bool) (tail : List BitTime) {i n : Nat} (h : i + n ≤ bits.length) :
    (((bits.map codedBit ++ tail).drop i).take n).map (fun b => (readCoded b).getD false)
      = (bits.drop i).take n := by
  have inside : ((bits.map codedBit ++ tail).drop i).take n = ((bits.drop i).take n).map codedBit := by
    rw [List.drop_append_of_le_length (by simp; omega), List.take_append_of_le_length (by simp; omega),
      ← List.map_drop, ← List.map_take]
  rw [inside, List.map_map]
  refine (List.map_congr_left fun b _ => ?_).trans (List.map_id _)
  simp

/-- Bytes in bits are read back. -/
theorem takeBytes_flatMap (bytes : List Nat) (h : ∀ b ∈ bytes, b < 256) :
    takeBytes bytes.length (bytes.flatMap (natBits 8)) = bytes := by
  induction bytes with
  | nil => rfl
  | cons b bs ih =>
    obtain ⟨hb, hbs⟩ := List.forall_mem_cons.mp h
    have first : (natBits 8 b ++ bs.flatMap (natBits 8)).take 8 = natBits 8 b :=
      List.take_left' (natBits_length 8 b)
    have rest : (natBits 8 b ++ bs.flatMap (natBits 8)).drop 8 = bs.flatMap (natBits 8) :=
      List.drop_left' (natBits_length 8 b)
    rw [List.flatMap_cons, List.length_cons, takeBytes, first, rest, ih hbs, ofBits_natBits_of_lt hb]

theorem codedPart_kind (f : TxFrame) : ((codedPart f).drop 0).take 3 = natBits 3 f.kind := rfl

theorem codedPart_lengthField (f : TxFrame) : ((codedPart f).drop 3).take 5 = natBits 5 f.payload.length := rfl

theorem codedPart_payload (f : TxFrame) :
    ((codedPart f).drop 8).take (8 * f.payload.length) = f.payload.flatMap (natBits 8) := by
  have head : (codedPart f).drop 8 = f.payload.flatMap (natBits 8) ++ natBits 16 f.check := by
    simp only [codedPart, List.append_assoc]
    rfl
  rw [head, List.take_left' (flatMap_natBits_length _)]

theorem codedPart_check (f : TxFrame) :
    ((codedPart f).drop (8 + 8 * f.payload.length)).take 16 = natBits 16 f.check := by
  have head : (codedPart f).drop 8 = f.payload.flatMap (natBits 8) ++ natBits 16 f.check := by
    simp only [codedPart, List.append_assoc]
    rfl
  rw [← List.drop_drop, head, List.drop_left' (flatMap_natBits_length _)]
  exact List.take_of_length_le (natBits_length 16 _).le

/-- What a receiver reads off a frame's line (R200). -/
theorem readLine_frameLine (f : TxFrame) (hp : f.priority < 4) (hs : f.sender < 64) (hk : f.kind < 8)
    (hl : f.payload.length < 32) (hb : ∀ b ∈ f.payload, b < 256) (hc : f.check < 65536) :
    readLine (frameLine f) = f.received := by
  have total := codedPart_length f
  have arbitration : (((frameLine f).drop 1).take 8).map readPlain = natBits 2 f.priority ++ natBits 6 f.sender := by
    rw [frameLine_arbitration, List.map_map]
    refine (List.map_congr_left fun b _ => ?_).trans (List.map_id _)
    simp
  have kind : (((((frameLine f).drop 9).drop 0).take 3).map fun b => (readCoded b).getD false) = natBits 3 f.kind := by
    rw [frameLine_body, readCoded_stretch _ _ (by omega), codedPart_kind]
  have length : ofBits (((((frameLine f).drop 9).drop 3).take 5).map fun b => (readCoded b).getD false)
      = f.payload.length := by
    rw [frameLine_body, readCoded_stretch _ _ (by omega), codedPart_lengthField, ofBits_natBits_of_lt hl]
  have payload : (((((frameLine f).drop 9).drop 8).take (8 * f.payload.length)).map
      fun b => (readCoded b).getD false) = f.payload.flatMap (natBits 8) := by
    rw [frameLine_body, readCoded_stretch _ _ (by omega), codedPart_payload]
  have check : (((((frameLine f).drop 9).drop (8 + 8 * f.payload.length)).take 16).map
      fun b => (readCoded b).getD false) = natBits 16 f.check := by
    rw [frameLine_body, readCoded_stretch _ _ (by omega), codedPart_check]
  have body : ((frameLine f).drop 9).take (24 + 8 * f.payload.length) = (codedPart f).map codedBit := by
    rw [frameLine_body, List.take_left' (by simp [total])]
  have tail : ((frameLine f).drop 9).drop (24 + 8 * f.payload.length) = [plainBit true, plainBit true] := by
    rw [frameLine_body, List.drop_left' (by simp [total])]
  have sound : ((codedPart f).map codedBit).any (fun b => readCoded b == none) = false := by
    simp [List.any_eq_false]
  have kindNumber : ofBits (natBits 3 f.kind) = f.kind := ofBits_natBits_of_lt hk
  have checkNumber : ofBits (natBits 16 f.check) = f.check := ofBits_natBits_of_lt hc
  have priorityNumber : ofBits (natBits 2 f.priority) = f.priority := ofBits_natBits_of_lt hp
  have senderNumber : ofBits (natBits 6 f.sender) = f.sender := ofBits_natBits_of_lt hs
  simp only [readLine, arbitration, kind, length, payload, check, body, tail, sound, takeBytes_flatMap _ hb,
    frameLine_head, TxFrame.received, kindNumber, checkNumber, priorityNumber, senderNumber,
    List.take_left' (natBits_length 2 f.priority), List.drop_left' (natBits_length 2 f.priority),
    beq_self_eq_true, List.head?_cons]

/-! ### The frame a station sends, received -/

section
variable {priority sender kind : Nat} {bytes : List Nat}

theorem kindLength_lt {kind n : Nat} (h : kindLength kind = some n) : n < 32 := by
  unfold kindLength at h
  split at h <;> simp only [Option.some.injEq, reduceCtorEq] at h <;> omega

theorem received_payload (hb : ∀ b ∈ bytes, b < 256) :
    ((TxFrame.make priority sender kind bytes).received.payload).map BitVec.toNat = bytes := by
  show ((bytes.map (BitVec.ofNat 8)).map BitVec.toNat) = bytes
  rw [List.map_map]
  refine (List.map_congr_left fun b h => ?_).trans (List.map_id _)
  simp [Nat.mod_eq_of_lt (hb b h)]

theorem received_kind (hk : kind < 8) : (TxFrame.make priority sender kind bytes).received.kind.toNat = kind := by
  show kind % 2 ^ 3 = kind
  omega

/-- A frame that a station sends arrives whole where its payload has its kind's length (R200). -/
theorem rxWhole_make (hp : priority < 4) (hs : sender < 64) (hk : kind < 8) (hb : ∀ b ∈ bytes, b < 256)
    (hl : bytes.length < 32) :
    rxWhole (TxFrame.make priority sender kind bytes).received = (kindLength kind == some bytes.length) := by
  have check : (TxFrame.make priority sender kind bytes).received.check.toNat
      = frameCheck (frameMessage priority sender kind bytes) := by
    show frameCheck _ % 2 ^ 16 = _
    exact Nat.mod_eq_of_lt (frameCheck_lt _)
  have length : (TxFrame.make priority sender kind bytes).received.length.toNat = bytes.length := by
    show bytes.length % 2 ^ 5 = _
    omega
  have priority' : (TxFrame.make priority sender kind bytes).received.priority.toNat = priority := by
    show priority % 2 ^ 2 = _
    omega
  have sender' : (TxFrame.make priority sender kind bytes).received.sender.toNat = sender := by
    show sender % 2 ^ 6 = _
    omega
  have count : (TxFrame.make priority sender kind bytes).received.payload.length = bytes.length :=
    List.length_map _
  rw [rxWhole, check, length, priority', sender', received_kind hk, received_payload hb, count]
  simp [TxFrame.received]

/-- A frame with its kind's payload length spells the command of its kind. -/
theorem commandOfFrame_whole (hp : priority < 4) (hs : sender < 64) (hk : kind < 8) (hb : ∀ b ∈ bytes, b < 256)
    (hl : kindLength kind = some bytes.length) :
    commandOfFrame (TxFrame.make priority sender kind bytes).received
      = commandOfWhole (TxFrame.make priority sender kind bytes).received := by
  rw [commandOfFrame, rxWhole_make hp hs hk hb (kindLength_lt hl), hl]
  simp

/-- A frame that fails a test for arriving whole is discarded (R200). -/
theorem commandOfFrame_of_not_whole {f : RxFrame} (h : rxWhole f = false) : commandOfFrame f = .frameDiscarded f := by
  simp [commandOfFrame, h]

theorem rxWhole_iff {f : RxFrame} :
    rxWhole f = true ↔ f.startSeen = true ∧ f.endSeen = true ∧ f.codeViolation = false
      ∧ kindLength f.kind.toNat = some f.length.toNat ∧ f.payload.length = f.length.toNat
      ∧ f.check.toNat = frameCheck (frameMessage f.priority.toNat f.sender.toNat f.kind.toNat
          (f.payload.map BitVec.toNat)) := by
  simp only [rxWhole, Bool.and_eq_true, Bool.not_eq_true', beq_iff_eq, and_assoc]

/-- The code byte of a deck command, as a receiver reads it. -/
theorem codeByte_toNat (hb : ∀ b ∈ bytes, b < 256) (i : Nat) :
    (BitVec.ofNat 8 (bytes.getD i 0)).toNat = bytes.getD i 0 := by
  have bound : bytes.getD i 0 < 256 := by
    rcases Nat.lt_or_ge i bytes.length with h | h
    · rw [List.getD_eq_getElem _ _ h]
      exact hb _ (List.getElem_mem h)
    · rw [List.getD_eq_default _ _ h]
      decide
  rw [BitVec.toNat_ofNat]
  omega

end

/-- Settles O44: a frame of each kind with that kind's length arrives whole and spells the kind's command, and a
frame that fails a test spells a discarded one. -/
theorem framesSpellCommands : Obligations.FramesSpellCommands := by
  intro priority sender bytes hp hs hb frame number byte
  have whole : ∀ kind < 8, kindLength kind = some bytes.length →
      commandOfFrame (frame kind) = commandOfWhole (frame kind) :=
    fun kind hk hl => commandOfFrame_whole hp hs hk hb hl
  have payload : ∀ kind, (frame kind).payload.map BitVec.toNat = bytes := fun kind => received_payload hb
  refine ⟨fun hl => ?_, fun hl => ?_, fun hl => ?_, fun hl => ?_, fun hl => ?_, fun kind hk hne hl => ?_,
    fun f fails => ?_⟩
  · rw [whole 1 (by decide) (by rw [hl]; rfl)]
    show Instr.report _ (BitVec.ofNat 224 (ofBytes ((frame 1).payload.map BitVec.toNat))) = _
    rw [payload]
    rfl
  · rw [whole 2 (by decide) (by rw [hl]; rfl)]
    simp only [commandOfWhole, payload, codeByte_toNat hb]
    generalize bytes.getD 1 0 = code
    rcases code with _ | _ | _ | _ | _ | _ | _ | _ | code <;> rfl
  · rw [whole 3 (by decide) (by rw [hl]; rfl)]
    show Instr.setupData _ (BitVec.ofNat 8 (((frame 3).payload.map BitVec.toNat).getD 0 0))
      (BitVec.ofNat 8 (((frame 3).payload.map BitVec.toNat).getD 1 0))
      (BitVec.ofNat 32 (ofBytes (((frame 3).payload.map BitVec.toNat).drop 2))) = _
    rw [payload]
    rfl
  · rw [whole 4 (by decide) (by rw [hl]; rfl)]
    show Instr.setupCommit _ (BitVec.ofNat 8 (((frame 4).payload.map BitVec.toNat).getD 0 0))
      (BitVec.ofNat 8 (((frame 4).payload.map BitVec.toNat).getD 1 0)) = _
    rw [payload]
    rfl
  · rw [whole 5 (by decide) (by rw [hl]; rfl)]
    show Instr.peerSetupRequest _ (BitVec.ofNat 40 (ofBytes ((frame 5).payload.map BitVec.toNat))) = _
    rw [payload]
    rfl
  · refine commandOfFrame_of_not_whole ?_
    rw [rxWhole_make hp hs hk hb hl]
    simpa using hne
  · refine commandOfFrame_of_not_whole (Bool.eq_false_iff.mpr fun arrives => ?_)
    obtain ⟨start, stop, clean, kind, length, check⟩ := rxWhole_iff.mp arrives
    rcases fails with h | h | h | h | h | h
    · exact Bool.noConfusion (start.symm.trans h)
    · exact Bool.noConfusion (stop.symm.trans h)
    · exact Bool.noConfusion (clean.symm.trans h)
    · exact h length
    · exact h kind
    · exact h check

/-- Settles O46: each stretch of the line spells its field's bits, and bits spell the field. -/
theorem frameReadsBack : Obligations.FrameReadsBack := by
  refine ⟨fun f => readLine_frameLine f, fun priority sender kind payload hp hs hk hb hl => ?_⟩
  have short := kindLength_lt hl
  rw [readLine_frameLine _ hp hs hk short hb (frameCheck_lt _), rxWhole_make hp hs hk hb short, hl]
  simp

end Sys2Proof.Machine
end

section
/-! PROOFS. Arbitration and readback (R144 to R146): the least value prevails, and an attempt ends at the first bit
time that does not match. -/

namespace Sys2Proof.Machine

-- In order, so that the proofs waiting on one another do not hold a stack each.
set_option Elab.async false

/-! ### Arbitration -/

/-- A number's low `w + 1` bits: bit `w` before the bits below it. -/
theorem mod_two_pow_succ (w v : Nat) : v % 2 ^ (w + 1) = (v.testBit w).toNat * 2 ^ w + v % 2 ^ w := by
  rw [Nat.pow_succ, Nat.mod_mul, Nat.testBit_eq_decide_div_mod_eq]
  rcases Nat.mod_two_eq_zero_or_one (v / 2 ^ w) with h | h <;> simp [h, Nat.add_comm]

/-- The values still driven after `w` bits are those whose low `w` bits are least. -/
theorem contenders_eq (w : Nat) : ∀ vs : List Nat,
    contenders w vs = vs.filter fun v => vs.all fun u => decide (v % 2 ^ w ≤ u % 2 ^ w) := by
  induction w with
  | zero =>
    intro vs
    exact (List.filter_eq_self.mpr fun v _ => by simp [Nat.mod_one]).symm
  | succ w ih =>
    intro vs
    have below : ∀ v, v % 2 ^ w < 2 ^ w := fun v => Nat.mod_lt _ (by positivity)
    rw [contenders]
    by_cases hany : (vs.any fun v => !v.testBit w) = true
    · rw [if_pos hany, ih, List.filter_filter]
      simp only [List.any_eq_true, Bool.not_eq_true'] at hany
      obtain ⟨z, hz, zero⟩ := hany
      refine List.filter_congr fun v _ => Bool.eq_iff_iff.mpr ?_
      simp only [List.all_eq_true, Bool.and_eq_true, decide_eq_true_eq, List.mem_filter, mod_two_pow_succ,
        Bool.not_eq_true']
      constructor
      · rintro ⟨least, hv⟩ u hu
        have := below v
        cases hbit : u.testBit w with
        | false => simpa [hv] using least u ⟨hu, hbit⟩
        | true =>
          simp only [hv, Bool.toNat_false, Bool.toNat_true]
          omega
      · intro least
        have hv : v.testBit w = false := by
          have h := least z hz
          have := below z
          cases hbit : v.testBit w with
          | false => rfl
          | true =>
            simp only [zero, hbit, Bool.toNat_true, Bool.toNat_false] at h
            omega
        refine ⟨fun u ⟨mem, hbit⟩ => ?_, hv⟩
        simpa [hv, hbit] using least u mem
    · have ones : ∀ v ∈ vs, v.testBit w = true := by
        intro v hv
        by_contra hbit
        exact hany (List.any_eq_true.mpr ⟨v, hv, by simpa using hbit⟩)
      rw [if_neg hany, ih]
      refine List.filter_congr fun v hv => Bool.eq_iff_iff.mpr ?_
      simp only [List.all_eq_true, decide_eq_true_eq, mod_two_pow_succ]
      refine forall_congr' fun u => forall_congr' fun hu => ?_
      rw [ones v hv, ones u hu]
      omega

/-! ### The first difference -/

/-- Where a number is less than another, its bits fall below at the first difference. -/
theorem natBits_first_difference (w : Nat) : ∀ {a b : Nat}, a < b → b < 2 ^ w →
    ∃ pre x y, natBits w a = pre ++ false :: x ∧ natBits w b = pre ++ true :: y := by
  induction w with
  | zero => intro a b hab hb; omega
  | succ w ih =>
    intro a b hab hb
    have half : b / 2 < 2 ^ w := by rw [Nat.pow_succ] at hb; omega
    rw [natBits_succ, natBits_succ]
    rcases Nat.lt_or_ge (a / 2) (b / 2) with h | h
    · obtain ⟨pre, x, y, hx, hy⟩ := ih h half
      exact ⟨pre, x ++ [a.testBit 0], y ++ [b.testBit 0], by simp [hx], by simp [hy]⟩
    · have same : a / 2 = b / 2 := by omega
      have low : a.testBit 0 = false := by rw [Nat.testBit_zero]; simp; omega
      have high : b.testBit 0 = true := by rw [Nat.testBit_zero]; simp; omega
      exact ⟨natBits w (b / 2), [], [], by rw [same, low], by rw [high]⟩

/-- Two different lists of bits of one length differ first at some place. -/
theorem bits_first_difference : ∀ {a b : List Bool}, a.length = b.length → a ≠ b →
    ∃ pre x y, ∃ u v : Bool, u ≠ v ∧ a = pre ++ u :: x ∧ b = pre ++ v :: y := by
  intro a
  induction a with
  | nil => intro b hl hne; exact absurd (List.length_eq_zero_iff.mp hl.symm).symm hne
  | cons u x ih =>
    intro b hl hne
    cases b with
    | nil => simp at hl
    | cons v y =>
      by_cases huv : u = v
      · subst huv
        obtain ⟨pre, x', y', p, q, hpq, hx, hy⟩ := ih (by simpa using hl) fun h => hne (by rw [h])
        exact ⟨u :: pre, x', y', p, q, hpq, by rw [hx]; rfl, by rw [hy]; rfl⟩
      · exact ⟨[], x, y, u, v, huv, rfl, rfl⟩

/-- A frame's coded part starts with the kind and the length. -/
theorem codedPart_eq (f : TxFrame) :
    codedPart f = (natBits 3 f.kind ++ natBits 5 f.payload.length)
      ++ (f.payload.flatMap (natBits 8) ++ natBits 16 f.check) := by
  simp [codedPart, List.append_assoc]

/-- The coded parts of two frames that differ there differ at a bit that both have: the length field stands before
the payload. -/
theorem codedPart_first_difference {f g : TxFrame} (hf : f.payload.length < 32) (hg : g.payload.length < 32)
    (hne : codedPart f ≠ codedPart g) :
    ∃ pre x y, ∃ u v : Bool, u ≠ v ∧ codedPart f = pre ++ u :: x ∧ codedPart g = pre ++ v :: y := by
  by_cases hl : f.payload.length = g.payload.length
  · exact bits_first_difference (by rw [codedPart_length, codedPart_length, hl]) hne
  · have heads : natBits 3 f.kind ++ natBits 5 f.payload.length ≠ natBits 3 g.kind ++ natBits 5 g.payload.length := by
      intro h
      have five := (List.append_inj h (by simp)).2
      have number := congrArg ofBits five
      rw [ofBits_natBits_of_lt hf, ofBits_natBits_of_lt hg] at number
      exact hl number
    obtain ⟨pre, x, y, u, v, huv, hx, hy⟩ := bits_first_difference (by simp) heads
    exact ⟨pre, _, _, u, v, huv, by rw [codedPart_eq, hx, List.append_assoc]; rfl,
      by rw [codedPart_eq, hy, List.append_assoc]; rfl⟩

/-! ### Readback at a bit time -/

section
variable {f : TxFrame} {pre pre' rest line : List BitTime} {sent read : BitTime}

/-- A readback that has matched so far goes on at the bit time it has come to. -/
theorem readback_from (hf : frameLine f = pre ++ sent :: rest) (hl : pre.length = pre'.length)
    (same : ∀ k b l, pre[k]? = some b → pre'[k]? = some l → readbackAt k b l = none) :
    readback f (pre' ++ read :: line) = readbackFrom pre.length (sent :: rest) (read :: line) := by
  rw [readback, hf, readbackFrom_append _ _ _ _ 0 hl (by simpa using same), Nat.zero_add]

theorem readback_stop_self (hf : frameLine f = pre ++ sent :: rest) {o : Instr}
    (h : readbackAt pre.length sent read = some o) : readback f (pre ++ read :: line) = some o := by
  rw [readback_from hf rfl fun k b l hb hl => by rw [Option.some.inj (hb.symm.trans hl), readbackAt_self]]
  exact readbackFrom_stop h rest line

end

/-- A match up to a bit time, said as the obligation says it. -/
theorem readbackAt_of_matches {sent shown : List BitTime} {i : Nat}
    (same : ∀ j, 1 ≤ j → j < i →
      if j ≤ 8 then (sent[j]?).map readPlain = (shown[j]?).map readPlain else sent[j]? = shown[j]?)
    {k : Nat} (hk : k < i) {b l : BitTime} (hb : sent[k]? = some b) (hl : shown[k]? = some l) :
    readbackAt k b l = none := by
  rcases Nat.eq_zero_or_pos k with rfl | pos
  · rfl
  · have h := same k pos hk
    rw [hb, hl] at h
    by_cases h8 : k ≤ 8
    · rw [if_pos h8] at h
      rw [readbackAt_field pos h8]
      exact (fieldReadback_eq_none_iff b l).mpr (by simpa using h)
    · rw [if_neg h8] at h
      rw [readbackAt_body (by omega)]
      exact (bodyReadback_eq_none_iff b l).mpr (Option.some.inj h).symm

/-- A list at one of its places. -/
theorem split_at_getElem? {l : List BitTime} {i : Nat} {b : BitTime} (h : l[i]? = some b) :
    l = l.take i ++ b :: l.drop (i + 1) := by
  obtain ⟨hi, hb⟩ := List.getElem?_eq_some_iff.mp h
  rw [← hb, List.getElem_cons_drop, List.take_append_drop]

/-- The readback at bit time `i` of a line that has matched until then. -/
theorem readback_at {f : TxFrame} {shown : List BitTime} {i : Nat} {sent read : BitTime}
    (hsent : (frameLine f)[i]? = some sent) (hread : shown[i]? = some read)
    (same : ∀ j, 1 ≤ j → j < i →
      if j ≤ 8 then ((frameLine f)[j]?).map readPlain = (shown[j]?).map readPlain
      else (frameLine f)[j]? = shown[j]?) :
    readback f shown = readbackFrom i (sent :: (frameLine f).drop (i + 1)) (read :: shown.drop (i + 1)) := by
  obtain ⟨hi, -⟩ := List.getElem?_eq_some_iff.mp hsent
  obtain ⟨hi', -⟩ := List.getElem?_eq_some_iff.mp hread
  have len : ((frameLine f).take i).length = i := by rw [List.length_take]; omega
  have len' : (shown.take i).length = i := by rw [List.length_take]; omega
  have h := readback_from (read := read) (line := shown.drop (i + 1)) (split_at_getElem? hsent) (len.trans len'.symm)
    fun k b l hb hl => by
      rw [List.getElem?_take] at hb hl
      by_cases hk : k < i
      · rw [if_pos hk] at hb hl
        exact readbackAt_of_matches same hk hb hl
      · rw [if_neg hk] at hb
        nomatch hb
  rw [← split_at_getElem? hread, len] at h
  exact h

/-! ### Two frames at once -/

theorem frameLine_eq (f : TxFrame) :
    frameLine f = plainBit false :: (natBits 2 f.priority ++ natBits 6 f.sender).map plainBit
      ++ ((codedPart f).map codedBit ++ [plainBit true, plainBit true]) := by
  simp [frameLine, codedPart]

/-- The priority and the sender number, as the eight bits of the arbitration value. -/
theorem arbitration_bits (f : TxFrame) (hs : f.sender < 64) :
    natBits 2 f.priority ++ natBits 6 f.sender = natBits 8 f.arbitration := by
  have bits : ∀ k, 6 ≤ k → (f.priority * 64 + f.sender).testBit k = f.priority.testBit (k - 6) := by
    intro k hk
    have := Nat.testBit_two_pow_mul_add f.priority (i := 6) (b := f.sender) hs k
    rw [Nat.mul_comm]
    rw [show (64 : Nat) = 2 ^ 6 from rfl, this, if_neg (by omega)]
  have low : ∀ k, k < 6 → (f.priority * 64 + f.sender).testBit k = f.sender.testBit k := by
    intro k hk
    have := Nat.testBit_two_pow_mul_add f.priority (i := 6) (b := f.sender) hs k
    rw [Nat.mul_comm]
    rw [show (64 : Nat) = 2 ^ 6 from rfl, this, if_pos hk]
  simp [natBits, List.range_succ, TxFrame.arbitration, bits, low]

/-- A frame of a lesser arbitration value takes the line of one of a greater (R144). -/
theorem greater_loses {f g : TxFrame} (hfs : f.sender < 64) (hgp : g.priority < 4) (hgs : g.sender < 64)
    (h : f.arbitration < g.arbitration) : readback g (frameLine f) = some .arbitrationLost := by
  have bound : g.arbitration < 2 ^ 8 := by simp only [TxFrame.arbitration]; omega
  obtain ⟨pre, x, y, hx, hy⟩ := natBits_first_difference 8 h bound
  have short : pre.length + 1 ≤ 8 := by
    have := congrArg List.length hy
    simp at this
    omega
  have sentLine : frameLine g = (plainBit false :: pre.map plainBit) ++ plainBit true
      :: (y.map plainBit ++ ((codedPart g).map codedBit ++ [plainBit true, plainBit true])) := by
    rw [frameLine_eq, arbitration_bits g hgs, hy]
    simp
  have shownLine : frameLine f = (plainBit false :: pre.map plainBit) ++ plainBit false
      :: (x.map plainBit ++ ((codedPart f).map codedBit ++ [plainBit true, plainBit true])) := by
    rw [frameLine_eq, arbitration_bits f hfs, hx]
    simp
  rw [shownLine]
  refine readback_stop_self sentLine ?_
  rw [List.length_cons, List.length_map, readbackAt_field (by omega) short]
  rfl

theorem overlay_coded_ne {u v : Bool} (h : u ≠ v) : (codedBit u).overlay (codedBit v) ≠ codedBit u := by
  cases u <;> cases v <;> simp [codedBit, BitTime.overlay, Level.overlay] at h ⊢

theorem BitTime.overlay_comm (a b : BitTime) : a.overlay b = b.overlay a := by
  rcases a with ⟨a, a'⟩
  rcases b with ⟨b, b'⟩
  cases a <;> cases a' <;> cases b <;> cases b' <;> rfl

theorem overlayLines_comm (a b : List BitTime) : overlayLines a b = overlayLines b a :=
  List.zipWith_comm_of_comm BitTime.overlay_comm

/-- A frame whose line shows another bit over its own in the coded part fails (R146). -/
theorem different_bits_fail {f g : TxFrame} (hf : f.payload.length < 32) (hg : g.payload.length < 32)
    (hp : f.priority = g.priority) (hs : f.sender = g.sender) (hne : frameLine f ≠ frameLine g) :
    readback f (overlayLines (frameLine f) (frameLine g)) = some .transmitError := by
  have parts : codedPart f ≠ codedPart g := fun h => hne (by rw [frameLine_eq, frameLine_eq, h, hp, hs])
  obtain ⟨pre, x, y, u, v, huv, hx, hy⟩ := codedPart_first_difference hf hg parts
  let start : List BitTime :=
    plainBit false :: (natBits 2 g.priority ++ natBits 6 g.sender).map plainBit ++ pre.map codedBit
  have length : start.length = 9 + pre.length := by simp [start]; omega
  have sentLine : frameLine f = start ++ codedBit u :: (x.map codedBit ++ [plainBit true, plainBit true]) := by
    rw [frameLine_eq, hx, hp, hs]
    simp [start]
  have otherLine : frameLine g = start ++ codedBit v :: (y.map codedBit ++ [plainBit true, plainBit true]) := by
    rw [frameLine_eq, hy]
    simp [start]
  have shown : overlayLines (frameLine f) (frameLine g) = start ++ (codedBit u).overlay (codedBit v)
      :: overlayLines (x.map codedBit ++ [plainBit true, plainBit true])
        (y.map codedBit ++ [plainBit true, plainBit true]) := by
    rw [sentLine, otherLine, overlayLines, List.zipWith_append rfl]
    exact congrArg (· ++ _) (overlayLines_self start)
  rw [shown]
  refine readback_stop_self sentLine ?_
  rw [length, readbackAt_body (by omega)]
  exact if_neg (overlay_coded_ne huv)

/-- Settles O45: the values that prevail are worked bit by bit, the readback by the stretch that matches before the
bit time looked at, and two frames by their first difference. -/
theorem leastArbitrationPrevails : Obligations.LeastArbitrationPrevails := by
  refine ⟨fun values hv => ?_, fun a b => ?_, fun s f shown i sent read hframe hsent hread pos same => ?_,
    fun f g hfp hfs hfl hgp hgs hgl => ⟨fun h => ⟨readback_self f, greater_loses hfs hgp hgs h⟩,
      fun h hne => ?_, fun h => ?_⟩⟩
  · rw [contenders_eq]
    refine List.filter_congr fun v mem => Bool.eq_iff_iff.mpr ?_
    simp only [List.all_eq_true, decide_eq_true_eq]
    refine forall_congr' fun u => forall_congr' fun hu => ?_
    rw [Nat.mod_eq_of_lt (show v < 2 ^ 8 from hv v mem), Nat.mod_eq_of_lt (show u < 2 ^ 8 from hv u hu)]
  · cases a <;> cases b <;> decide
  · have outcome : attemptOutcome s shown
        = readbackFrom i (sent :: (frameLine f).drop (i + 1)) (read :: shown.drop (i + 1)) := by
      rw [attemptOutcome, hframe]
      exact readback_at hsent hread same
    rw [outcome]
    refine ⟨fun h8 hs hr => ?_, fun h8 hs hr => ?_, fun h9 hne => ?_, fun hmatch => ?_⟩
    · exact readbackFrom_stop (by rw [readbackAt_field pos h8, fieldReadback, hs, hr]) _ _
    · exact readbackFrom_stop (by rw [readbackAt_field pos h8, fieldReadback, hs, hr]) _ _
    · exact readbackFrom_stop (by rw [readbackAt_body h9]; exact if_neg hne) _ _
    · have goesOn : readbackAt i sent read = none := by
        by_cases h8 : i ≤ 8
        · rw [if_pos h8] at hmatch
          rw [readbackAt_field pos h8]
          exact (fieldReadback_eq_none_iff _ _).mpr hmatch.symm
        · rw [if_neg h8] at hmatch
          rw [readbackAt_body (by omega)]
          exact (bodyReadback_eq_none_iff _ _).mpr hmatch
      rw [readbackFrom_go goesOn]
      refine ⟨fun last => ?_, fun more len => ?_⟩
      · rw [List.drop_of_length_le last.symm.le, readbackFrom_nil]
      · rw [List.drop_of_length_le (l := shown) len.le, List.drop_eq_getElem_cons more, readbackFrom_unread]
  · have numbers : f.priority = g.priority ∧ f.sender = g.sender := by
      simp only [TxFrame.arbitration] at h
      omega
    refine ⟨different_bits_fail hfl hgl numbers.1 numbers.2 hne, ?_⟩
    rw [overlayLines_comm]
    exact different_bits_fail hgl hfl numbers.1.symm numbers.2.symm hne.symm
  · rw [← h, overlayLines_self]
    exact readback_self f

end Sys2Proof.Machine
end

section
/-! PROOFS. The REPORT payload (R202, R203): fields packed into bits are read back, and the report a station gathers. -/

namespace Sys2Proof.Machine

-- In order, so that the proofs waiting on one another do not hold a stack each.
set_option Elab.async false

/-! ### Fields in a number -/

theorem packFields_lt : ∀ fields : List (Nat × Nat), packFields fields < 2 ^ (fields.map Prod.fst).sum
  | [] => by simp [packFields]
  | (w, v) :: rest => by
    have tail := packFields_lt rest
    have head : v % 2 ^ w < 2 ^ w := Nat.mod_lt _ (by positivity)
    rw [packFields, List.map_cons, List.sum_cons, Nat.pow_add]
    calc v % 2 ^ w * 2 ^ (rest.map Prod.fst).sum + packFields rest
        < v % 2 ^ w * 2 ^ (rest.map Prod.fst).sum + 2 ^ (rest.map Prod.fst).sum := by omega
      _ = (v % 2 ^ w + 1) * 2 ^ (rest.map Prod.fst).sum := by ring
      _ ≤ 2 ^ w * 2 ^ (rest.map Prod.fst).sum := Nat.mul_le_mul_right _ head

theorem packFields_append (xs ys : List (Nat × Nat)) :
    packFields (xs ++ ys) = packFields xs * 2 ^ (ys.map Prod.fst).sum + packFields ys := by
  induction xs with
  | nil => simp [packFields]
  | cons x xs ih =>
    obtain ⟨w, v⟩ := x
    simp only [List.cons_append, packFields, ih, List.map_append, List.sum_append, Nat.pow_add]
    ring

/-- What stands above the fields is not read. -/
theorem unpackFields_add (ws : List Nat) : ∀ a m : Nat, unpackFields ws (a * 2 ^ ws.sum + m) = unpackFields ws m := by
  induction ws with
  | nil => intro a m; rfl
  | cons w rest ih =>
    intro a m
    have split : a * 2 ^ (w :: rest).sum + m = a * 2 ^ w * 2 ^ rest.sum + m := by
      rw [List.sum_cons, Nat.pow_add]
      ring
    have quotient : (a * 2 ^ w * 2 ^ rest.sum + m) / 2 ^ rest.sum = a * 2 ^ w + m / 2 ^ rest.sum := by
      rw [Nat.add_comm, Nat.add_mul_div_right _ _ (by positivity), Nat.add_comm]
    rw [unpackFields, unpackFields, split, quotient, Nat.mul_add_mod_self_right, ih]

/-- Fields packed are read back, each within its width. -/
theorem unpackFields_packFields : ∀ ws vs : List Nat, ws.length = vs.length →
    (∀ p ∈ ws.zip vs, p.2 < 2 ^ p.1) → unpackFields ws (packFields (ws.zip vs)) = vs
  | [], [], _, _ => rfl
  | w :: ws, v :: vs, hl, hb => by
    have len : ws.length = vs.length := by simpa using hl
    have widths : ((ws.zip vs).map Prod.fst).sum = ws.sum := by rw [List.map_fst_zip len.le]
    have tail := packFields_lt (ws.zip vs)
    have fits : v < 2 ^ w := hb (w, v) (by simp)
    rw [widths] at tail
    rw [List.zip_cons_cons, packFields, widths, Nat.mod_eq_of_lt fits, unpackFields, unpackFields_add,
      unpackFields_packFields ws vs len fun p hp => hb p (by simp [hp]), Nat.add_comm,
      Nat.add_mul_div_right _ _ (by positivity), Nat.div_eq_of_lt tail, Nat.zero_add, Nat.mod_eq_of_lt fits]

/-! ### The codes of a report -/

/-- A report's codes with the fields of the stack's layers and the reserved bits left open. -/
def Report.codesWith (r : Report) (bottom top seq age k : Nat) : List Nat :=
  [r.mode.code, r.feed.code, r.belowMin.toNat, r.adopted.toNat, r.operator.toNat,
   r.faultHold.toNat, r.rejoin.toNat, r.segmentEntry.getD 0, refusalCode r.refusal, r.cause.code,
   r.segment.getD 0, (r.stack.map StackView.depth).getD 0, r.rateScale, r.height.getD 2097151,
   r.strokeCount, r.channels.ch1.code, r.channels.ch2.code, r.channels.ch3.code,
   r.channels.ch4.code, r.candidate.getD 511, bottom, top, seq, age,
   (r.temperature.map fun t => (t + 450).toNat).getD 2047, r.cureRate, r.deficit.getD 16383,
   r.faults, k]

/-- The open fields stand at their places in the number. -/
theorem packFields_codesWith (r : Report) {bottom top seq age k : Nat} (hb : bottom < 2 ^ 11) (ht : top < 2 ^ 11)
    (hs : seq < 2 ^ 16) (ha : age < 2 ^ 16) (hk : k < 16) :
    packFields (reportWidths.zip (r.codesWith bottom top seq age k))
      = packFields (reportWidths.zip (r.codesWith 0 0 0 0 0)) + bottom * 2 ^ 116 + top * 2 ^ 105 + seq * 2 ^ 89
        + age * 2 ^ 73 + k := by
  simp only [Report.codesWith, reportWidths, List.zip_cons_cons, List.zip_nil_right, packFields, List.map_cons,
    List.map_nil, List.sum_cons, List.sum_nil, Nat.mod_eq_of_lt hb, Nat.mod_eq_of_lt ht, Nat.mod_eq_of_lt hs,
    Nat.mod_eq_of_lt ha, Nat.mod_eq_of_lt (show k < 2 ^ 4 from hk), Nat.zero_mod]
  ring

/-- The stack fields of a report, with an empty stack any bits (R203). -/
abbrev StackSpelled (stack : Option StackView) (bottom top seq age : Nat) : Prop :=
  match stack with
  | none => True
  | some v => v.bottomMaturity = bottom ∧ v.topMaturity = top ∧ v.topSeq = seq ∧ v.topAge = age

theorem Mode.ofCode_code (m : Mode) : Mode.ofCode m.code = some m := by cases m <;> rfl
theorem Mode.code_le (m : Mode) : m.code ≤ 8 := by cases m <;> decide
theorem FeedState.ofCode_code (m : FeedState) : FeedState.ofCode m.code = some m := by cases m <;> rfl
theorem FeedState.code_le (m : FeedState) : m.code ≤ 2 := by cases m <;> decide
theorem LimitCause.ofCode_code (m : LimitCause) : LimitCause.ofCode m.code = some m := by cases m <;> rfl
theorem LimitCause.code_le (m : LimitCause) : m.code ≤ 9 := by cases m <;> decide
theorem ChState.ofCode_code (m : ChState) : ChState.ofCode m.code = some m := by cases m <;> rfl
theorem ChState.code_le (m : ChState) : m.code ≤ 6 := by cases m <;> decide

theorem refusalOfCode_refusalCode (m : Option RefusalCause) : refusalOfCode (refusalCode m) = some m := by
  rcases m with _ | m
  · rfl
  · cases m <;> rfl

theorem refusalCode_le (m : Option RefusalCause) : refusalCode m ≤ 4 := by
  rcases m with _ | m
  · decide
  · cases m <;> decide

theorem toNat_beq_one (b : Bool) : (b.toNat == 1) = b := by cases b <;> rfl

/-- A field is read back from its code or its absent code. -/
theorem absent_or_value {α : Type} [DecidableEq α] {v : Option α} {absent : α} (h : ∀ a ∈ v, a ≠ absent) :
    (if v.getD absent = absent then none else some (v.getD absent)) = v := by
  rcases v with _ | a
  · simp
  · simp [h a rfl]

section
variable {r : Report} (h : ReportInRange r)
include h

/-- Every code of a report in range fits its field. -/
theorem codesWith_fit {bottom top seq age k : Nat} (hb : bottom < 2 ^ 11) (ht : top < 2 ^ 11) (hs : seq < 2 ^ 16)
    (ha : age < 2 ^ 16) (hk : k < 16) : ∀ p ∈ reportWidths.zip (r.codesWith bottom top seq age k), p.2 < 2 ^ p.1 := by
  obtain ⟨entry, segment, stack, scale, height, strokes, candidate, temperature, rate, deficit, faults⟩ := h
  have bit (b : Bool) : b.toNat < 2 := b.toNat_lt
  have entryFits : r.segmentEntry.getD 0 < 2 ^ 4 := by
    rcases e : r.segmentEntry with _ | v
    · decide
    · have := entry v e
      simp only [Option.getD_some]
      omega
  have segmentFits : r.segment.getD 0 < 2 ^ 4 := by
    rcases e : r.segment with _ | v
    · decide
    · have := segment v e
      simp only [Option.getD_some]
      omega
  have depthFits : (r.stack.map StackView.depth).getD 0 < 2 ^ 5 := by
    rcases e : r.stack with _ | v
    · decide
    · have := (stack v e).2.1
      simp only [Option.map_some, Option.getD_some]
      omega
  have heightFits : r.height.getD 2097151 < 2 ^ 21 := by
    rcases e : r.height with _ | v
    · decide
    · have := height v e
      simp only [Option.getD_some]
      omega
  have candidateFits : r.candidate.getD 511 < 2 ^ 9 := by
    rcases e : r.candidate with _ | v
    · decide
    · have := candidate v e
      simp only [Option.getD_some]
      omega
  have temperatureFits : (r.temperature.map fun t => (t + 450).toNat).getD 2047 < 2 ^ 11 := by
    rcases e : r.temperature with _ | v
    · decide
    · have := temperature v e
      simp only [Option.map_some, Option.getD_some]
      omega
  have deficitFits : r.deficit.getD 16383 < 2 ^ 14 := by
    rcases e : r.deficit with _ | v
    · decide
    · have := deficit v e
      simp only [Option.getD_some]
      omega
  have channel (c : ChState) : c.code < 2 ^ 3 := by have := c.code_le; omega
  have mode := r.mode.code_le
  have feed := r.feed.code_le
  have refusal := refusalCode_le r.refusal
  have cause := r.cause.code_le
  simp only [Report.codesWith, reportWidths, List.zip_cons_cons, List.zip_nil_right, List.forall_mem_cons,
    List.not_mem_nil, false_implies, implies_true, and_true]
  refine ⟨by omega, by omega, bit _, bit _, bit _, bit _, bit _, entryFits, by omega, by omega, segmentFits,
    depthFits, by omega, heightFits, strokes, channel _, channel _, channel _, channel _, candidateFits, hb, ht, hs,
    ha, temperatureFits, by omega, deficitFits, faults, hk⟩

/-- The codes of a report in range are codes that the table gives. -/
theorem codesGiven_codesWith {bottom top seq age k : Nat} (hs : StackSpelled r.stack bottom top seq age) :
    codesGiven (r.codesWith bottom top seq age k) = true := by
  obtain ⟨entry, segment, stack, scale, height, strokes, candidate, temperature, rate, deficit, faults⟩ := h
  have entryGiven : r.segmentEntry.getD 0 = 0 ∨ 2 ≤ r.segmentEntry.getD 0 ∧ r.segmentEntry.getD 0 ≤ 8 := by
    rcases e : r.segmentEntry with _ | v
    · exact Or.inl rfl
    · exact Or.inr (entry v e)
  have segmentGiven : r.segment.getD 0 ≤ 8 := by
    rcases e : r.segment with _ | v
    · decide
    · exact (segment v e).2
  have depthGiven : (r.stack.map StackView.depth).getD 0 ≤ 16
      ∧ ((r.stack.map StackView.depth).getD 0 = 0 ∨ bottom ≤ 2000 ∧ top ≤ 2000) := by
    rcases e : r.stack with _ | v
    · exact ⟨by decide, Or.inl rfl⟩
    · rw [e] at hs
      obtain ⟨rfl, rfl, -, -⟩ := hs
      obtain ⟨-, depth, bottom, top, -⟩ := stack v e
      exact ⟨depth, Or.inr ⟨bottom, top⟩⟩
  have heightGiven : r.height.getD 2097151 ≤ 2000000 ∨ r.height.getD 2097151 = 2097151 := by
    rcases e : r.height with _ | v
    · exact Or.inr rfl
    · exact Or.inl (height v e)
  have candidateGiven : r.candidate.getD 511 ≤ 300 ∨ r.candidate.getD 511 = 511 := by
    rcases e : r.candidate with _ | v
    · exact Or.inr rfl
    · exact Or.inl (candidate v e)
  have temperatureGiven : (r.temperature.map fun t => (t + 450).toNat).getD 2047 ≤ 1500
      ∨ (r.temperature.map fun t => (t + 450).toNat).getD 2047 = 2047 := by
    rcases e : r.temperature with _ | v
    · exact Or.inr rfl
    · have := temperature v e
      simp only [Option.map_some, Option.getD_some]
      omega
  have deficitGiven : r.deficit.getD 16383 ≤ 15000 ∨ r.deficit.getD 16383 = 16383 := by
    rcases e : r.deficit with _ | v
    · exact Or.inr rfl
    · exact Or.inl (deficit v e)
  simp only [codesGiven, Report.codesWith, Bool.and_eq_true, Bool.or_eq_true, decide_eq_true_eq, beq_iff_eq]
  exact ⟨⟨⟨⟨⟨⟨⟨⟨⟨⟨⟨⟨⟨⟨⟨⟨⟨r.mode.code_le, r.feed.code_le⟩, entryGiven⟩, refusalCode_le r.refusal⟩, r.cause.code_le⟩,
    segmentGiven⟩, depthGiven.1⟩, scale⟩, heightGiven⟩, ChState.code_le _⟩, ChState.code_le _⟩, ChState.code_le _⟩,
    ChState.code_le _⟩, candidateGiven⟩, depthGiven.2⟩, temperatureGiven⟩, rate⟩, deficitGiven⟩

/-- A report as a receiver takes it: what its mode and its cause make absent left out (R203). -/
theorem reportOfCodes_codesWith {bottom top seq age k : Nat} (hs : StackSpelled r.stack bottom top seq age) :
    reportOfCodes (r.codesWith bottom top seq age k) = some { r with
      height := if r.mode ∈ [.setup, .locked, .joining] then none else r.height
      candidate := if r.cause = .none then none else r.candidate
      segment := if r.cause = .none then none else r.segment } := by
  obtain ⟨entry, segment, stack, scale, height, strokes, candidate, temperature, rate, deficit, faults⟩ := h
  have entryRead : (if r.segmentEntry.getD 0 = 0 then none else some (r.segmentEntry.getD 0)) = r.segmentEntry :=
    absent_or_value fun v e => by have := entry v e; omega
  have segmentRead : (if r.cause = .none ∨ r.segment.getD 0 = 0 then none else some (r.segment.getD 0))
      = if r.cause = .none then none else r.segment := by
    have value := absent_or_value (v := r.segment) (absent := 0) fun v e => by have := segment v e; omega
    by_cases hc : r.cause = .none
    · simp [hc]
    · simpa [hc] using value
  have candidateRead : (if r.cause = .none ∨ r.candidate.getD 511 = 511 then none else some (r.candidate.getD 511))
      = if r.cause = .none then none else r.candidate := by
    have value := absent_or_value (v := r.candidate) (absent := 511) fun v e => by have := candidate v e; omega
    by_cases hc : r.cause = .none
    · simp [hc]
    · simpa [hc] using value
  have heightRead : (if r.mode.reportsHeight = false ∨ r.height.getD 2097151 = 2097151 then none
      else some (r.height.getD 2097151)) = if r.mode ∈ [.setup, .locked, .joining] then none else r.height := by
    have value := absent_or_value (v := r.height) (absent := 2097151) fun v e => by have := height v e; omega
    have modes : r.mode.reportsHeight = false ↔ r.mode ∈ [Mode.setup, .locked, .joining] := by
      cases r.mode <;> decide
    by_cases hm : r.mode ∈ [Mode.setup, .locked, .joining]
    · rw [if_pos (Or.inl (modes.mpr hm)), if_pos hm]
    · simp only [modes, hm, false_or]
      exact value
  have deficitRead : (if r.deficit.getD 16383 = 16383 then none else some (r.deficit.getD 16383)) = r.deficit :=
    absent_or_value fun v e => by have := deficit v e; omega
  have temperatureRead : (if (r.temperature.map fun t => (t + 450).toNat).getD 2047 = 2047 then none
      else some ((((r.temperature.map fun t => (t + 450).toNat).getD 2047 : Nat) : Int) - 450)) = r.temperature := by
    rcases e : r.temperature with _ | t
    · rfl
    · have := temperature t e
      simp only [Option.map_some, Option.getD_some]
      rw [if_neg (by omega)]
      congr 1
      omega
  have stackRead : (if (r.stack.map StackView.depth).getD 0 = 0 then none
      else some ⟨(r.stack.map StackView.depth).getD 0, bottom, top, seq, age⟩) = r.stack := by
    rcases e : r.stack with _ | v
    · rfl
    · rw [e] at hs
      obtain ⟨rfl, rfl, rfl, rfl⟩ := hs
      have deep := (stack v e).1
      simp only [Option.map_some, Option.getD_some]
      rw [if_neg (by omega)]
  simp only [reportOfCodes, Report.codesWith, Mode.ofCode_code, FeedState.ofCode_code, refusalOfCode_refusalCode,
    LimitCause.ofCode_code, ChState.ofCode_code, bind, Option.bind, pure, toNat_beq_one, entryRead, segmentRead,
    candidateRead, heightRead, deficitRead, temperatureRead, stackRead]

/-- The bits of a report in range are read back, whatever its open fields hold. -/
theorem decodeReport_codesWith {bottom top seq age k : Nat} (hb : bottom < 2 ^ 11) (ht : top < 2 ^ 11)
    (hq : seq < 2 ^ 16) (ha : age < 2 ^ 16) (hk : k < 16) (hs : StackSpelled r.stack bottom top seq age) :
    decodeReport (packFields (reportWidths.zip (r.codesWith bottom top seq age k))) = some { r with
      height := if r.mode ∈ [.setup, .locked, .joining] then none else r.height
      candidate := if r.cause = .none then none else r.candidate
      segment := if r.cause = .none then none else r.segment } := by
  have codes : unpackFields reportWidths (packFields (reportWidths.zip (r.codesWith bottom top seq age k)))
      = r.codesWith bottom top seq age k := unpackFields_packFields _ _ rfl (codesWith_fit h hb ht hq ha hk)
  rw [decodeReport, codes]
  exact (if_pos (codesGiven_codesWith h hs)).trans (reportOfCodes_codesWith h hs)

/-- A report's own layer fields, and any reserved bits. -/
theorem encodeReport_add {k : Nat} (hk : k < 16) :
    ∃ bottom top seq age, bottom < 2 ^ 11 ∧ top < 2 ^ 11 ∧ seq < 2 ^ 16 ∧ age < 2 ^ 16
      ∧ StackSpelled r.stack bottom top seq age
      ∧ encodeReport r + k = packFields (reportWidths.zip (r.codesWith bottom top seq age k)) := by
  obtain ⟨-, -, stack, -⟩ := h
  rcases e : r.stack with _ | v
  · refine ⟨0, 0, 0, 0, by decide, by decide, by decide, by decide, trivial, ?_⟩
    have codes : r.codes = r.codesWith 0 0 0 0 0 := by simp [Report.codes, Report.codesWith, e]
    rw [packFields_codesWith r (by decide) (by decide) (by decide) (by decide) hk, encodeReport, codes]
    simp
  · obtain ⟨-, -, bottom, top, seq, age⟩ := stack v e
    have hb : v.bottomMaturity < 2 ^ 11 := by omega
    have ht : v.topMaturity < 2 ^ 11 := by omega
    refine ⟨v.bottomMaturity, v.topMaturity, v.topSeq, v.topAge, hb, ht, seq, age, ⟨rfl, rfl, rfl, rfl⟩, ?_⟩
    have codes : r.codes = r.codesWith v.bottomMaturity v.topMaturity v.topSeq v.topAge 0 := by
      simp [Report.codes, Report.codesWith, e]
    rw [packFields_codesWith r hb ht seq age hk, encodeReport, codes,
      packFields_codesWith r hb ht seq age (by decide)]
    simp

end

/-- Settles O47: each field fits its width and is read back from its code, so the report is, whatever stands in
the bits that are sent as 0. -/
theorem reportReadsBack : Obligations.ReportReadsBack := by
  intro r k h hk read
  obtain ⟨bottom, top, seq, age, hb, ht, hq, ha, spelled, bits⟩ := encodeReport_add h hk
  refine ⟨?_, ?_, fun none bottom top seq age hb ht hq ha => ?_⟩
  · have widths : ((reportWidths.zip (r.codesWith bottom top seq age k)).map Prod.fst).sum = 224 := by
      rw [List.map_fst_zip (by simp [reportWidths, Report.codesWith])]
      decide
    rw [bits, ← widths]
    exact packFields_lt _
  · rw [bits]
    exact decodeReport_codesWith h hb ht hq ha hk spelled
  · have codes : r.codes = r.codesWith 0 0 0 0 0 := by simp [Report.codes, Report.codesWith, none]
    rw [encodeReport, codes, ← packFields_codesWith r hb ht hq ha hk]
    exact decodeReport_codesWith h hb ht hq ha hk (by rw [none]; trivial)

/-! ### The report a station gathers -/

theorem strokeNominal_le {r : SetupRecord} (hr : recordInRange r = true) : r.strokeNominal ≤ 300 :=
  nat_le_of_inRange hr (i := 35) (by decide) rfl

theorem faultCode_eq (s : State) : faultCode s = ofBits (faultBits s) := rfl

@[simp] theorem faultBits_length (s : State) : (faultBits s).length = 32 := by simp [faultBits, Ch.all]

theorem ofBits_lt (bs : List Bool) : ofBits bs < 2 ^ bs.length := by
  have bits := ofBits_natBits bs.length (ofBits bs)
  rw [natBits_ofBits] at bits
  exact bits ▸ Nat.mod_lt _ (by positivity)

theorem natBits_faultCode (s : State) : natBits 32 (faultCode s) = faultBits s := by
  have h := natBits_ofBits (faultBits s)
  rwa [faultBits_length] at h

theorem stackView_of_ends {s : State} {low high : Layer} (hl : s.stack.layers.head? = some low)
    (hh : s.stack.layers.getLast? = some high) :
    stackView s = some ⟨s.stack.layers.length, low.maturity / 600, high.maturity / 600, high.seq,
      s.cure.clock - high.placed⟩ := by
  simp [stackView, hl, hh, degreeHours, Config.unitsPerDegreeHour]

theorem stackView_nil {s : State} (h : s.stack.layers = []) : stackView s = none := by simp [stackView, h]

theorem reportedHeight_eq (s : State) :
    reportedHeight s = if s.ctl.mode ∈ [.setup, .locked, .joining] then none else some s.seq.height := by
  unfold reportedHeight
  cases s.ctl.mode <;> rfl

section
variable {s : State} (hs : Sound s)
include hs

theorem stackView_inRange : ∀ v ∈ stackView s, 1 ≤ v.depth ∧ v.depth ≤ 16 ∧ v.bottomMaturity ≤ 2000
    ∧ v.topMaturity ≤ 2000 ∧ v.topSeq < 65536 ∧ v.topAge < 65536 := by
  intro v hv
  obtain ⟨⟨count, -, -, ranges⟩, -⟩ := hs.stack
  obtain ⟨clock, -⟩ := hs.cure
  have range : ∀ l ∈ s.stack.layers, l.seq < 65536 ∧ l.maturity ≤ 1200000 := by
    intro l hl
    have fields : l.seq < 65536 ∧ l.top ≤ 2015000 ∧ l.placed < 65536 ∧ l.maturity ≤ Config.maturityCap := by
      simpa [layerInRange, and_assoc] using List.all_eq_true.mp ranges l hl
    exact ⟨fields.1, fields.2.2.2⟩
  rcases e : s.stack.layers with _ | ⟨low, rest⟩
  · rw [stackView_nil e] at hv
    nomatch hv
  · have head : s.stack.layers.head? = some low := by rw [e]; rfl
    have last : s.stack.layers.getLast? = some ((low :: rest).getLast (by simp)) := by
      rw [e]
      exact List.getLast?_eq_some_getLast (by simp)
    rw [stackView_of_ends head last] at hv
    cases hv
    have lowRange := range low (List.mem_of_head? head)
    have highRange := range _ (List.mem_of_getLast? last)
    have nonempty : 1 ≤ s.stack.layers.length := by rw [e]; simp
    simp only [Config.maxLayers] at count
    refine ⟨nonempty, count, ?_, ?_, highRange.1, by show s.cure.clock - _ < _; omega⟩ <;> dsimp only <;> omega

/-- A candidate rise and a current segment are in their ranges, and absent with limit cause NONE. -/
theorem plan_fields_inRange : (∀ k ∈ s.plan.last.segment, 1 ≤ k ∧ k ≤ 8) ∧ (∀ v ∈ s.plan.last.candidate, v ≤ 300)
    ∧ (s.plan.last.cause = .none → s.plan.last.candidate = none ∧ s.plan.last.segment = none) := by
  obtain ⟨-, blank, given, -⟩ := hs.plan
  have nominal := strokeNominal_le hs.setup.inRange
  by_cases hc : s.plan.last.cause = .none
  · rw [blank hc]
    exact ⟨nofun, nofun, fun _ => ⟨rfl, rfl⟩⟩
  · obtain ⟨candidate, segment⟩ := given hc
    refine ⟨fun k hk => ?_, fun v hv => ?_, fun h => absurd h hc⟩
    · rw [Option.mem_def.mp hk] at segment
      simpa using segment
    · rw [Option.mem_def.mp hv] at candidate
      have : v ≤ s.setup.strokeNominal := by simpa using candidate
      omega

/-- What a sound station gathers lies in the ranges of R202. -/
theorem gatherReport_inRange : ReportInRange (gatherReport s) := by
  obtain ⟨segment, candidate, -⟩ := plan_fields_inRange hs
  obtain ⟨-, -, -, -, entry⟩ := hs.pause
  obtain ⟨-, -, -, scale, -⟩ := hs.mode
  obtain ⟨-, -, height, strokes⟩ := hs.height
  obtain ⟨-, -, rate, -, -, inUse, -⟩ := hs.cure
  obtain ⟨depth, -⟩ := hs.depth
  have form := formHeight_le hs.setup.inRange
  refine ⟨entry, segment, stackView_inRange hs, scale, fun h hh => ?_, strokes, candidate, fun t ht => ?_, rate,
    fun d hd => (depth d hd).trans form, ?_⟩
  · change h ∈ reportedHeight s at hh
    rw [reportedHeight_eq] at hh
    split at hh
    · nomatch hh
    · cases hh
      exact height
  · have := inUse t ht
    simpa [temperatureInRange] using this
  · show faultCode s < 2 ^ 32
    have := ofBits_lt (faultBits s)
    rwa [faultBits_length] at this

end

/-- What a receiver leaves out of a sound station's report is absent already. -/
theorem gatherReport_asRead {s : State} (hs : Sound s) : { gatherReport s with
      height := if (gatherReport s).mode ∈ [.setup, .locked, .joining] then none else (gatherReport s).height
      candidate := if (gatherReport s).cause = .none then none else (gatherReport s).candidate
      segment := if (gatherReport s).cause = .none then none else (gatherReport s).segment } = gatherReport s := by
  obtain ⟨-, -, absent⟩ := plan_fields_inRange hs
  have height : (if (gatherReport s).mode ∈ [Mode.setup, .locked, .joining] then none else (gatherReport s).height)
      = (gatherReport s).height := by
    show (if s.ctl.mode ∈ [Mode.setup, .locked, .joining] then none else reportedHeight s) = reportedHeight s
    rw [reportedHeight_eq]
    split <;> rfl
  have candidate : (if (gatherReport s).cause = .none then none else (gatherReport s).candidate)
      = (gatherReport s).candidate := by
    split
    case isTrue h => exact (absent h).1.symm
    case isFalse => rfl
  have segment : (if (gatherReport s).cause = .none then none else (gatherReport s).segment)
      = (gatherReport s).segment := by
    split
    case isTrue h => exact (absent h).2.symm
    case isFalse => rfl
  rw [height, candidate, segment]

/-- A sound station's report is read back as it was gathered. -/
theorem decodeReport_gatherReport {s : State} (hs : Sound s) :
    decodeReport (encodeReport (gatherReport s)) = some (gatherReport s) := by
  have readBack := (reportReadsBack (gatherReport s) 0 (gatherReport_inRange hs) (by decide)).2.1
  rw [Nat.add_zero] at readBack
  exact readBack.trans (congrArg some (gatherReport_asRead hs))

/-- Settles O48: each field is its block's own, the ranges are those of the laws, and the fault set bits are read
back from their number. -/
theorem reportCarriesState : Obligations.ReportCarriesState := by
  intro s hs g shows holds inSet
  obtain ⟨-, -, -, -, rise, -⟩ := hs.plan
  obtain ⟨-, -, -, -, -, -, out⟩ := hs.cure
  refine ⟨gatherReport_inRange hs, decodeReport_gatherReport hs, rise.symm, rfl, rfl, rfl, rfl, rfl, rfl, rfl,
    reportedHeight_eq s, rfl, fun ch _ => ?_, rfl, rfl, rfl, rfl, stackView_nil,
    fun low high => stackView_of_ends, List.any_eq_true, rfl, rfl, fun h => ?_, rfl, rfl, ?_⟩
  · cases ch <;> rfl
  · exact out (by simpa [State.isPresent, shows] using h)
  · refine (natBits_faultCode s).trans ?_
    simp [faultBits, Ch.all, State.isPresent, State.isLatched, inSet, shows, holds, beq_eq_decide, Bool.or_assoc]

end Sys2Proof.Machine
end

section
/-! PROOFS. The deferred openings, the gate and the fill probe (R82, R106 to R122): each command's blocks in a
sound station, and what its close leaves. -/

namespace Sys2Proof.Machine

-- In order, so that the proofs waiting on one another do not hold a stack each.
set_option Elab.async false

section
variable {s t u : State}

/-! ### The close where the channels keep their states -/

theorem anyMoving_eq (s : State) : anyMoving s = Ch.all.any fun ch => (s.chan ch).moving := rfl

/-- A command that keeps every channel in its state and ends no EXTEND TIMEOUT closes with a report of a changed
fault set and the busy-line timer alone. -/
theorem settled_of_states (hs : Sound s) (hc : ∀ ch : Ch, (t.chan ch).state = (s.chan ch).state)
    (hp : ∀ ch : Ch, t.isPresent (.extendTimeout ch) = true → s.isPresent (.extendTimeout ch) = true) :
    (settled s t).body = t.body ∧ (settled s t).line.report
      = if faultView t = faultView s then t.line.report else t.line.report.request .urgent := by
  obtain ⟨-, -, -, -, -, hover⟩ := hs.presence
  have keep : ∀ c ∈ t.sup.present, (!extendTimeoutOver t c) = true := by
    intro c hmem
    cases c with
    | extendTimeout ch =>
      have same : extendTimeoutOver t (.extendTimeout ch) = extendTimeoutOver s (.extendTimeout ch) := by
        simp only [extendTimeoutOver, hc]
      have present : s.isPresent (.extendTimeout ch) = true := hp ch (by simpa [State.isPresent] using hmem)
      rw [same, Bool.not_eq_true', ← Bool.not_eq_true]
      intro hend
      rw [hover ch (Ch.mem_all ch) hend] at present
      cases present
    | _ => rfl
  have present : t.sup.present.filter (fun c => !extendTimeoutOver t c) = t.sup.present := List.filter_eq_self.mpr keep
  have ends : endExtendTimeouts t = t := by rw [endExtendTimeouts, present]
  have moving : anyMoving t = anyMoving s := by simp only [anyMoving_eq, Channel.moving, hc]
  obtain ⟨busy, e⟩ := settled_spec s t
  rw [ends, present, moving, Bool.and_not_self] at e
  rw [e]
  exact ⟨rfl, rfl⟩

/-! ### A deferred opening -/

/-- Settles O29: the opening is deferred to the end of T_dead, and the channel keeps its state. -/
theorem deferredValveOpens : Obligations.DeferredValveOpens := by
  intro s ch d hs hd now c e
  obtain ⟨-, -, -, hext, hret, hother, -⟩ := hs.valves ch (Ch.mem_all ch)
  have due : c.state = .extend ∨ c.state = .retract := by
    by_contra h
    rw [not_or] at h
    exact absurd (hd.symm.trans (hother h.1 h.2)) nofun
  have opened : Channel.openDeferred s.setup now c = e := by
    rcases due with h | h <;> simp [Channel.openDeferred, e, h]
  have state : e.state = c.state := opened ▸ Channel.openDeferred_state
  let v : State := { s with now := now, seq.chans := s.seq.chans.set ch e }
  have opens : exec (.deferredValveOpening ch) s = finish s v := by
    refine congrArg (finish s) ((if_pos (by rw [hd]; rfl)).trans ?_)
    show updateCh ch (Channel.openDeferred s.setup (max s.now ((s.chan ch).deferred.getD 0)))
      (expireAt (s.chan ch).deferred s) = v
    rw [hd]
    exact congrArg (fun x => ({ s with now := now, seq.chans := s.seq.chans.set ch x } : State)) opened
  have states : ∀ x : Ch, (v.chan x).state = (s.chan x).state := fun x => by
    show ((s.seq.chans.set ch e).get x).state = _
    rw [PerChannel.get_set]
    split
    · rename_i h
      rw [state, h]
    · rfl
  obtain ⟨hb, hr⟩ := settled_of_states (t := v) hs states fun _ => id
  have view : faultView v = faultView s := rfl
  refine ⟨_, opens, hb, hr.trans (if_pos view), fun h => ?_, fun h => ?_⟩
  · have moment := hd.symm.trans (hext h)
    rw [SameBody.now hb (x := now)]
    split at moment
    · nomatch moment
    · exact (Option.some.inj moment) ▸ Nat.le_max_right _ _
  · have moment := hd.symm.trans (hret h)
    rw [SameBody.now hb (x := now)]
    split at moment
    · nomatch moment
    · exact (Option.some.inj moment) ▸ Nat.le_max_right _ _

/-! ### The permission withdrawn -/

/-- The feed controller in IDLE with the gate shut, and the reckoning where a gate was open (R117, R118, R122). -/
def feedWithdrawn (s : State) : State :=
  { s with
    feed := { s.feed with
      state := .idle, settled := false, settleTimer := none, feedTimer := none, gate := false,
      blankTimer := if s.feed.state = .opened then blankStart s else s.feed.blankTimer }
    stack.reckoning := s.feed.state == .opened || s.stack.reckoning
    line.report := if s.feed.state = .idle then s.line.report else s.line.report.request .urgent }

/-- A feed in IDLE with its gate shut and its timers stopped, written out. -/
theorem Feed.eq_of_idle {f : Feed} (hi : f.state = .idle) (hs : f.settled = false) (ht : f.settleTimer = none)
    (hf : f.feedTimer = none) (hg : f.gate = false) :
    { f with state := .idle, settled := false, settleTimer := none, feedTimer := none, gate := false } = f := by
  cases f
  simp_all

theorem feedWithdrawn_of_idle (h : GateShape s) (hi : s.feed.state = .idle) : feedWithdrawn s = s := by
  obtain ⟨hgate, hsettled, hsettle, hfeed⟩ := h
  have off : s.feed.settled = false := by
    rw [← Bool.not_eq_true]
    intro k
    exact absurd (hi.symm.trans (hsettled k)) nofun
  rw [hi] at hgate hsettle hfeed
  have noSettle : s.feed.settleTimer = none := Option.not_isSome_iff_eq_none.mp (by rw [hsettle]; exact nofun)
  have noFeed : s.feed.feedTimer = none := Option.not_isSome_iff_eq_none.mp (by rw [hfeed]; exact nofun)
  calc feedWithdrawn s
    _ = { s with feed := { s.feed with
            state := .idle, settled := false, settleTimer := none, feedTimer := none, gate := false } } := by
        simp only [feedWithdrawn, hi, reduceCtorEq, if_false, if_true]
        rfl
    _ = s := by rw [Feed.eq_of_idle hi off noSettle noFeed hgate]

theorem feedWithdrawn_of_asking (h : GateShape s) (ha : s.feed.state = .asking) : feedWithdrawn s = leaveAsking s := by
  obtain ⟨hgate, -, -, hfeed⟩ := h
  rw [ha] at hgate hfeed
  have noFeed : s.feed.feedTimer = none := Option.not_isSome_iff_eq_none.mp (by rw [hfeed]; exact nofun)
  have gate : s.feed.gate = false := hgate
  simp only [feedWithdrawn, leaveAsking, requestReport, ha, noFeed, gate, reduceCtorEq, if_false]
  rfl

theorem feedWithdrawn_of_opened (ho : s.feed.state = .opened) : feedWithdrawn s = closeGate .idle s := by
  simp [feedWithdrawn, closeGate, requestReport, ho]

/-- The permission is not given: the station is in IDLE with its gate shut (R110, R117, R118). -/
theorem rejudgeFeed_withdrawn (h : GateShape s) (hl : feedAllowed s = false) (was : Bool) :
    rejudgeFeed was s = feedWithdrawn s := by
  rcases rejudgeFeed_cases was s with ⟨k, -⟩ | ⟨k, -⟩ | ⟨-, hf, e⟩ | ⟨-, hf, e⟩ | ⟨-, hf, e⟩
  · rw [hl] at k; cases k
  · rw [hl] at k; cases k
  · rw [e, feedWithdrawn_of_idle h hf]
  · rw [e, feedWithdrawn_of_asking h hf]
  · rw [e, feedWithdrawn_of_opened hf]

/-! ### A station ready for a change of its conditions -/

/-- A steady station whose FAULT HOLD stands with its HOLD-class conditions (R8). -/
structure Poised (s : State) : Prop where
  steady : Steady s
  held : s.ctl.pause.faultHold = (s.effectiveMode.climbs && s.holdPresent)

theorem Sound.poised (hs : Sound s) : Poised s := ⟨hs.steady, hs.held⟩

theorem heldMode_works (s : State) : (heldMode s).works = s.ctl.mode.works := by
  unfold heldMode
  split
  · rename_i h; rw [h.1]; rfl
  · split
    · rename_i h; rw [h.1]; rfl
    · rfl

theorem heldMode_climbs (s : State) : (heldMode s).climbs = s.ctl.mode.climbs := by
  unfold heldMode
  split
  · rename_i h; rw [h.1]; rfl
  · split
    · rename_i h; rw [h.1]; rfl
    · rfl

theorem heldMode_of_not_climbs (h : s.ctl.mode.climbs = false) : heldMode s = s.ctl.mode := by
  unfold heldMode
  split
  · rename_i k; rw [k.1] at h; cases h
  · split
    · rename_i k; rw [k.1] at h; cases h
    · rfl

theorem heldMode_eq_reduced_iff : heldMode s = .reduced ↔ s.ctl.mode = .reduced := by
  constructor
  · intro h
    have climbs := heldMode_climbs s
    rw [h] at climbs
    exact (heldMode_of_not_climbs climbs.symm).symm.trans h
  · intro h
    exact (heldMode_of_not_climbs (by rw [h]; rfl)).trans h

theorem heldMode_takesCommands (s : State) : (heldMode s).takesCommands = s.ctl.mode.takesCommands := by
  unfold heldMode
  split
  · rename_i h; rw [h.1]; rfl
  · split
    · rename_i h; rw [h.1]; rfl
    · rfl

theorem holdFollowed_effective_climbs (s : State) :
    (holdFollowed s).effectiveMode.climbs = s.effectiveMode.climbs := by
  by_cases h : s.ctl.mode = .reduced
  · rw [effectiveMode_of_reduced h, effectiveMode_of_reduced (s := holdFollowed s) (heldMode_eq_reduced_iff.mpr h)]
    rfl
  · rw [effectiveMode_of_ne_reduced h,
      effectiveMode_of_ne_reduced (s := holdFollowed s) (mt heldMode_eq_reduced_iff.mp h)]
    exact heldMode_climbs s

theorem feedAllowed_holdFollowed (s : State) : feedAllowed (holdFollowed s) = feedAllowed s := by
  have works : (holdFollowed s).ctl.mode.works = s.ctl.mode.works := heldMode_works s
  simp only [feedAllowed, works]
  rfl

/-- FAULT HOLD has followed, and there is nothing more to follow. -/
theorem Steady.holdFollowed (h : Steady s) : Poised (holdFollowed s) := by
  have climbs := holdFollowed_effective_climbs s
  have held : (Machine.holdFollowed s).ctl.pause.faultHold
      = ((Machine.holdFollowed s).effectiveMode.climbs && (Machine.holdFollowed s).holdPresent) := by
    rw [climbs]
    rfl
  refine ⟨⟨fun k => ?_, fun k => ?_, fun k => ?_, fun k => ?_, fun k => ?_, fun k => ?_, fun k => ?_⟩, held⟩
  · exact h.top ((heldMode_works s).symm.trans k)
  · exact h.waits ((heldMode_climbs s).symm.trans k)
  · exact (feedAllowed_holdFollowed s).trans (h.gate k)
  · exact h.taken ((heldMode_takesCommands s).symm.trans k)
  · have outside := climbs.symm.trans k
    show heldPause s = .empty
    rw [heldPause, outside, h.outside outside]
    rfl
  · show heldPause s = .empty
    change heldMode s = .climbing at k
    unfold heldMode at k
    split at k
    · nomatch k
    · rename_i open_
      split at k
      · rename_i last
        exact last.2
      · have free : s.holdPresent = false := by
          rw [← Bool.not_eq_true]
          exact fun hh => open_ ⟨k, hh⟩
        rw [heldPause, free, Bool.and_false, h.climbing k]
        rfl
  · show (heldPause s).isEmpty = false
    change heldMode s = .paused at k
    rw [← Bool.not_eq_true, PauseSet.isEmpty_iff]
    intro empty
    unfold heldMode at k
    split at k
    · rename_i joined
      have on : (heldPause s).faultHold = true := by
        simp [heldPause, State.effectiveMode, joined.1, joined.2, Mode.climbs]
      rw [empty] at on
      cases on
    · split at k
      · nomatch k
      · rename_i stays
        exact stays ⟨k, empty⟩

theorem Poised.alike (h : Poised u) (k : Alike t u) : Poised t := by
  have body := k.body
  have ctl : t.ctl = u.ctl := SameBody.ctl body
  refine ⟨h.steady.same ctl (congrArg Sequencer.height (SameBody.seq body)) (SameBody.setup body)
    (SameBody.feed body) fun hr => (SameBody.setupRequest body).symm.trans hr, ?_⟩
  rw [ctl, effectiveMode_of_ctl ctl, SameBody.holdPresent body (x := u.holdPresent)]
  exact h.held

/-- The end of a condition, and a station as ready as before. -/
theorem Poised.lapse (h : Poised s) (c : Cond) :
    Alike (lapseCond c s) (holdFollowed { s with sup.present := s.sup.present.filter (· != c) })
      ∧ Poised (lapseCond c s) := by
  have alike := lapseCond_alike h.steady h.held c
  have steady : Steady { s with sup.present := s.sup.present.filter (· != c) } := h.steady.same
  exact ⟨alike, steady.holdFollowed.alike alike⟩

/-- The onset of a condition that does not latch, and a station as ready as before. -/
theorem Poised.raise (h : Poised s) {c : Cond} (hl : s.latching c = false) :
    Alike (raiseCond c s) (holdFollowed { s with sup.present := presentWith c s }) ∧ Poised (raiseCond c s) := by
  have alike := raiseCond_alike h.steady h.held hl
  have steady : Steady { s with sup.present := presentWith c s } := h.steady.same
  exact ⟨alike, steady.holdFollowed.alike alike⟩

/-- A change that leaves the mode controller, the height, the record and the conditions, and a feed that is in
IDLE or allowed. -/
theorem Poised.refed (h : Poised s) (hg : t.feed.state ≠ .idle → feedAllowed t = true) (hctl : t.ctl = s.ctl := by rfl)
    (hheight : t.seq.height = s.seq.height := by rfl) (hsetup : t.setup = s.setup := by rfl)
    (hsup : t.sup = s.sup := by rfl)
    (hreq : t.line.setupRequest = s.line.setupRequest := by rfl) : Poised t := by
  have eff : t.effectiveMode = s.effectiveMode := effectiveMode_of_ctl hctl
  have hold : t.holdPresent = s.holdPresent := by
    simp only [State.holdPresent, State.classOf, State.effective, hsup, hsetup]
  have top : atTop t = atTop s := by simp only [atTop, hsetup, hheight]
  have waits : waitingSegment t = waitingSegment s := by
    simp only [waitingSegment, unreleased, hsetup, hheight, hctl]
  obtain ⟨steady, held⟩ := h
  refine ⟨⟨?_, ?_, hg, ?_, ?_, ?_, ?_⟩, ?_⟩
  · rw [hctl, top]; exact steady.top
  · rw [hctl, waits]; exact steady.waits
  · rw [hctl, hreq]; exact steady.taken
  · rw [eff, hctl]; exact steady.outside
  · rw [hctl]; exact steady.climbing
  · rw [hctl]; exact steady.paused
  · rw [hctl, eff, hold]; exact held

/-- Where the HOLD-class conditions stand as they did, nothing follows. -/
theorem Poised.holdFollowed_of_same (h : Poised s) {cs : List Cond}
    (hh : ({ s with sup.present := cs } : State).holdPresent = s.holdPresent) :
    holdFollowed { s with sup.present := cs } = { s with sup.present := cs } := by
  refine holdFollowed_self h.steady.same ?_
  show ({ s.ctl.pause with faultHold := s.effectiveMode.climbs && _ } : PauseSet) = s.ctl.pause
  rw [hh, ← h.held]

theorem holdPresent_presentWith {c : Cond} (hc : s.classOf c ≠ .hold) :
    ({ s with sup.present := presentWith c s } : State).holdPresent = s.holdPresent := by
  have no : (s.classOf c == .hold) = false := beq_eq_false_iff_ne.mpr hc
  unfold presentWith
  split
  · rfl
  · show (s.sup.present ++ [c]).any _ = s.sup.present.any _
    rw [List.any_append]
    show (s.sup.present.any _ || ((s.classOf c == .hold && s.effective c) || false)) = s.sup.present.any _
    rw [no, Bool.false_and, Bool.or_false, Bool.or_false]
    rfl

theorem presentWith_of_present {c : Cond} (hc : s.isPresent c = true) :
    ({ s with sup.present := presentWith c s } : State) = s := by
  rw [presentWith, if_pos hc]

theorem without_of_absent {c : Cond} (hc : s.isPresent c = false) :
    ({ s with sup.present := s.sup.present.filter (· != c) } : State) = s := by
  have same : s.sup.present.filter (· != c) = s.sup.present := by
    refine List.filter_eq_self.mpr fun e he => bne_iff_ne.mpr ?_
    rintro rfl
    rw [State.isPresent, List.contains_iff_mem.mpr he] at hc
    cases hc
  rw [same]

theorem holdPresent_without {c : Cond} (hc : s.classOf c ≠ .hold) :
    ({ s with sup.present := s.sup.present.filter (· != c) } : State).holdPresent = s.holdPresent := by
  show (s.sup.present.filter (· != c)).any _ = s.sup.present.any _
  rw [List.any_filter]
  refine congrArg (s.sup.present.any ·) (funext fun e => ?_)
  by_cases he : e = c
  · subst he
    have no : (s.classOf e == FaultClass.hold) = false := beq_eq_false_iff_ne.mpr hc
    show ((e != e) && ((s.classOf e == .hold) && s.effective e)) = ((s.classOf e == .hold) && s.effective e)
    rw [no]
    simp
  · have other : (e != c) = true := bne_iff_ne.mpr he
    rw [other, Bool.true_and]
    rfl

end

end Sys2Proof.Machine
end

section
/-! PROOFS. FEED HOLD and the feed controller's timers (R19, R107, R110, R112, R119, R122). -/

namespace Sys2Proof.Machine

-- In order, so that the proofs waiting on one another do not hold a stack each.
set_option Elab.async false

section
variable {s t u : State}

/-! ### Conditions that do not latch -/

theorem feedTimeout_not_latching (hs : Sound s) (hj : t.setup = s.setup) : t.latching .feedTimeout = false :=
  latching_eq_false_of_code rfl (hj ▸ (item_bounds hs.setup.inRange (i := 84) (by decide)).2)

theorem probe_not_latching (hs : Sound s) (hj : t.setup = s.setup) : t.latching .probe = false :=
  latching_eq_false_of_code rfl (hj ▸ (item_bounds hs.setup.inRange (i := 81) (by decide)).2)

theorem temperature_not_latching (hs : Sound s) (hj : t.setup = s.setup) : t.latching .temperature = false :=
  latching_eq_false_of_code rfl (hj ▸ (item_bounds hs.setup.inRange (i := 82) (by decide)).2)

/-- What the close leaves of a block's state that is alike but for the busy-line timer and the images, and moved no
channel (R149, R171, R197). -/
theorem Alike.closed (k : Alike t u) (hs : Sound s) (hc : u.seq.chans = s.seq.chans)
    (hp : ∀ ch : Ch, u.isPresent (.extendTimeout ch) = true → s.isPresent (.extendTimeout ch) = true) :
    SameBody (settled s t) u :=
  (settled_alike hs k hc hp).1

theorem extendTimeout_of_presentWith {c : Cond} (hne : ∀ ch : Ch, c ≠ .extendTimeout ch) {ch : Ch}
    (h : ({ s with sup.present := presentWith c s } : State).isPresent (.extendTimeout ch) = true) :
    s.isPresent (.extendTimeout ch) = true := by
  rw [isPresent_presentWith] at h
  simpa [(hne ch).symm] using h

theorem extendTimeout_of_without {c : Cond} {ch : Ch}
    (h : ({ s with sup.present := s.sup.present.filter (· != c) } : State).isPresent (.extendTimeout ch) = true) :
    s.isPresent (.extendTimeout ch) = true := by
  rw [isPresent_without] at h
  exact (Bool.and_eq_true_iff.mp h).1

/-! ### The end of T_feed -/

/-- A station whose gate is closed is as ready as before. -/
theorem Poised.closeGate (h : Poised s) : Poised (closeGate .idle s) :=
  h.refed (t := Machine.closeGate .idle s) fun k => absurd rfl k

theorem feedEnd_answers (hs : Sound s) {d : Nat} (hd : s.feed.feedTimer = some d) :
    let v : State := { s with now := max s.now d }
    ∃ t, exec .feedTimerExpiry s = .next t
      ∧ SameBody t (holdFollowed { closeGate .idle v with sup.present := presentWith .feedTimeout s }) := by
  intro v
  have ready : Poised v := hs.poised.refed (t := v) (by obtain ⟨-, hg, -⟩ := hs.gate; exact hg)
  have ends : exec .feedTimerExpiry s = finish s (raiseCond .feedTimeout (closeGate .idle v)) := by
    refine congrArg (finish s) ((if_pos (by rw [hd]; rfl)).trans ?_)
    rw [hd]
    rfl
  obtain ⟨alike, -⟩ := ready.closeGate.raise (feedTimeout_not_latching hs rfl)
  exact ⟨_, ends, alike.closed hs rfl fun ch k => extendTimeout_of_presentWith (s := s) (c := .feedTimeout) nofun k⟩

/-! ### FEED HOLD -/

/-- FEED HOLD on (R19, R110). -/
theorem setFeedHold_on (hs : Sound s) (hm : s.ctl.mode.takesCommands = true) :
    setFeedHold 1 s = feedWithdrawn { s with ctl.feedHold := true } := by
  have lost : feedAllowed { s with ctl.feedHold := true } = false := by simp [feedAllowed]
  have taken : setFeedHold 1 s = rejudgeFeed (feedAllowed s) { s with ctl.feedHold := true } :=
    if_pos (by rw [hm]; rfl)
  rw [taken]
  exact rejudgeFeed_withdrawn (s := { s with ctl.feedHold := true }) hs.gate.shape lost _

/-- FEED HOLD off: a short station in IDLE asks where that brings the permission (R19, R112). -/
theorem setFeedHold_off (hs : Sound s) (hm : s.ctl.mode.takesCommands = true) :
    setFeedHold 0 s
      = if s.ctl.feedHold = true ∧ s.ctl.mode.works = true ∧ s.feed.probeValid = true ∧ depthCalls s = true then
          enterAsking { s with ctl.feedHold := false }
        else { s with ctl.feedHold := false } := by
  obtain ⟨-, hallowed, -⟩ := hs.gate
  have taken : setFeedHold 0 s = rejudgeFeed (feedAllowed s) { s with ctl.feedHold := false } :=
    if_pos (by rw [hm]; rfl)
  have now : feedAllowed { s with ctl.feedHold := false } = (s.ctl.mode.works && s.feed.probeValid) := by
    simp [feedAllowed]
  have was : feedAllowed s = (s.ctl.mode.works && !s.ctl.feedHold && s.feed.probeValid) := rfl
  rw [taken]
  cases hold : s.ctl.feedHold
  · rw [if_neg fun k => absurd k.1 nofun]
    have same : ({ s with ctl.feedHold := false } : State) = s := by rw [← hold]
    rw [same]
    exact rejudgeFeed_of_same rfl hallowed
  · have idle : s.feed.state = .idle := by
      by_contra k
      simpa [was, hold] using hallowed k
    rw [was, hold, Bool.not_true, Bool.and_false, Bool.false_and]
    rcases rejudgeFeed_cases false { s with ctl.feedHold := false } with
      ⟨-, k, -⟩ | ⟨k, -, e⟩ | ⟨k, -, e⟩ | ⟨-, k, -⟩ | ⟨-, k, -⟩
    · cases k
    · rw [e]
      rw [now, Bool.and_eq_true] at k
      rcases askIfShort_cases { s with ctl.feedHold := false } with ⟨-, -, hd, e⟩ | ⟨no, e⟩ <;> rw [e]
      · exact (if_pos ⟨rfl, k.1, k.2, hd⟩).symm
      · refine (if_neg fun asks => no ⟨idle, ?_, asks.2.2.2⟩).symm
        rw [now, k.1, k.2]
        rfl
    · rw [e]
      rw [now] at k
      refine (if_neg fun asks => ?_).symm
      rw [asks.2.1, asks.2.2.1] at k
      cases k
    · exact absurd (idle.symm.trans k) nofun
    · exact absurd (idle.symm.trans k) nofun

/-- Settles O36: a close withdraws the feed, FEED HOLD judges the permission again, and FEED TIMEOUT follows the
close at the end of T_feed. -/
theorem gateClosesAndHolds : Obligations.GateClosesAndHolds := by
  intro s d hs now r blank closed
  refine ⟨fun hd => ?_, fun hd => ?_, fun sender target ha hm => ⟨?_, ?_, fun argument hlarge => ?_⟩⟩
  · obtain ⟨t, he, hb⟩ := feedEnd_answers hs hd
    have opened : s.feed.state = .opened := by
      obtain ⟨-, -, -, -, hfeed⟩ := hs.gate
      rw [hd] at hfeed
      exact beq_iff_eq.mp hfeed.symm
    have feed : t.feed = closed now := by
      refine SameBody.feed hb ?_
      simp only [closed, opened, if_true]
      rfl
    have stack : t.stack = { s.stack with reckoning := true } := SameBody.stack hb
    refine ⟨t, he, SameBody.now hb, feed, stack, ?_, SameBody.seq hb, SameBody.cure hb, SameBody.peers hb,
      SameBody.latched hb, fun hw => ?_⟩
    · exact (SameBody.isPresent hb .feedTimeout).trans
        ((isPresent_presentWith .feedTimeout .feedTimeout s).trans (by simp))
    · have ready : Poised (closeGate .idle { s with now := now }) :=
        (hs.poised.refed (t := { s with now := now }) (by obtain ⟨-, hg, -⟩ := hs.gate; exact hg)).closeGate
      have class_ne : s.classOf .feedTimeout ≠ .hold := by rw [hw]; exact nofun
      have still := ready.holdFollowed_of_same (cs := presentWith .feedTimeout s) (holdPresent_presentWith (s := s) class_ne)
      exact SameBody.ctl (hb.trans (congrArg State.body still))
  · have ends : exec .blankTimerExpiry s = finish s { s with now := now, feed.blankTimer := none } := by
      refine congrArg (finish s) ?_
      rw [hd]
      rfl
    obtain ⟨hb, -, -, hr⟩ := settled_calm (t := { s with now := now, feed.blankTimer := none }) hs rfl fun _ => id
    have view : faultView { s with now := now, feed.blankTimer := none } = faultView s := rfl
    exact ⟨_, ends, hb, hr.trans (if_pos view)⟩
  · have holds : exec (.feedHold sender target 1) s = finish s (feedWithdrawn { s with ctl.feedHold := true }) :=
      congrArg (finish s) ((if_pos ha).trans (setFeedHold_on hs hm))
    obtain ⟨hb, -, -, hr⟩ := settled_calm (t := feedWithdrawn { s with ctl.feedHold := true }) hs rfl fun _ => id
    have view : faultView (feedWithdrawn { s with ctl.feedHold := true }) = faultView s := rfl
    exact ⟨_, holds, hb, hr.trans (if_pos view)⟩
  · intro asks
    have frees : exec (.feedHold sender target 0) s
        = finish s (if asks then enterAsking { s with ctl.feedHold := false } else { s with ctl.feedHold := false }) :=
      congrArg (finish s) ((if_pos ha).trans (setFeedHold_off hs hm))
    refine ⟨_, frees, ?_⟩
    by_cases h : asks
    · rw [if_pos h, if_pos h, if_pos h]
      obtain ⟨hb, -, -, hr⟩ := settled_calm (t := enterAsking { s with ctl.feedHold := false }) hs rfl fun _ => id
      have view : faultView (enterAsking { s with ctl.feedHold := false }) = faultView s := rfl
      exact ⟨hb, hr.trans (if_pos view)⟩
    · rw [if_neg h, if_neg h, if_neg h]
      obtain ⟨hb, -, -, hr⟩ := settled_calm (t := { s with ctl.feedHold := false }) hs rfl fun _ => id
      have view : faultView { s with ctl.feedHold := false } = faultView s := rfl
      exact ⟨hb, hr.trans (if_pos view)⟩
  · have deaf : setFeedHold argument.toNat s = s := by
      have off : (s.ctl.mode.takesCommands && decide (argument.toNat ≤ 1)) = false := by
        rw [Bool.and_eq_false_iff]
        exact Or.inr (decide_eq_false (by omega))
      exact if_neg (by rw [off]; exact nofun)
    exact unchanged_of hs (congrArg (finish s) ((if_pos ha).trans deaf))

end

end Sys2Proof.Machine
end

section
/-! PROOFS. The fill probe's samples (R106 to R109, R112, R117, R118) and the reckoning they make (R50 to R54). -/

namespace Sys2Proof.Machine

-- In order, so that the proofs waiting on one another do not hold a stack each.
set_option Elab.async false

section
variable {s t u : State} {depth : Nat}

/-! ### What a sample leaves of the other blocks -/

/-- The blocks a probe sample does not reach stand as they were. -/
structure ProbeAside (s t : State) : Prop where
  now : t.now = s.now
  seq : t.seq = s.seq
  cure : t.cure = s.cure
  peers : t.peers = s.peers
  last : t.plan.last = s.plan.last
  latched : t.sup.latched = s.sup.latched
  drive : t.sup.drive = s.sup.drive
  setup : t.setup = s.setup

theorem ProbeAside.trans (h : ProbeAside s t) (k : ProbeAside t u) : ProbeAside s u :=
  ⟨k.now.trans h.now, k.seq.trans h.seq, k.cure.trans h.cure, k.peers.trans h.peers, k.last.trans h.last,
    k.latched.trans h.latched, k.drive.trans h.drive, k.setup.trans h.setup⟩

theorem ProbeAside.of_same (h : SameBody t u) (k : ProbeAside s u) : ProbeAside s t :=
  ⟨(SameBody.now h).trans k.now, (SameBody.seq h).trans k.seq, (SameBody.cure h).trans k.cure,
    (SameBody.peers h).trans k.peers, (congrArg Planner.last (SameBody.plan h)).trans k.last,
    (SameBody.latched h).trans k.latched, (SameBody.drive h).trans k.drive, (SameBody.setup h).trans k.setup⟩

theorem probeAside_holdFollowed (cs : List Cond) (s : State) :
    ProbeAside s (holdFollowed { s with sup.present := cs }) := ⟨rfl, rfl, rfl, rfl, rfl, rfl, rfl, rfl⟩

/-- The end of a condition in a station ready for it. -/
theorem Poised.probeAside_lapse (h : Poised s) (c : Cond) : ProbeAside s (lapseCond c s) :=
  (probeAside_holdFollowed _ s).of_same (h.lapse c).1.body

theorem Poised.lapse_feed (h : Poised s) (c : Cond) : (lapseCond c s).feed = s.feed :=
  SameBody.feed (h.lapse c).1.body

theorem Poised.lapse_stack (h : Poised s) (c : Cond) : (lapseCond c s).stack = s.stack :=
  SameBody.stack (h.lapse c).1.body

theorem Poised.lapse_works (h : Poised s) (c : Cond) : (lapseCond c s).ctl.mode.works = s.ctl.mode.works := by
  rw [SameBody.mode (h.lapse c).1.body]
  exact heldMode_works { s with sup.present := s.sup.present.filter (· != c) }

theorem Poised.lapse_feedHold (h : Poised s) (c : Cond) : (lapseCond c s).ctl.feedHold = s.ctl.feedHold :=
  (congrArg (fun x : State => x.ctl.feedHold) (h.lapse c).1.body :)

/-! ### The tick -/

/-- The probe interval at moment `now` (R106). -/
abbrev ticked (s : State) (now : Nat) : State := { s with now := now, feed.probeTimer := some (now + 1000) }

theorem tickProbe_eq {d : Nat} (hd : s.feed.probeTimer = some d) : tickProbe s = ticked s (max s.now d) := by
  simp [tickProbe, expireAt, hd, Config.probePeriod, ticked]

theorem ticked_poised (hs : Sound s) (now : Nat) : Poised (ticked s now) := by
  obtain ⟨-, hg, -⟩ := hs.gate
  exact hs.poised.refed (t := ticked s now) hg

/-- The station at a usable sample, its depth held (R108). -/
abbrev sampled (depth : Nat) (s : State) : State := { s with feed.depth := some depth, feed.probeValid := true }

theorem sampled_poised (h : Poised s) : Poised (sampled depth s) := by
  refine h.refed (t := sampled depth s) fun k => ?_
  have allowed := h.steady.gate k
  simp only [feedAllowed, Bool.and_eq_true] at allowed ⊢
  exact ⟨allowed.1, trivial⟩

/-! ### The decisions of a usable sample -/

/-- The decisions leave their station as a change of the feed does: `w` is what it is alike to. -/
theorem sampleDecision_spec (h : Poised s) (hg : GateShape s) (hd : s.feed.depth = some depth)
    (hv : s.feed.probeValid = true) :
    ProbeAside s (sampleDecision depth s)
      ∧ (∀ c, (sampleDecision depth s).isPresent c = true → s.isPresent c = true)
      ∧ (sampleDecision depth s).stack
        = { s.stack with reckoning :=
            (s.feed.state == .opened && decide (depth ≤ s.setup.depthFull)) || s.stack.reckoning }
      ∧ (s.feed.state = .idle → (sampleDecision depth s).feed
          = if s.ctl.mode.works = true ∧ s.ctl.feedHold = false ∧ s.setup.depthCall < depth then
              { s.feed with state := .asking, settled := false, settleTimer := some (s.now + s.setup.settleTime) }
            else s.feed)
      ∧ (s.feed.state ≠ .idle → s.setup.depthFull < depth → (sampleDecision depth s).feed = s.feed)
      ∧ (s.feed.state ≠ .idle → depth ≤ s.setup.depthFull → (sampleDecision depth s).feed = (feedWithdrawn s).feed)
      ∧ (s.feed.state = .opened → depth ≤ s.setup.depthFull → (sampleDecision depth s).isPresent .feedTimeout = false) := by
  have refl : ProbeAside s s := ⟨rfl, rfl, rfl, rfl, rfl, rfl, rfl, rfl⟩
  cases hf : s.feed.state with
  | idle =>
    have asks : sampleDecision depth s = askIfShort s := by simp [sampleDecision, hf]
    have calls : depthCalls s = decide (s.setup.depthCall < depth) := by simp [depthCalls, hd]
    have allowed : feedAllowed s = true ↔ s.ctl.mode.works = true ∧ s.ctl.feedHold = false := by
      simp [feedAllowed, hv]
    rw [asks]
    rcases askIfShort_cases s with ⟨-, ha, hcall, e⟩ | ⟨no, e⟩ <;> rw [e]
    · obtain ⟨works, hold⟩ := allowed.mp ha
      rw [calls, decide_eq_true_eq] at hcall
      exact ⟨⟨rfl, rfl, rfl, rfl, rfl, rfl, rfl, rfl⟩, fun _ k => k, rfl,
        fun _ => (if_pos ⟨works, hold, hcall⟩).symm, fun k => absurd rfl k, fun k => absurd rfl k, nofun⟩
    · have stays : ¬(s.ctl.mode.works = true ∧ s.ctl.feedHold = false ∧ s.setup.depthCall < depth) :=
        fun k => no ⟨hf, allowed.mpr ⟨k.1, k.2.1⟩, calls.trans (decide_eq_true k.2.2)⟩
      exact ⟨refl, fun _ k => k, rfl, fun _ => (if_neg stays).symm, fun k => absurd rfl k,
        fun k => absurd rfl k, nofun⟩
  | asking =>
    have decides : sampleDecision depth s = if depth ≤ s.setup.depthFull then leaveAsking s else s := by
      simp [sampleDecision, hf]
    rw [decides]
    split
    · rename_i full
      refine ⟨⟨rfl, rfl, rfl, rfl, rfl, rfl, rfl, rfl⟩, fun _ k => k, rfl, nofun, fun _ k => absurd full (by omega),
        fun _ _ => ?_, nofun⟩
      rw [feedWithdrawn_of_asking hg hf]
    · rename_i short
      exact ⟨refl, fun _ k => k, rfl, nofun, fun _ _ => rfl, fun _ k => absurd k short, nofun⟩
  | opened =>
    have decides : sampleDecision depth s
        = if depth ≤ s.setup.depthFull then lapseCond .feedTimeout (closeGate .idle s) else s := by
      simp [sampleDecision, hf]
    rw [decides]
    split
    · rename_i full
      have closed := h.closeGate
      have aside : ProbeAside s (closeGate .idle s) := ⟨rfl, rfl, rfl, rfl, rfl, rfl, rfl, rfl⟩
      refine ⟨aside.trans (closed.probeAside_lapse .feedTimeout), fun c k => ?_, ?_, nofun,
        fun _ k => absurd full (by omega), fun _ _ => ?_, fun _ _ => ?_⟩
      · rw [lapseCond_isPresent] at k
        exact (Bool.and_eq_true_iff.mp k).2
      · rw [closed.lapse_stack, decide_eq_true full]
        rfl
      · rw [closed.lapse_feed, feedWithdrawn_of_opened hf]
      · rw [lapseCond_isPresent]
        rfl
    · rename_i short
      refine ⟨refl, fun _ k => k, ?_, nofun, fun _ _ => rfl, fun _ k => absurd k short, fun _ k => absurd k short⟩
      rw [decide_eq_false short]
      rfl

/-! ### A usable sample, whole -/

/-- The stack of a usable sample, before the decisions (R50, R51). -/
def probeStack (depth : Nat) (s : State) : Stack := if s.heightSet then sampledStack depth s else s.stack

/-- What a usable sample leaves: the blocks aside, PROBE absent, the stack, and the feed (R108, R112, R117,
R118). -/
theorem probeGood_spec (hs : Poised s) (hg : GateShape s) :
    ∃ w : State, ProbeAside s (probeGood depth s)
      ∧ (∀ c, (probeGood depth s).isPresent c = true → s.isPresent c = true)
      ∧ (probeGood depth s).isPresent .probe = false
      ∧ w.feed = (sampled depth s).feed ∧ w.now = s.now ∧ w.setup = s.setup
      ∧ (probeGood depth s).stack
        = { probeStack depth s with reckoning :=
            (s.feed.state == .opened && decide (depth ≤ s.setup.depthFull)) || (probeStack depth s).reckoning }
      ∧ (s.feed.state = .idle → (probeGood depth s).feed
          = if s.ctl.mode.works = true ∧ s.ctl.feedHold = false ∧ s.setup.depthCall < depth then
              { (sampled depth s).feed with
                state := .asking, settled := false, settleTimer := some (s.now + s.setup.settleTime) }
            else (sampled depth s).feed)
      ∧ (s.feed.state ≠ .idle → s.setup.depthFull < depth → (probeGood depth s).feed = (sampled depth s).feed)
      ∧ (s.feed.state ≠ .idle → depth ≤ s.setup.depthFull → (probeGood depth s).feed = (feedWithdrawn w).feed)
      ∧ (s.feed.state = .opened → depth ≤ s.setup.depthFull → (probeGood depth s).isPresent .feedTimeout = false) := by
  have taken : Poised (sampled depth s) := sampled_poised hs
  let l := lapseCond .probe (sampled depth s)
  have lapsed : Poised l := (taken.lapse .probe).2
  have depthTaken : ProbeAside s (sampled depth s) := ⟨rfl, rfl, rfl, rfl, rfl, rfl, rfl, rfl⟩
  have aside : ProbeAside s l := depthTaken.trans (taken.probeAside_lapse .probe)
  have setAgrees : l.heightSet = s.heightSet := by
    have a := aside_lapseCond .probe (sampled depth s)
    simp only [State.heightSet, l, a.join_kind, a.join_state]
  have stackAgrees : l.stack = s.stack := taken.lapse_stack .probe
  let w : State := if l.heightSet then stackSample depth l else l
  have same : w.feed = l.feed ∧ w.ctl = l.ctl ∧ w.seq = l.seq ∧ w.setup = l.setup ∧ w.sup = l.sup ∧ w.now = l.now
      ∧ w.line = l.line ∧ w.cure = l.cure ∧ w.peers = l.peers ∧ w.plan = l.plan := by
    dsimp only [w]
    split <;> exact ⟨rfl, rfl, rfl, rfl, rfl, rfl, rfl, rfl, rfl, rfl⟩
  obtain ⟨hfeed, hctl, hseq, hsetup, hsup, hnow, hline, hcure, hpeers, hplan⟩ := same
  have wFeed : w.feed = (sampled depth s).feed := hfeed.trans (taken.lapse_feed .probe)
  have wAside : ProbeAside s w := aside.trans
    ⟨hnow, hseq, hcure, hpeers, by rw [hplan], by rw [hsup], by rw [hsup], hsetup⟩
  have ready : Poised w := by
    refine lapsed.refed (t := w) (fun k => ?_) hctl (by rw [hseq]) hsetup hsup (by rw [hline])
    have allowed := lapsed.steady.gate (by rw [← hfeed]; exact k)
    simpa only [feedAllowed, hctl, hfeed] using allowed
  have wStack : w.stack = probeStack depth s := by
    dsimp only [w, probeStack]
    rw [setAgrees]
    split
    · show sampledStack depth l = _
      simp only [sampledStack, aside.seq, aside.setup, aside.cure, stackAgrees]
    · exact stackAgrees
  have works : w.ctl.mode.works = s.ctl.mode.works := by
    rw [hctl]
    exact taken.lapse_works .probe
  have hold : w.ctl.feedHold = s.ctl.feedHold := by
    rw [hctl]
    exact taken.lapse_feedHold .probe
  have state : w.feed.state = s.feed.state := by rw [wFeed]
  have shape : GateShape w := by
    rw [GateShape, wFeed]
    exact hg
  have good : probeGood depth s = sampleDecision depth w := rfl
  obtain ⟨decided, kept, stack, idle, high, low, closed⟩ :=
    sampleDecision_spec (depth := depth) ready shape (by rw [wFeed]) (by rw [wFeed])
  rw [wStack, state, wAside.setup] at stack
  rw [state, works, hold, wAside.setup, wAside.now, wFeed] at idle
  rw [state, wAside.setup, wFeed] at high
  rw [state, wAside.setup] at low closed
  have presence : ∀ c, w.isPresent c = (c != .probe && s.isPresent c) := fun c => by
    rw [State.isPresent, hsup]
    exact lapseCond_isPresent .probe c (sampled depth s)
  rw [good]
  refine ⟨w, wAside.trans decided, fun c k => ?_, ?_, wFeed, wAside.now, wAside.setup, stack, idle, high, low,
    closed⟩
  · have := kept c k
    rw [presence] at this
    exact (Bool.and_eq_true_iff.mp this).2
  · rw [← Bool.not_eq_true]
    intro k
    have := kept .probe k
    rw [presence] at this
    cases this

/-! ### The commands -/

theorem probeValue_of_value {form v : Nat} (h : v ≤ form) : probeValue form (.value v) = some v := by
  simp [probeValue, h]

theorem probeValue_of_invalid {form : Nat} {reading : SensorReading}
    (h : reading = .openCircuit ∨ ∃ v : Int, reading = .value v ∧ (v < 0 ∨ (form : Int) < v)) :
    probeValue form reading = none := by
  rcases h with rfl | ⟨v, rfl, out⟩
  · rfl
  · exact if_neg fun k => by omega

theorem exec_probeSample {d : Nat} (hd : s.feed.probeTimer = some d) (reading : SensorReading) :
    exec (.probeSample reading) s
      = finish s (if s.ctl.mode = .reduced ∨ blanked s = true then ticked s (max s.now d)
        else
          match probeValue s.setup.formHeight reading with
          | some depth => probeGood depth (ticked s (max s.now d))
          | none => probeBad (ticked s (max s.now d))) := by
  show finish s (if (tickProbe s).ctl.mode = .reduced ∨ blanked (tickProbe s) = true then tickProbe s
    else
      match probeValue (tickProbe s).setup.formHeight reading with
      | some depth => probeGood depth (tickProbe s)
      | none => probeBad (tickProbe s)) = _
  rw [tickProbe_eq hd]
  rfl

/-- What the close leaves of a probe sample's blocks. -/
theorem probe_closed (hs : Sound s) (h : ProbeAside (ticked s t.now) t)
    (hp : ∀ ch : Ch, t.isPresent (.extendTimeout ch) = true → s.isPresent (.extendTimeout ch) = true) :
    SameBody (settled s t) t :=
  (settled_calm hs (congrArg Sequencer.chans h.seq) hp).1

/-- A usable sample, closed. -/
theorem probeSample_good (hs : Sound s) {d v : Nat} (hd : s.feed.probeTimer = some d) (hm : s.ctl.mode ≠ .reduced)
    (hb : blanked s = false) (hv : v ≤ s.setup.formHeight) :
    ∃ t, exec (.probeSample (.value v)) s = .next t
      ∧ SameBody t (probeGood v (ticked s (max s.now d))) := by
  have good : exec (.probeSample (.value v)) s = finish s (probeGood v (ticked s (max s.now d))) := by
    rw [exec_probeSample hd, if_neg (not_or.mpr ⟨hm, by simp [hb]⟩), probeValue_of_value hv]
  obtain ⟨w, aside, present, -⟩ := probeGood_spec (depth := v) (ticked_poised hs (max s.now d)) hs.gate.shape
  refine ⟨_, good, probe_closed hs ?_ fun ch k => present _ k⟩
  rw [aside.now]
  exact aside

theorem probeBad_alike (hs : Sound s) (now : Nat) :
    Alike (probeBad (ticked s now)) (holdFollowed
      { feedWithdrawn { ticked s now with feed.probeValid := false } with sup.present := presentWith .probe s }) := by
  let x : State := { ticked s now with feed.probeValid := false }
  have lost : feedAllowed x = false := by simp [x, feedAllowed]
  have withdrawn : rejudgeFeed (feedAllowed (ticked s now)) x = feedWithdrawn x :=
    rejudgeFeed_withdrawn (s := x) hs.gate.shape lost _
  have ready : Poised (feedWithdrawn x) := hs.poised.refed (t := feedWithdrawn x) fun k => absurd rfl k
  have bad : probeBad (ticked s now) = raiseCond .probe (feedWithdrawn x) := congrArg (raiseCond .probe) withdrawn
  rw [bad]
  exact (ready.raise (probe_not_latching hs rfl)).1

/-- Settles O34: a sample in REDUCED or under the blank is the tick alone, a usable one sets D and then decides, an
invalid one withdraws the feed and raises PROBE. -/
theorem probeSampleTaken : Obligations.ProbeSampleTaken := by
  intro s reading d hs hd now r blank tick closed kept
  have isKept : ∀ {t}, ProbeAside (ticked s now) t → kept t :=
    fun h => ⟨h.now, h.seq, h.cure, h.peers, h.last, h.latched, h.drive⟩
  refine ⟨fun hm => ?_, fun hm hb => ⟨fun v hv hle => ?_, fun hbad => ?_⟩⟩
  · have discarded : exec (.probeSample reading) s = finish s (ticked s now) := by
      rw [exec_probeSample hd, if_pos hm]
    obtain ⟨hb, -, -, hr⟩ := settled_calm (t := ticked s now) hs rfl fun _ => id
    have view : faultView (ticked s now) = faultView s := rfl
    exact ⟨_, discarded, hb, hr.trans (if_pos view)⟩
  · subst hv
    intro taken
    obtain ⟨t, he, hbody⟩ := probeSample_good hs hd hm (by simpa using hb) hle
    obtain ⟨w, aside, -, gone, wFeed, wNow, wSetup, stack, idle, high, low, timeout⟩ :=
      probeGood_spec (depth := v) (ticked_poised hs now) hs.gate.shape
    have feed : t.feed = (probeGood v (ticked s now)).feed := SameBody.feed hbody
    have tStack : t.stack = (probeGood v (ticked s now)).stack := SameBody.stack hbody
    have withdrawn : (feedWithdrawn w).feed = closed taken := by
      simp only [feedWithdrawn, blankStart, wFeed, wNow, wSetup]
      rfl
    have top : (probeStack v (ticked s now)).concreteTop
        = if s.heightSet = true then some (s.seq.height + r.formHeight - v) else s.stack.concreteTop := by
      have set_ : (ticked s now).heightSet = s.heightSet := rfl
      rw [probeStack, set_]
      split
      · rcases sampledStack_cases v (ticked s now) with ⟨-, e⟩ | ⟨-, e⟩ <;> rw [e]
        · rfl
        · rcases reckon_cases (ticked s now).setup (ticked s now).seq.height (ticked s now).cure.clock
            ((ticked s now).seq.height + (ticked s now).setup.formHeight - v) _ with
            ⟨-, e⟩ | ⟨-, -, e⟩ | ⟨-, -, -, e⟩ <;> rw [e] <;> rfl
      · rfl
    refine ⟨t, he, isKept (ProbeAside.of_same hbody aside), (SameBody.isPresent hbody .probe).trans gone, ?_,
      fun hi => feed.trans (idle hi), fun hi hv => feed.trans (high hi hv),
      fun hi hv => feed.trans ((low hi hv).trans withdrawn), fun ho hv => ⟨?_, ?_⟩⟩
    · rw [tStack, stack]
      exact top
    · rw [tStack, stack]
      have open_ : (ticked s now).feed.state = .opened := ho
      have full : v ≤ (ticked s now).setup.depthFull := hv
      rw [open_, decide_eq_true full]
      rfl
    · exact (SameBody.isPresent hbody .feedTimeout).trans (timeout ho hv)
  · have bad : exec (.probeSample reading) s = finish s (probeBad (ticked s now)) := by
      rw [exec_probeSample hd, if_neg (not_or.mpr ⟨hm, by simpa using hb⟩), probeValue_of_invalid hbad]
    have body := (probeBad_alike hs now).closed hs rfl fun ch k =>
      extendTimeout_of_presentWith (s := s) (c := .probe) nofun k
    refine ⟨_, bad, isKept (ProbeAside.of_same body ⟨rfl, rfl, rfl, rfl, rfl, rfl, rfl, rfl⟩), ?_, SameBody.feed body,
      SameBody.stack body⟩
    exact (SameBody.isPresent body .probe).trans ((isPresent_presentWith .probe .probe s).trans (by simp))

/-! ### The reckoning -/

/-- A reckoning that finds no layer (R52, R53). -/
theorem reckon_of_empty {q : SetupRecord} {h placed top : Nat} {st : Stack} (he : st.layers = []) :
    (top ≤ h → reckon q h placed top st = { st with reckoning := false })
      ∧ (h < top → reckon q h placed top st = { st with
          reckoning := false
          layers := [⟨st.nextSeq, h, top, placed, 0, false⟩]
          nextSeq := (st.nextSeq + 1) % 65536 }) := by
  have base : reckonBase h st.layers = h := by rw [he]; rfl
  rcases reckon_cases q h placed top st with ⟨hle, e⟩ | ⟨hlt, -, e⟩ | ⟨-, hne, -⟩
  · rw [base] at hle
    exact ⟨fun _ => e, fun k => absurd hle (by omega)⟩
  · rw [base] at hlt
    refine ⟨fun k => absurd hlt (by omega), fun _ => e.trans ?_⟩
    simp [pushLayer, he, reckonBase, nextSequence]
  · exact absurd he hne

/-- A reckoning over a highest layer (R52 to R54). -/
theorem reckon_of_concat {q : SetupRecord} {h placed top : Nat} {st : Stack} {below : List Layer} {high : Layer}
    (he : st.layers = below ++ [high]) (hroom : st.layers.length ≤ Config.maxLayers) :
    (top ≤ high.top → reckon q h placed top st = { st with reckoning := false })
      ∧ (high.top < top → (top < high.top + q.layerMin ∨ st.layers.length = 16) → reckon q h placed top st = { st with
          reckoning := false
          layers := below ++ [{ high with top := top, placed := placed, maturity := 0 }] })
      ∧ (high.top + q.layerMin ≤ top → high.top < top → st.layers.length < 16 → reckon q h placed top st = { st with
          reckoning := false
          layers := st.layers ++ [⟨st.nextSeq, high.top, top, placed, 0, false⟩]
          nextSeq := (st.nextSeq + 1) % 65536 }) := by
  have base : reckonBase h st.layers = high.top := by rw [he, reckonBase, List.getLast?_concat]; rfl
  have room : st.layers.length ≤ 16 := hroom
  rcases reckon_cases q h placed top st with ⟨hle, e⟩ | ⟨hlt, hthick, e⟩ | ⟨hlt, -, hthin, e⟩
  · rw [base] at hle
    exact ⟨fun _ => e, fun k => absurd hle (by omega), fun _ k => absurd hle (by omega)⟩
  · rw [base] at hlt hthick
    have thick : q.layerMin ≤ top - high.top ∧ st.layers.length < 16 :=
      hthick.resolve_left (by rw [he]; simp)
    refine ⟨fun k => absurd hlt (by omega), fun _ k => ?_, fun _ _ _ => e.trans ?_⟩
    · rcases k with k | k <;> omega
    · simp [pushLayer, base, nextSequence]
  · rw [base] at hlt hthin
    refine ⟨fun k => absurd hlt (by omega), fun _ _ => e.trans ?_, fun _ _ _ => ?_⟩
    · rw [he, mergeTop_append]
    · rcases hthin with k | k
      · omega
      · have : 16 ≤ st.layers.length := k
        omega

/-- L_min lies in its range of R206, so above 0. -/
theorem layerMin_pos (hs : Sound s) : 0 < s.setup.layerMin := by
  have bound := (item_bounds hs.setup.inRange (i := 41) (by decide)).1
  have least : 200 ≤ s.setup.item 42 := le_trans (by decide) bound
  show 0 < (s.setup.item 42).toNat
  omega

/-- Settles O33: a usable sample's stack is the reckoning from its concrete top. -/
theorem reckoningBuildsLayers : Obligations.ReckoningBuildsLayers := by
  intro s v hs hm hb hset hreck hv r top fresh
  obtain ⟨-, -, hprobe⟩ := hs.depth
  obtain ⟨d, hd⟩ := Option.isSome_iff_exists.mp hprobe
  obtain ⟨t, he, hbody⟩ := probeSample_good hs hd hm hb hv
  obtain ⟨w, -, -, -, -, -, -, stack, -⟩ := probeGood_spec (depth := v) (ticked_poised hs (max s.now d)) hs.gate.shape
  have reckoned : probeStack v (ticked s (max s.now d))
      = reckon r s.seq.height s.cure.clock top { s.stack with concreteTop := some top } := by
    rw [probeStack, if_pos (show (ticked s (max s.now d)).heightSet = true from hset)]
    rcases sampledStack_cases v (ticked s (max s.now d)) with ⟨k, -⟩ | ⟨-, e⟩
    · exact absurd (hreck.symm.trans k) nofun
    · exact e
  have tStack : t.stack = { reckon r s.seq.height s.cure.clock top { s.stack with concreteTop := some top } with
      reckoning := (s.feed.state == .opened && decide (v ≤ r.depthFull))
        || (reckon r s.seq.height s.cure.clock top { s.stack with concreteTop := some top }).reckoning } := by
    rw [← reckoned]
    exact (SameBody.stack hbody).trans stack
  obtain ⟨⟨count, -⟩, -⟩ := hs.stack
  have cleared : (reckon r s.seq.height s.cure.clock top { s.stack with concreteTop := some top }).reckoning = false
      ∧ (reckon r s.seq.height s.cure.clock top { s.stack with concreteTop := some top }).concreteTop = some top := by
    rcases reckon_cases r s.seq.height s.cure.clock top { s.stack with concreteTop := some top } with
      ⟨-, e⟩ | ⟨-, -, e⟩ | ⟨-, -, -, e⟩ <;> rw [e] <;> exact ⟨rfl, rfl⟩
  refine ⟨t, he, ?_, ?_, fun empty => ?_, fun below high hlayers => ?_⟩
  · rw [tStack]
    exact cleared.2
  · rw [tStack]
    show (_ || _) = _
    rw [cleared.1, Bool.or_false]
  · obtain ⟨none_, one⟩ := reckon_of_empty (q := r) (h := s.seq.height) (placed := s.cure.clock) (top := top)
      (st := { s.stack with concreteTop := some top }) empty
    refine ⟨fun k => ?_, fun k => ?_⟩ <;> rw [tStack]
    · rw [none_ k]
      exact ⟨empty, rfl⟩
    · rw [one k]
      exact ⟨rfl, rfl⟩
  · obtain ⟨same, merged, pushed⟩ := reckon_of_concat (q := r) (h := s.seq.height) (placed := s.cure.clock)
      (top := top) (st := { s.stack with concreteTop := some top }) hlayers count
    have pos : 0 < r.layerMin := layerMin_pos hs
    refine ⟨fun k => ?_, fun k thin => ?_, fun thick room => ?_⟩ <;> rw [tStack]
    · rw [same k]
      exact ⟨rfl, rfl⟩
    · rw [merged k thin]
      exact ⟨rfl, rfl⟩
    · rw [pushed thick (by omega) room]
      exact ⟨rfl, rfl⟩

end

end Sys2Proof.Machine
end

section
/-! PROOFS. A cure sample (R67 to R79) and the setup exchange (R164 to R166). -/

namespace Sys2Proof.Machine

-- In order, so that the proofs waiting on one another do not hold a stack each.
set_option Elab.async false

section
variable {s t u : State}

/-! ### TEMPERATURE at a sample -/

/-- TEMPERATURE as a sample leaves it (R71). -/
def temperatureAfter (valid : Bool) (s : State) : Bool :=
  !valid && (s.isPresent .temperature || decide (s.setup.tempHold < s.cure.missed))

/-- The judgement of TEMPERATURE sets the conditions present, and FAULT HOLD follows them. -/
theorem judgeTemperature_spec (h : Poised s) (hl : s.latching .temperature = false) (valid : Bool) :
    ∃ cs : List Cond, Alike (judgeTemperature valid s) (holdFollowed { s with sup.present := cs })
      ∧ (∀ d, d ≠ .temperature → ({ s with sup.present := cs } : State).isPresent d = s.isPresent d)
      ∧ ({ s with sup.present := cs } : State).isPresent .temperature = temperatureAfter valid s
      ∧ (s.classOf .temperature ≠ .hold ∨ s.isPresent .temperature = temperatureAfter valid s →
          ({ s with sup.present := cs } : State).holdPresent = s.holdPresent) := by
  cases valid with
  | true =>
    refine ⟨_, (h.lapse .temperature).1, fun d hd => ?_, ?_, fun k => ?_⟩
    · rw [isPresent_without, bne_iff_ne.mpr hd, Bool.and_true]
    · rw [isPresent_without, bne_self_eq_false, Bool.and_false]
      rfl
    · rcases k with k | k
      · exact holdPresent_without (s := s) k
      · rw [without_of_absent (k.trans rfl)]
  | false =>
    by_cases late : s.setup.tempHold < s.cure.missed
    · have judged : judgeTemperature false s = raiseCond .temperature s := if_pos late
      have after : temperatureAfter false s = true := by simp [temperatureAfter, late]
      rw [judged, after]
      refine ⟨_, (h.raise hl).1, fun d hd => ?_, ?_, fun k => ?_⟩
      · rw [isPresent_presentWith, beq_eq_false_iff_ne.mpr hd, Bool.or_false]
      · rw [isPresent_presentWith, beq_self_eq_true, Bool.or_true]
      · rcases k with k | k
        · exact holdPresent_presentWith (s := s) k
        · rw [presentWith_of_present k]
    · have judged : judgeTemperature false s = s := if_neg late
      have after : temperatureAfter false s = s.isPresent .temperature := by simp [temperatureAfter, late]
      rw [judged, after]
      refine ⟨s.sup.present, ?_, fun _ _ => rfl, rfl, fun _ => rfl⟩
      rw [h.holdFollowed_of_same (cs := s.sup.present) rfl]
      exact Alike.refl s

/-! ### The sample -/

/-- The state of a cure sample before TEMPERATURE is judged. -/
abbrev cured (now : Nat) (last inUse : Option Int) (missed rate : Nat) (s : State) : State :=
  { s with
    now := now
    cure := { clock := (s.cure.clock + 1) % 65536, sampleTimer := some (now + 60000), lastTemp := last,
              missed := missed, rate := rate, inUse := inUse }
    stack.layers := addMaturity rate s.stack.layers }

/-- The state of a cure sample before the rate is worked. -/
abbrev sampleTaken (now : Nat) (last inUse : Option Int) (missed : Nat) (s : State) : State :=
  { s with
    now := now
    cure := { s.cure with clock := (s.cure.clock + 1) % 65536, sampleTimer := some (now + 60000),
                          lastTemp := last, missed := missed, inUse := inUse } }

/-- The rate at a temperature in use, derated in fallback (R67, R76). -/
def rateAt (inUse : Option Int) (s : State) : Nat :=
  derate s.sup.onCrystal (match inUse with
    | some t => cureRate s.setup t
    | none => 0)

theorem sampleRate_sampleTaken (now : Nat) (last inUse : Option Int) (missed : Nat) (s : State) :
    sampleRate (sampleTaken now last inUse missed s) = rateAt inUse s := by
  unfold sampleRate rateAt
  cases inUse <;> rfl

theorem applyCure_alike (now : Nat) (last inUse : Option Int) (missed : Nat) (s : State) :
    Alike (applyCure (sampleTaken now last inUse missed s)) (cured now last inUse missed (rateAt inUse s) s) := by
  rw [← sampleRate_sampleTaken now last inUse missed s]
  exact alike_keepChange _ _

/-- A sample closed: the cure integrator and the layers, TEMPERATURE, and what follows it. -/
theorem cureSample_closed (hs : Sound s) {now missed : Nat} {last inUse : Option Int} {valid : Bool}
    (hk : Alike t (cured now last inUse missed (rateAt inUse s) s)) :
    let r := settled s (judgeTemperature valid t)
    let present := !valid && (s.isPresent .temperature || decide (s.setup.tempHold < missed))
    r.now = now ∧ r.cure = (cured now last inUse missed (rateAt inUse s) s).cure
      ∧ r.stack = (cured now last inUse missed (rateAt inUse s) s).stack ∧ r.isPresent .temperature = present
      ∧ r.seq = s.seq ∧ r.feed = s.feed ∧ r.peers = s.peers ∧ r.plan.last = s.plan.last
      ∧ r.sup.latched = s.sup.latched ∧ r.sup.drive = s.sup.drive
      ∧ (s.classOf .temperature = .warn ∨ s.isPresent .temperature = present → r.ctl = s.ctl ∧ r.plan = s.plan) := by
  let u := cured now last inUse missed (rateAt inUse s) s
  obtain ⟨-, gate, -⟩ := hs.gate
  have ready : Poised u := hs.poised.refed (t := u) gate
  have poised : Poised t := ready.alike hk
  obtain ⟨cs, alike, others, temp, hold⟩ :=
    judgeTemperature_spec poised (temperature_not_latching hs (SameBody.setup hk.body)) valid
  let v : State := { u with sup.present := cs }
  have same : SameBody { t with sup.present := cs } v :=
    (congrArg (fun x : State => { x with sup.present := cs }) hk.body :)
  have seqEq : t.seq = s.seq := SameBody.seq hk.body
  have supEq : t.sup = s.sup := SameBody.sup hk.body
  have body : SameBody (settled s (judgeTemperature valid t)) (holdFollowed { t with sup.present := cs }) := by
    refine alike.closed hs (congrArg Sequencer.chans seqEq) fun ch k => ?_
    have still := (others (.extendTimeout ch) nofun).symm.trans k
    rwa [State.isPresent, supEq] at still
  have setupEq : t.setup = s.setup := SameBody.setup hk.body
  have missedEq : t.cure.missed = missed := (congrArg (fun x : State => x.cure.missed) hk.body :)
  have presentEq : temperatureAfter valid t
      = (!valid && (s.isPresent .temperature || decide (s.setup.tempHold < missed))) := by
    simp only [temperatureAfter, setupEq, missedEq, State.isPresent, supEq]
  have planEq : t.plan = s.plan := SameBody.plan hk.body
  have lastEq : (settled s (judgeTemperature valid t)).plan.last = t.plan.last :=
    (congrArg (fun x : State => x.plan.last) body :)
  refine ⟨(SameBody.now body).trans (SameBody.now hk.body), (SameBody.cure body).trans (SameBody.cure hk.body),
    (SameBody.stack body).trans (SameBody.stack hk.body), ?_, (SameBody.seq body).trans seqEq,
    (SameBody.feed body).trans (SameBody.feed hk.body), (SameBody.peers body).trans (SameBody.peers hk.body),
    lastEq.trans (congrArg Planner.last planEq),
    (SameBody.latched body).trans (congrArg Supervisor.latched supEq),
    (SameBody.drive body).trans (congrArg Supervisor.drive supEq), fun k => ?_⟩
  · exact (SameBody.isPresent body .temperature).trans (temp.trans presentEq)
  · have classEq : t.classOf .temperature = s.classOf .temperature := by rw [State.classOf, setupEq]; rfl
    have still := poised.holdFollowed_of_same (cs := cs) (hold (by
      rcases k with k | k
      · refine Or.inl ?_
        rw [classEq, k]
        exact nofun
      · refine Or.inr ?_
        rw [presentEq, ← k, State.isPresent, supEq]
        rfl))
    rw [still] at body
    exact ⟨(SameBody.ctl body).trans (SameBody.ctl hk.body), (SameBody.plan body).trans planEq⟩

theorem tickCure_eq {d : Nat} (hd : s.cure.sampleTimer = some d) :
    tickCure s = { s with
      now := max s.now d
      cure.sampleTimer := some (max s.now d + 60000)
      cure.clock := (s.cure.clock + 1) % 65536 } := by
  simp [tickCure, expireAt, hd, Config.samplePeriod]

theorem temperatureValue_of_value {v : Int} (hl : -400 ≤ v) (hu : v ≤ 1000) :
    temperatureValue (.value v) = some v := if_pos ⟨hl, hu⟩

theorem temperatureValue_of_invalid {reading : SensorReading}
    (h : reading = .openCircuit ∨ ∃ v : Int, reading = .value v ∧ (v < -400 ∨ 1000 < v)) :
    temperatureValue reading = none := by
  rcases h with rfl | ⟨v, rfl, out⟩
  · rfl
  · exact if_neg fun k => by omega

theorem exec_cureSample_of_valid {reading : SensorReading} {v : Int}
    (h : cureReading (tickCure s) reading = some v) :
    exec (.cureSampleEvent reading) s
      = finish s (judgeTemperature true (applyCure (temperatureRead v (tickCure s)))) := by
  show execCureSampleEvent reading s = _
  simp only [execCureSampleEvent, h, Option.isSome_some]

theorem exec_cureSample_of_missed {reading : SensorReading} (h : cureReading (tickCure s) reading = none) :
    exec (.cureSampleEvent reading) s
      = finish s (judgeTemperature false (applyCure (temperatureMissed (tickCure s)))) := by
  show execCureSampleEvent reading s = _
  simp only [execCureSampleEvent, h, Option.isSome_none]

/-- Settles O32: the integrator takes the reading or counts a missed sample, the rate goes to every layer, and
TEMPERATURE follows. -/
theorem cureSampleTaken : Obligations.CureSampleTaken := by
  intro s reading d hs hd now r effect held
  have rateWritten : ∀ inUse : Option Int, rateAt inUse s
      = if s.sup.onCrystal = true then (match inUse with
          | some temp => cureRate s.setup temp
          | none => 0) else (match inUse with
          | some temp => cureRate s.setup temp
          | none => 0) * 95 / 100 := fun inUse => by
    unfold rateAt derate
    cases inUse <;> rfl
  have conclude : ∀ (last inUse : Option Int) (missed : Nat) (valid : Bool) (t : State),
      exec (.cureSampleEvent reading) s = finish s (judgeTemperature valid t) →
      Alike t (cured now last inUse missed (rateAt inUse s) s) →
      effect last inUse missed (!valid && (s.isPresent .temperature || decide (s.setup.tempHold < missed))) := by
    intro last inUse missed valid t answers alike
    have closed := cureSample_closed (valid := valid) hs alike
    rw [rateWritten] at closed
    exact ⟨_, answers, closed⟩
  refine ⟨fun v hv hm hlo hhi => ?_, fun hbad => ?_⟩
  · have read : cureReading (tickCure s) reading = some v := by
      rw [tickCure_eq hd, hv]
      exact (if_neg hm).trans (temperatureValue_of_value hlo hhi)
    have alike := applyCure_alike now (some (v + r.tempTrim)) (some (v + r.tempTrim)) 0 s
    have taken : sampleTaken now (some (v + r.tempTrim)) (some (v + r.tempTrim)) 0 s
        = temperatureRead v (tickCure s) := by
      rw [tickCure_eq hd]
      rfl
    rw [taken] at alike
    have done := conclude _ _ _ true _ (exec_cureSample_of_valid read) alike
    rw [Bool.not_true, Bool.false_and] at done
    exact done
  · have read : cureReading (tickCure s) reading = none := by
      rw [tickCure_eq hd]
      by_cases hm : s.ctl.mode = .reduced
      · exact if_pos hm
      · exact (if_neg hm).trans (temperatureValue_of_invalid (hbad.resolve_left hm))
    let inUse := if s.isPresent .temperature = false ∧ held ≤ r.tempHold then s.cure.lastTemp else none
    have alike := applyCure_alike now s.cure.lastTemp inUse held s
    have taken : sampleTaken now s.cure.lastTemp inUse held s = temperatureMissed (tickCure s) := by
      rw [tickCure_eq hd]
      rfl
    rw [taken] at alike
    have done := conclude _ _ _ false _ (exec_cureSample_of_missed read) alike
    rw [Bool.not_false, Bool.true_and] at done
    exact done

end

end Sys2Proof.Machine
end

section
/-! PROOFS. The setup exchange and the judgement of a commit (R164 to R169). -/

namespace Sys2Proof.Machine

-- In order, so that the proofs waiting on one another do not hold a stack each.
set_option Elab.async false

section
variable {s t u : State} {m : Mode}

/-! ### The exchange -/

theorem addressed_iff {sender : BitVec 6} {target : Byte} :
    addressed s sender target = true
      ↔ 60 ≤ sender.toNat ∧ (target.toNat = 0 ∨ target.toNat = s.join.ownNumber) := by
  simp [addressed, isConsole]

theorem itemListed_iff {id : Nat} : itemListed id = true ↔ 1 ≤ id ∧ id ≤ 87 := by
  simp [itemListed]

theorem requestSetup_eq (s : State) : requestSetup s
    = { s with line.setupRequest := if s.line.setupRequest = SetupSlot.empty then .pending else s.line.setupRequest } := by
  unfold requestSetup
  cases h : s.line.setupRequest <;> rfl

theorem SetupSlot.leaveSetup_eq (r : SetupSlot) : r.leaveSetup = if r = .pending then .empty else r := by
  cases r <;> rfl

/-- A station that neither works nor asks takes on a mode in which none works: nothing but the mode taken. -/
theorem enterMode_of_idle (hm : m.works = false) (hi : s.feed.state = .idle) :
    enterMode m s = takeMode m (entryPause m s) s := by
  have settles : settle m (entryPause m s) s = (m, entryPause m s) := by
    simp [settle, hm, Mode.climbs_of_not_works hm]
  have climbing : m ≠ .climbing := by rintro rfl; cases hm
  rw [enterMode_eq, settles, if_neg climbing]
  have barred : feedAllowed (takeMode m (entryPause m s) s) = false := by
    show (m.works && _ && _) = false
    rw [hm]
    rfl
  rcases rejudgeFeed_cases (feedAllowed s) (takeMode m (entryPause m s) s) with
    ⟨k, -⟩ | ⟨k, -⟩ | ⟨-, -, e⟩ | ⟨-, k, -⟩ | ⟨-, k, -⟩
  · rw [barred] at k; cases k
  · rw [barred] at k; cases k
  · exact e
  · exact absurd (hi.symm.trans k) nofun
  · exact absurd (hi.symm.trans k) nofun

/-- A sound station outside the modes that feed is in IDLE (R110). -/
theorem Sound.idle_of_not_works (hs : Sound s) (hm : s.ctl.mode.works = false) : s.feed.state = .idle := by
  obtain ⟨-, gate, -⟩ := hs.gate
  by_contra k
  have allowed := gate k
  rw [feedAllowed, hm] at allowed
  cases allowed

/-- What a sound station in SETUP holds of the blocks that only climb (R6, R17, R22, R85). -/
theorem Sound.blank_of_setup (hs : Sound s) (hm : s.ctl.mode = .setup) :
    s.ctl.pause = .empty ∧ s.ctl.returnMode = none ∧ s.plan.last = .blank ∧ s.seq.cycleTimer = none
      ∧ s.seq.expiryHeld = false := by
  have climbs : s.ctl.mode.climbs = false := by rw [hm]; rfl
  obtain ⟨ret, -⟩ := hs.mode
  obtain ⟨outside, -⟩ := hs.pause
  obtain ⟨blank, -, -, -, -, -, -, cycle, held⟩ := hs.plan
  have dropped : s.seq.expiryHeld = false := by
    rw [← Bool.not_eq_true]
    intro k
    exact absurd (climbs.symm.trans (held k)) nofun
  have eff : s.effectiveMode = s.ctl.mode := effectiveMode_of_ne_reduced (by rw [hm]; exact nofun)
  refine ⟨outside (by rw [eff]; exact climbs), ?_, blank climbs, ?_, dropped⟩
  · rw [hm] at ret
    exact Option.not_isSome_iff_eq_none.mp (by rw [ret]; exact nofun)
  · rw [climbs, dropped] at cycle
    exact Option.not_isSome_iff_eq_none.mp (by rw [cycle]; exact nofun)

/-- The end of the window in SETUP (R166). -/
theorem lockStation_setup (hs : Sound s) (hm : s.ctl.mode = .setup) (ht : t.ctl = s.ctl)
    (hf : t.feed = s.feed) (hp : t.plan = s.plan) (hq : t.seq = s.seq) :
    (lockStation t).body = { t with
        ctl.mode := .locked
        line.setupRequest := if t.line.setupRequest = SetupSlot.pending then .empty else t.line.setupRequest }.body
      ∧ (lockStation t).line.report = t.line.report.request .urgent
      ∧ (lockStation t).seq.chans = s.seq.chans ∧ (lockStation t).sup = t.sup := by
  obtain ⟨-, ret, blank, cycle, held⟩ := hs.blank_of_setup hm
  have mode : t.ctl.mode = .setup := by rw [ht, hm]
  have idle : t.feed.state = .idle := by rw [hf]; exact hs.idle_of_not_works (by rw [hm]; rfl)
  have locks : lockStation t = takeMode .locked t.ctl.pause t := by
    have enters : lockStation t = enterMode .locked t := by rw [lockStation, mode]
    rw [enters, enterMode_of_idle rfl idle]
    rfl
  rw [← ht] at ret
  rw [← hp] at blank
  rw [← hq] at cycle held
  rw [locks, ← SetupSlot.leaveSetup_eq]
  refine ⟨?_, rfl, (congrArg Sequencer.chans hq :), rfl⟩
  simp only [takeMode, State.body, keepChange, requestReport, Mode.climbs, Bool.false_and, reduceCtorEq,
    if_false, Bool.false_eq_true]
  rw [← ret, ← cycle, ← held, ← show t.plan.last = PlanRecord.blank from blank]

/-- Settles O49: an item staged, the request timer, and the window's end, in SETUP and in REDUCED. -/
theorem setupExchange : Obligations.SetupExchange := by
  intro s d hs now
  refine ⟨fun sender target item value => ?_, fun hd => ?_, fun hd hm => ?_, fun hd hm => ?_⟩
  · intro id taken
    have tests : taken ↔ s.ctl.mode = .setup ∧ addressed s sender target = true ∧ itemListed id = true := by
      rw [addressed_iff, itemListed_iff]
      constructor
      · rintro ⟨h1, h2, h3, h4, h5⟩
        exact ⟨h1, ⟨h2, h3⟩, h4, h5⟩
      · rintro ⟨h1, ⟨h2, h3⟩, h4, h5⟩
        exact ⟨h1, h2, h3, h4, h5⟩
    by_cases h : taken
    · obtain ⟨t, he, hb, hr⟩ := answers_same (c := .setupData sender target item value) (t := stageItem id value.toInt s)
        hs (congrArg (finish s) (if_pos (tests.mp h)))
      have listed : 1 ≤ id ∧ id ≤ 87 := ⟨h.2.2.2.1, h.2.2.2.2⟩
      have staged : t.join.staged = s.join.staged.put id value.toInt :=
        (congrArg (fun x : State => x.join.staged) hb :)
      refine ⟨t, he, hr, fun k => absurd h k, fun _ => ⟨?_, fun j h1 h87 hne => ?_, ?_⟩⟩
      · rw [staged, SetupRecord.item_put _ listed listed.1, if_pos rfl]
      · rw [staged, SetupRecord.item_put _ listed h1, if_neg hne]
      · rw [staged]
        exact hb
    · obtain ⟨t, he, hb, hr⟩ := answers_same (c := .setupData sender target item value) (t := s)
        hs (congrArg (finish s) (if_neg fun k => h (tests.mpr k)))
      exact ⟨t, he, hr, fun _ => hb, fun k => absurd k h⟩
  · have block : exec .setupRequestTimerExpiry s
        = finish s (requestSetup { s with now := now, join.requestTimer := some (now + 5000) }) := by
      refine congrArg (finish s) ((if_pos (by rw [hd]; rfl)).trans ?_)
      rw [hd]
      rfl
    rw [requestSetup_eq] at block
    exact answers_same hs block
  · let u : State := { s with
      now := now, join.stage := .closed, join.windowTimer := none, join.requestTimer := none }
    have block : exec .windowExpiry s = finish s (lockStation u) := by
      refine congrArg (finish s) ((if_pos (by rw [hd]; rfl)).trans ?_)
      rw [hd]
      rfl
    obtain ⟨kb, kr, kc, kp⟩ := lockStation_setup (t := u) hs hm rfl rfl rfl rfl
    obtain ⟨t, he, hb, hr⟩ := answers_same hs block kc kp
    exact ⟨t, he, hb.trans kb, hr.trans kr⟩
  · let u : State := { s with
      now := now, join.stage := .closed, join.windowTimer := none, join.requestTimer := none }
    have block : exec .windowExpiry s = finish s (lockStation u) := by
      refine congrArg (finish s) ((if_pos (by rw [hd]; rfl)).trans ?_)
      rw [hd]
      rfl
    have window : s.effectiveMode = .setup := by
      obtain ⟨-, -, -, -, running, -, -, setup, -⟩ := hs.join
      rw [hd] at running
      rw [beq_iff_eq.mp running.symm] at setup
      exact beq_iff_eq.mp setup
    have return_ : u.ctl.returnMode = some .setup := by
      rw [effectiveMode_of_reduced hm] at window
      obtain ⟨held, -⟩ := hs.mode
      rw [hm] at held
      obtain ⟨m, hr⟩ := Option.isSome_iff_exists.mp held
      rw [hr] at window
      exact hr.trans (congrArg some window)
    have locks : lockStation u
        = { u with ctl.returnMode := some .locked, line.setupRequest := u.line.setupRequest.leaveSetup } := by
      have mode : u.ctl.mode = .reduced := hm
      rw [lockStation, mode]
      exact if_pos return_
    rw [locks] at block
    refine ⟨_, block, ?_, ?_, ?_, ?_, ?_⟩ <;> simp only [settled_ctl, settled_join]
    · exact hm
    · rfl
    · rfl
    · rfl

/-! ### A commit refused -/

theorem failedItem_some {id : Nat} (hs : Sound s) (h1 : 1 ≤ id) (h87 : id ≤ 87)
    (hbad : itemInRange id (s.join.staged.item id) = false)
    (least : ∀ j, 1 ≤ j → j < id → itemInRange j (s.join.staged.item j) = true) : firstMarked s = some id := by
  obtain ⟨marks, -⟩ := hs.setup
  have marked : ∀ j, 1 ≤ j → j ≤ 87 →
      s.join.marks.toList.getD (j - 1) false = !itemInRange j (s.join.staged.item j) := by
    intro j hl hu
    rw [marks, List.getD_eq_getElem?_getD, List.getElem?_map, List.getElem?_range (show j - 1 < 87 by omega)]
    show (!itemInRange (j - 1 + 1) (s.join.staged.item (j - 1 + 1))) = _
    rw [show j - 1 + 1 = j by omega]
  have rising : ((List.range 87).map (· + 1)).Pairwise (fun a b : Nat => a < b) := by decide
  have mem : ∀ j, j ∈ (List.range 87).map (· + 1) ↔ 1 ≤ j ∧ j ≤ 87 := by
    intro j
    simp only [List.mem_map, List.mem_range]
    constructor
    · rintro ⟨i, hi, rfl⟩
      omega
    · intro h
      exact ⟨j - 1, by omega, by omega⟩
  refine (find?_eq_some_iff_least rising _).mpr ⟨(mem id).mpr ⟨h1, h87⟩, ?_, fun j hj hlt => ?_⟩
  · rw [marked id h1 h87, hbad]
    rfl
  · obtain ⟨hl, hu⟩ := (mem j).mp hj
    rw [marked j hl hu, least j hl hlt]
    rfl

theorem firstMarked_none (hs : Sound s) (hr : recordInRange s.join.staged = true) : firstMarked s = none := by
  obtain ⟨marks, -⟩ := hs.setup
  unfold firstMarked
  rw [marks, List.find?_eq_none]
  intro id hid
  obtain ⟨i, hi, rfl⟩ := List.mem_map.mp hid
  have ok := List.all_eq_true.mp hr i hi
  rw [List.getD_eq_getElem?_getD, List.getElem?_map, Nat.add_sub_cancel, List.getElem?_range (List.mem_range.mp hi)]
  simpa using ok

/-! ### A good commit -/

/-- A commit takes the staged record and starts the listen; the blocks take it, and the station is in JOINING. -/
abbrev committed (s : State) : State := bringIntoForce (takeMode .joining s.ctl.pause (takeCommit s))

/-- Outside CLIMBING and PAUSED no HOLD-class condition has a mode to change (R8). -/
theorem followHold_of_idle (hm : s.ctl.mode = .joining) (hp : s.ctl.pause = .empty) (before : Bool) :
    followHold before s = s := by
  rcases followHold_cases before s with ⟨-, e⟩ | ⟨-, -, e⟩ | ⟨-, -, e⟩ <;> rw [e]
  · have same : ({ s.ctl.pause with faultHold := false } : PauseSet) = s.ctl.pause := by rw [hp]; rfl
    exact if_pos same
  · rw [addPause, hm]

/-- A condition that takes no class effect is judged in JOINING. -/
theorem judgeCond_of_idle {c : Cond} (hm : s.ctl.mode = .joining) (hp : s.ctl.pause = .empty)
    (hl : s.latching c = false) (present : Bool) :
    ∃ cs : List Cond, judgeCond c present s = { s with sup.present := cs } := by
  cases present with
  | true =>
    rcases raiseCond_cases c s with ⟨-, e⟩ | ⟨-, k, -⟩ | ⟨-, -, e⟩
    · exact ⟨s.sup.present, e⟩
    · exact absurd (hl.symm.trans k) nofun
    · exact ⟨_, e.trans (followHold_of_idle (s := { s with sup.present := s.sup.present ++ [c] }) hm hp _)⟩
  | false =>
    rcases lapseCond_cases c s with ⟨-, e⟩ | ⟨-, e⟩
    · exact ⟨s.sup.present, e⟩
    · exact ⟨_, e.trans (followHold_of_idle (s := { s with sup.present := s.sup.present.filter (· != c) }) hm hp _)⟩

theorem latching_of_unarmed {c : Cond} (hd : c.isDeck = true) (ha : s.sup.armed = false) : s.latching c = false := by
  rw [State.latching, State.effective, hd, ha]
  exact Bool.and_false _

theorem judgePeers_of_idle (hm : s.ctl.mode = .joining) (hp : s.ctl.pause = .empty) (ha : s.sup.armed = false) :
    ∃ cs : List Cond, judgePeers s = { s with sup.present := cs } := by
  obtain ⟨ns, en⟩ := judgeCond_of_idle (c := .neighbourLost) hm hp (latching_of_unarmed rfl ha) (!allAvailable s)
  obtain ⟨cs, ec⟩ := judgeCond_of_idle (s := { s with sup.present := ns }) (c := .peerSilent) hm hp
    (latching_of_unarmed rfl ha) (peerSilent { s with sup.present := ns })
  refine ⟨cs, ?_⟩
  unfold judgePeers
  rw [en]
  exact ec

/-- In SETUP nothing is committed: no height is set and the deck supervisions are not armed (R161, R185). -/
theorem Sound.uncommitted_of_setup (hs : Sound s) (hm : s.ctl.mode = .setup) :
    s.join.committed = none ∧ s.heightSet = false ∧ s.sup.armed = false := by
  obtain ⟨-, committed, kind, state, -, -, -, setup, -, -, -, armed, -⟩ := hs.join
  have eff : s.effectiveMode = .setup := (effectiveMode_of_ne_reduced (by rw [hm]; exact nofun)).trans hm
  rw [eff] at setup
  have stage : (s.join.stage == .committed) = false := by
    rcases Bool.or_eq_true_iff.mp setup.symm with k | k <;> rw [beq_iff_eq.mp k] <;> rfl
  rw [stage] at committed kind state
  have noKind := bne_eq_false_iff_eq.mp kind
  have noState := bne_eq_false_iff_eq.mp state
  refine ⟨Option.not_isSome_iff_eq_none.mp (by rw [committed]; exact nofun), ?_, ?_⟩
  · rw [State.heightSet, noKind, noState]
    rfl
  · rw [armed, noState]
    rfl

/-- What a good commit leaves before the close. -/
theorem goodCommit_eq (hs : Sound s) (hm : s.ctl.mode = .setup) :
    ∃ cs : List Cond, goodCommit s = { committed s with sup.present := cs } := by
  obtain ⟨empty, -⟩ := hs.blank_of_setup hm
  have idle : (takeCommit s).feed.state = .idle := hs.idle_of_not_works (by rw [hm]; rfl)
  obtain ⟨-, -, unarmed⟩ := hs.uncommitted_of_setup hm
  have entered : enterMode .joining (takeCommit s) = takeMode .joining s.ctl.pause (takeCommit s) :=
    enterMode_of_idle (s := takeCommit s) rfl idle
  have taken : goodCommit s = judgePeers (committed s) := by
    unfold goodCommit
    rw [entered]
  rw [taken]
  exact judgePeers_of_idle (s := committed s) rfl empty unarmed

theorem SetupSlot.leaveSetup_ne (r : SetupSlot) : r.leaveSetup ≠ .pending := by
  cases r <;> exact nofun

/-- A form that is not below the held depth keeps it (R106). -/
theorem committed_feed_of_low (h : s.feed.depth.getD 0 ≤ s.join.staged.formHeight) : (committed s).feed = s.feed := by
  show { s.feed with
    depth := if decide (s.feed.depth.getD 0 ≤ s.join.staged.formHeight) then s.feed.depth else none
    probeValid := if decide (s.feed.depth.getD 0 ≤ s.join.staged.formHeight) then s.feed.probeValid else false } = _
  rw [decide_eq_true h, if_pos rfl, if_pos rfl]

/-- A held depth above the form is discarded with its reading (R106). -/
theorem committed_feed_of_high (h : s.join.staged.formHeight < s.feed.depth.getD 0) :
    (committed s).feed = { s.feed with depth := none, probeValid := false } := by
  show { s.feed with
    depth := if decide (s.feed.depth.getD 0 ≤ s.join.staged.formHeight) then s.feed.depth else none
    probeValid := if decide (s.feed.depth.getD 0 ≤ s.join.staged.formHeight) then s.feed.probeValid else false } = _
  rw [decide_eq_false (Nat.not_le.mpr h)]
  rfl

/-- In SETUP nothing is committed, so every channel is OFF (R105). -/
theorem Sound.off_of_setup (hs : Sound s) (hm : s.ctl.mode = .setup) (ch : Ch) : (s.chan ch).state = .off := by
  obtain ⟨uncommitted, -⟩ := hs.uncommitted_of_setup hm
  obtain ⟨active, -⟩ := hs.channels ch (Ch.mem_all ch)
  rw [uncommitted] at active
  by_contra k
  rw [Channel.isActive, bne_iff_ne.mpr k] at active
  cases active

/-- The join unit of a good commit; the images stay, since nothing is kept before the join is done (R169, R171). -/
theorem committed_join (s : State) : (committed s).join = (takeCommit s).join := by
  have unkept : ∀ (b : Bool) (t : State), t.join.state = .listening → keepChange b t = t := fun b t ht => by
    have off : (b && recordable t) = false := by rw [recordable, ht]; exact Bool.and_false b
    simp only [keepChange, off, Bool.false_eq_true, if_false]
  show (takeMode .joining s.ctl.pause (takeCommit s)).join = _
  rw [takeMode, unkept _ _ rfl]
  rfl

/-- Settles O50: the three stages in their order, each refusal's result, and the record brought into force. -/
theorem commitJudged : Obligations.CommitJudged := by
  intro s sender target check hs hm ha r own refused
  have taken : ∀ {k : State}, (match judgeCommit check.toNat s with
      | some c => refuseCommit c s
      | none => goodCommit s) = k → exec (.setupCommit sender target check) s = finish s k := by
    rintro k rfl
    exact congrArg (finish s) (if_pos ⟨hm, ha⟩)
  have refuses : ∀ {c : CommitResult}, judgeCommit check.toNat s = some c → refused c := by
    intro c hc
    have block := taken (k := refuseCommit c s) (by rw [hc])
    rw [refuseCommit, requestSetup_eq] at block
    exact answers_same hs block
  have passes : r.check = check.toNat → judgeCommit check.toNat s
      = (match firstMarked s with
        | some id => some (.range id)
        | none => (failedRule s.join.ownNumber s.join.staged).map .rule) := fun hc => if_neg (not_not.mpr hc)
  refine ⟨fun hc => refuses (if_pos hc), fun hc id h1 h87 hbad least => refuses ?_,
    fun hc hr k hk => refuses ?_, fun hc hr hk => ?_⟩
  · rw [passes hc, failedItem_some hs h1 h87 hbad least]
  · rw [passes hc, firstMarked_none hs hr]
    exact congrArg (Option.map CommitResult.rule) hk
  · have good : judgeCommit check.toNat s = none := by
      rw [passes hc, firstMarked_none hs hr]
      exact congrArg (Option.map CommitResult.rule) hk
    have block := taken (k := goodCommit s) (by rw [good])
    obtain ⟨cs, e⟩ := goodCommit_eq hs hm
    rw [e] at block
    have off := hs.off_of_setup hm
    obtain ⟨-, unset, -⟩ := hs.uncommitted_of_setup hm
    have still : anyMoving s = false := by
      rw [anyMoving_eq, List.any_eq_false]
      intro ch _
      rw [Channel.moving, off]
      exact nofun
    refine ⟨_, block, ?_, ?_, ?_, ?_, ?_, ?_, ?_, ?_, ?_, ?_, ?_, ?_, ?_, fun ch _ => ?_⟩ <;>
      simp only [settled_ctl, settled_setup, settled_now, settled_join, settled_setupRequest, settled_report,
        settled_peers, settled_cure, settled_stack, settled_seq, settled_sup, settled_feed, settled_chan]
    · rfl
    · rfl
    · rfl
    · exact committed_join s
    · exact SetupSlot.leaveSetup_ne _
    · split
      · rfl
      · exact ReportSlot.request_urgent_twice s.line.report
    · rfl
    · rfl
    · rfl
    · rfl
    · obtain ⟨-, low, -⟩ := hs.height
      exact (low unset).1
    · rw [still, Bool.false_and]
      show (committed s).feed = _
      cases hd : s.feed.depth with
      | none => exact committed_feed_of_low (by rw [hd]; exact Nat.zero_le _)
      | some depth =>
        by_cases h : r.formHeight < depth
        · exact (committed_feed_of_high (by rw [hd]; exact h)).trans (if_pos h).symm
        · exact (committed_feed_of_low (by rw [hd]; exact Nat.not_lt.mp h)).trans (if_neg h).symm
    · rfl
    · exact PerChannel.get_ofFn _ _

end

end Sys2Proof.Machine
end

section
/-! PROOFS. The plan event and the starts it makes (R23, R29, R41 to R46, R85 to R89). -/

namespace Sys2Proof.Machine

-- In order, so that the proofs waiting on one another do not hold a stack each.
set_option Elab.async false

section
variable {s t : State}

/-! ### A start that falls due -/

theorem Channel.startDue_outcome (r : SetupRecord) (now : Nat) (c : Channel) :
    StartOutcome r now c (c.startDue r now) := by
  unfold StartOutcome
  by_cases hv : c.readingValid = false
  · have halts : c.startDue r now = c.halt .fault now := if_pos (by rw [hv]; rfl)
    rw [if_pos hv, halts, Channel.halt_eq, Channel.stand_eq, Channel.shut_eq]
    exact ⟨rfl, rfl, rfl, rfl, rfl⟩
  · have judged : c.startDue r now = if c.target ≤ c.x.getD 0 then { c with startPending := false }
        else c.toExtend r now := if_neg (by simpa using hv)
    rw [if_neg hv, judged]
    by_cases ht : c.target ≤ c.x.getD 0
    · rw [if_pos ht, if_pos ht]
    · rw [if_neg ht, if_neg ht, Channel.toExtend_eq]
      by_cases hd : c.dumpClosed + r.deadTime ≤ now
      · rw [if_pos hd]
        exact if_pos hd
      · rw [if_neg hd]
        exact if_neg hd

/-! ### The starts of a cycle -/

/-- Every active bank A channel is in REST with no start pending (R89). -/
theorem bankAReady_iff (u : State) : bankAReady u = true ↔
    ∀ ch ∈ [Ch.c1, Ch.c3], (u.chan ch).state = .off
      ∨ ((u.chan ch).state = .rest ∧ (u.chan ch).startPending = false) := by
  simp [bankAReady, Ch.all, Ch.bankA, Channel.isActive]

theorem bankAReady_congr (h : ∀ ch : Ch, ch.bankA = true → t.chan ch = s.chan ch) : bankAReady t = bankAReady s := by
  rw [Bool.eq_iff_iff, bankAReady_iff, bankAReady_iff]
  have one := h .c1 rfl
  have three := h .c3 rfl
  simp only [List.forall_mem_cons, List.not_mem_nil, false_implies, implies_true, one, three]

theorem startBank_chan (pick : Ch → Bool) (s : State) (ch : Ch) : (startBank pick s).chan ch
    = if pick ch then (s.chan ch).startIfDue s.setup s.now else s.chan ch := PerChannel.get_ofFn _ ch

/-- The starts that fall due together, or bank A first (R87, R89). -/
theorem startStrokes_spec (s : State) : ∃ q : PerChannel Channel, startStrokes s = { s with seq.chans := q }
    ∧ ∀ ch : Ch, q.get ch
      = if s.setup.banked = true ∧ ch.bankA = false ∧ bankAReady { s with seq.chans := q } = false then s.chan ch
        else (s.chan ch).startIfDue s.setup s.now := by
  unfold startStrokes
  by_cases hb : s.setup.banked = true
  · rw [if_pos hb]
    by_cases hr : bankAReady (startBank Ch.bankA s) = true
    · refine ⟨_, if_pos hr, fun ch => ?_⟩
      have ready : bankAReady (startBank (fun c => !c.bankA) (startBank Ch.bankA s)) = true := by
        rw [← hr]
        refine bankAReady_congr fun ch ha => ?_
        rw [startBank_chan, ha]
        rfl
      have open_ : ¬(s.setup.banked = true ∧ ch.bankA = false
          ∧ bankAReady (startBank (fun c => !c.bankA) (startBank Ch.bankA s)) = false) := by
        rw [ready]
        exact fun k => absurd k.2.2 nofun
      refine Eq.trans ?_ (if_neg open_).symm
      refine (startBank_chan (fun c => !c.bankA) (startBank Ch.bankA s) ch).trans ?_
      rw [startBank_chan]
      cases ch.bankA <;> rfl
    · refine ⟨_, if_neg hr, fun ch => ?_⟩
      refine (startBank_chan Ch.bankA s ch).trans ?_
      have waits : bankAReady (startBank Ch.bankA s) = false := Bool.eq_false_iff.mpr hr
      cases ha : ch.bankA
      · exact (if_pos ⟨hb, rfl, waits⟩).symm
      · exact (if_neg fun k => absurd k.2.1 nofun).symm
  · rw [if_neg hb]
    refine ⟨_, rfl, fun ch => ?_⟩
    rw [if_neg fun k => hb k.1]
    exact startBank_chan (fun _ => true) s ch

/-! ### The close where strokes start -/

/-- Where channels leave REST alone, no EXTEND TIMEOUT ends (R186). -/
theorem settled_of_starts (hs : Sound s) (hsup : t.sup = s.sup)
    (hmove : ∀ ch : Ch, (s.chan ch).state = .rest ∨ (t.chan ch).state = (s.chan ch).state) :
    (settled s t).sup = s.sup ∧ (settled s t).line.report = t.line.report
      ∧ (anyMoving s = false → (settled s t).feed = t.feed) := by
  obtain ⟨-, -, -, -, -, hover⟩ := hs.presence
  have keep : ∀ c ∈ t.sup.present, (!extendTimeoutOver t c) = true := by
    intro c hmem
    cases c with
    | extendTimeout ch =>
      have present : s.isPresent (.extendTimeout ch) = true := by
        rw [State.isPresent, ← hsup]
        exact List.contains_iff_mem.mpr hmem
      have stays : extendTimeoutOver s (.extendTimeout ch) = false := by
        rw [← Bool.not_eq_true]
        intro k
        exact absurd ((hover ch (Ch.mem_all ch) k).symm.trans present) nofun
      rcases hmove ch with k | k
      · simp [extendTimeoutOver, k] at stays
      · simp only [extendTimeoutOver] at stays ⊢
        rw [k, stays]
        rfl
    | _ => rfl
  have present : t.sup.present.filter (fun c => !extendTimeoutOver t c) = t.sup.present := List.filter_eq_self.mpr keep
  have ends : endExtendTimeouts t = t := by rw [endExtendTimeouts, present]
  have view : faultView t = faultView s := by
    have latched : t.isLatched = s.isLatched := funext fun c => by rw [State.isLatched, hsup]; rfl
    simp only [faultView, State.isPresent, latched, hsup]
  refine ⟨?_, ?_, fun still => ?_⟩
  · rw [settled_sup, present]
    exact hsup
  · rw [settled_report, ends, if_pos view]
  · rw [settled_feed, still, Bool.false_and]
    rfl

/-! ### The plan event -/

theorem rest_of_allAtRest (h : allAtRest s = true) {ch : Ch} (ha : (s.chan ch).isActive = true) :
    (s.chan ch).state = .rest ∧ (s.chan ch).startPending = false := by
  have all := List.all_eq_true.mp h (s.chan ch) (PerChannel.mem_toList.mpr ⟨ch, Ch.mem_all ch, rfl⟩)
  simpa [ha] using all

theorem anyMoving_of_allAtRest (h : allAtRest s = true) : anyMoving s = false := by
  rw [anyMoving_eq, List.any_eq_false]
  intro ch _ moving
  by_cases ha : (s.chan ch).isActive = true
  · simp [Channel.moving, (rest_of_allAtRest h ha).1] at moving
  · simp only [Channel.isActive, bne_iff_ne, not_not] at ha
    simp [Channel.moving, ha] at moving

/-- A channel at REST takes its target, with a start pending where that is above 0 (R87). -/
theorem takeTarget_of_rest {n : Nat} {c : Channel} (hr : c.state = .rest) :
    c.takeTarget n = if 0 < n then { c with target := n, startPending := true }
      else { c with target := 0, startPending := false } := by
  have taken : c.takeTarget n = { c with target := n, startPending := decide (0 < n) } :=
    if_neg (by rw [hr]; exact nofun)
  rw [taken]
  by_cases hn : 0 < n
  · rw [decide_eq_true hn, if_pos hn]
  · rw [decide_eq_false hn, if_neg hn, Nat.eq_zero_of_not_pos hn]

/-- The start that falls due with the target (R88). -/
theorem startIfDue_takeTarget {r : SetupRecord} {now n : Nat} {c : Channel} (hr : c.state = .rest) :
    (c.takeTarget n).startIfDue r now
      = if 0 < n then ({ c with target := n, startPending := true } : Channel).startDue r now
        else { c with target := 0, startPending := false } := by
  rw [takeTarget_of_rest hr]
  by_cases hn : 0 < n
  · rw [if_pos hn, if_pos hn]
    exact if_pos ⟨hr, rfl⟩
  · rw [if_neg hn, if_neg hn]
    exact if_neg fun k => absurd k.2 nofun

theorem startIfDue_of_off {r : SetupRecord} {now n : Nat} {c : Channel} (ha : c.isActive = false) :
    (c.takeTarget n).startIfDue r now = c ∧ c.takeTarget n = c := by
  have off : c.state = .off := by simpa [Channel.isActive] using ha
  have same : c.takeTarget n = c := if_pos off
  refine ⟨?_, same⟩
  rw [same]
  refine if_neg fun k => ?_
  rw [off] at k
  exact absurd k.1 nofun

/-- The state of a plan event, channel by channel (R87, R89). -/
theorem planEvent_spec (s : State) (h : allAtRest s = true) :
    ∃ (q : PerChannel Channel) (a b : Option Image),
      planEvent s = { planned s with seq.chans := q, join.imageA := a, join.imageB := b }
      ∧ (∀ ch : Ch, (s.chan ch).isActive = false → q.get ch = s.chan ch)
      ∧ ∀ ch : Ch, (s.chan ch).isActive = true →
        let n := (planOf (ramped s)).targets.get ch
        let marked : Channel := { s.chan ch with target := n, startPending := true }
        q.get ch = if 0 < n then
            (if s.setup.banked = true ∧ ch.bankA = false ∧ bankAReady { s with seq.chans := q } = false then marked
              else marked.startDue s.setup s.now)
          else { s.chan ch with target := 0, startPending := false } := by
  obtain ⟨q, e, hq⟩ := startStrokes_spec (keepChange (decide (0 < (planOf (ramped s)).rise)) (planned s))
  have got : ∀ ch : Ch, (planned s).chan ch = (s.chan ch).takeTarget ((planOf (ramped s)).targets.get ch) :=
    fun ch => PerChannel.get_ofFn _ ch
  have ready : ∀ u : State, bankAReady { u with seq.chans := q } = bankAReady { s with seq.chans := q } :=
    fun u => bankAReady_congr fun _ _ => rfl
  refine ⟨q, _, _, (planEvent_eq s).trans e, fun ch ha => ?_, fun ch ha => ?_⟩
  · obtain ⟨due, same⟩ := startIfDue_of_off (r := s.setup) (now := s.now)
      (n := (planOf (ramped s)).targets.get ch) ha
    rw [← got] at due same
    refine (hq ch).trans ?_
    split
    · exact same
    · exact due
  · intro n marked
    obtain ⟨hr, -⟩ := rest_of_allAtRest h ha
    have due := startIfDue_takeTarget (r := s.setup) (now := s.now) (n := n) hr
    rw [← got] at due
    have cond := hq ch
    rw [ready] at cond
    refine cond.trans ?_
    by_cases hw : s.setup.banked = true ∧ ch.bankA = false ∧ bankAReady { s with seq.chans := q } = false
    · rw [if_pos hw]
      exact (if_pos hw).trans ((got ch).trans (takeTarget_of_rest hr))
    · rw [if_neg hw]
      exact (if_neg hw).trans due

/-- A plan event, closed: the channels as it left them, and the blocks beside (R23, R46, R85, R87). -/
theorem planEvent_closed (hs : Sound s) {u : State} (hu : u.seq.chans = s.seq.chans) (hsup : u.sup = s.sup)
    (h : allAtRest s = true) :
    let t := settled s (planEvent u)
    t.seq = (planEvent u).seq ∧ t.plan = (planned u).plan ∧ t.now = u.now ∧ t.ctl = u.ctl ∧ t.stack = u.stack
      ∧ t.cure = u.cure ∧ t.feed = u.feed ∧ t.peers = u.peers ∧ t.sup = s.sup ∧ t.line.report = u.line.report := by
  intro t
  have rests : allAtRest u = true := by rw [allAtRest, hu]; exact h
  have chan : ∀ ch : Ch, u.chan ch = s.chan ch := fun ch => by rw [State.chan, hu]; rfl
  obtain ⟨q, a, b, e, inactive, -⟩ := planEvent_spec u rests
  have sup : (planEvent u).sup = s.sup := by rw [e]; exact hsup
  have moves : ∀ ch : Ch, (s.chan ch).state = .rest ∨ ((planEvent u).chan ch).state = (s.chan ch).state := by
    intro ch
    by_cases ha : (s.chan ch).isActive = true
    · exact .inl (rest_of_allAtRest h ha).1
    · refine .inr ?_
      rw [← chan, ← inactive ch (by rw [chan]; exact Bool.eq_false_iff.mpr ha), e]
      rfl
  obtain ⟨hsupT, hreport, hfeed⟩ := settled_of_starts hs sup moves
  have feed := hfeed (anyMoving_of_allAtRest h)
  refine ⟨settled_seq _ _, ?_, ?_, ?_, ?_, ?_, feed.trans ?_, ?_, hsupT, hreport.trans ?_⟩
  · rw [settled_plan, e]
  · rw [settled_now, e]; rfl
  · rw [settled_ctl, e]; rfl
  · rw [settled_stack, e]; rfl
  · rw [settled_cure, e]; rfl
  · rw [e]; rfl
  · rw [settled_peers, e]; rfl
  · rw [e]; rfl

/-- The target of an active channel is the rise with its clamped trim, or 0 (R41, R42). -/
theorem planOf_target (u : State) {ch : Ch} (ha : (u.chan ch).isActive = true) :
    ((planOf u).targets.get ch : Int) = if (planOf u).rise = 0 then 0 else
      max 0 (min 300 (((planOf u).rise : Int)
        + max (-(u.setup.trimMax : Int)) (min u.setup.trimMax ((u.seq.height : Int) - (u.chan ch).climbed)))) := by
  have target : (planOf u).targets.get ch = channelTarget u.setup u.seq.height (planOf u).rise (u.chan ch) :=
    PerChannel.get_map _ _ _
  have on : (u.chan ch).state ≠ .off := by simpa [Channel.isActive] using ha
  rw [target, channelTarget]
  by_cases hr : (planOf u).rise = 0
  · rw [if_pos (.inl hr), if_pos hr]
    rfl
  · rw [if_neg (not_or.mpr ⟨hr, on⟩), if_neg hr]
    exact Int.toNat_of_nonneg (Int.le_max_left _ _)

/-- What a plan event over `u`, the station `s` at its moment, leaves as the statement lists it. -/
theorem planEvent_plans {u : State} (hu : u.seq.chans = s.seq.chans)
    (h : allAtRest s = true) {ch : Ch} (ha : (s.chan ch).isActive = true) :
    let t := settled s (planEvent u)
    (t.chan ch).climbed = (s.chan ch).climbed
      ∧ (t.chan ch).target = (planOf (ramped u)).targets.get ch
      ∧ ((t.chan ch).target = 0 →
        (t.chan ch).state = .rest ∧ (t.chan ch).startPending = false
          ∧ (t.chan ch).pressureOpen = (s.chan ch).pressureOpen) := by
  intro t
  have rests : allAtRest u = true := by rw [allAtRest, hu]; exact h
  have chan : u.chan ch = s.chan ch := by rw [State.chan, hu]; rfl
  obtain ⟨q, a, b, e, -, active⟩ := planEvent_spec u rests
  have got := active ch (by rw [chan]; exact ha)
  have tChan : t.chan ch = q.get ch := by
    rw [settled_chan, e]
    rfl
  rw [chan] at got
  obtain ⟨rest, -⟩ := rest_of_allAtRest h ha
  rw [tChan, got]
  split
  · rename_i hn
    split
    · exact ⟨rfl, rfl, fun k => absurd k (by exact Nat.ne_of_gt hn)⟩
    · have onward := Channel.onward_startDue (r := u.setup) (now := u.now)
        (c := { s.chan ch with target := (planOf (ramped u)).targets.get ch, startPending := true })
      refine ⟨onward.climbed, onward.target, fun k => absurd (onward.target.symm.trans k) ?_⟩
      exact Nat.ne_of_gt hn
  · rename_i hn
    exact ⟨rfl, (Nat.eq_zero_of_not_pos hn).symm, fun _ => ⟨rest, rfl, rfl⟩⟩

/-- Settles O23: an expiry that finds every channel at REST, or a completion, plans; another is held. -/
theorem cycleExpiryPlans : Obligations.CycleExpiryPlans := by
  intro s d hs hclimbs now planned_
  have plans : ∀ n : Nat, allAtRest s = true →
      planned_ { s with now := n } (settled s (planEvent { s with now := n })) := by
    intro n hrest
    let u : State := { s with now := n }
    obtain ⟨seq, plan, time, ctl, stack, cure, feed, peers, sup, report⟩ := planEvent_closed hs (u := u) rfl rfl hrest
    obtain ⟨q, a, b, e, inactive, -⟩ := planEvent_spec u hrest
    have last : (settled s (planEvent u)).plan.last = planOf (ramped u) := congrArg Planner.last plan
    have seqU : (settled s (planEvent u)).seq = { (planned u).seq with chans := q } := by rw [seq, e]
    refine ⟨last.trans (by rw [raiseRamp_eq]), time, congrArg Planner.ramp plan, ?_, ?_, ?_, ?_,
      fun ch _ ha => ?_, fun ch _ ha => ?_, ctl, stack, cure, feed, peers, sup, report⟩
    · show _ = if 0 < (settled s (planEvent u)).plan.last.rise then _ else _
      rw [last, seqU]
      rfl
    · rw [seqU]; rfl
    · rw [seqU]; rfl
    · rw [seqU]; rfl
    · obtain ⟨climbed, target, zero⟩ := planEvent_plans (s := s) (u := u) rfl hrest ha
      refine ⟨climbed, ?_, ?_, zero⟩
      · show _ = PerChannel.get (settled s (planEvent u)).plan.last.targets ch
        rw [last, target]
      · show _ = if (settled s (planEvent u)).plan.last.rise = 0 then _ else _
        rw [target, last]
        exact planOf_target (ramped u) ha
    · rw [settled_chan, e]
      exact inactive ch ha
  refine ⟨fun hd hrest => ?_, fun hheld hrest => ?_, fun hd hrest => ?_⟩
  · refine ⟨_, ?_, plans now hrest⟩
    refine congrArg (finish s) ((if_pos (by rw [hd, hclimbs]; rfl)).trans ?_)
    rw [hd]
    exact if_pos hrest
  · refine ⟨_, ?_, plans s.now hrest⟩
    exact congrArg (finish s) (if_pos (by rw [cycleComplete, hheld, hclimbs, hrest]; rfl))
  · have block : exec .cycleTimerExpiry s
        = finish s { s with now := now, seq.cycleTimer := none, seq.expiryHeld := true } := by
      refine congrArg (finish s) ((if_pos (by rw [hd, hclimbs]; rfl)).trans ?_)
      rw [hd]
      exact if_neg (by
        show ¬ allAtRest s = true
        rw [hrest]
        exact nofun)
    exact answers_same hs block

/-- Settles O24: the starts of a plan event by bank, and bank B's own. -/
theorem startsFallDueByBank : Obligations.StartsFallDueByBank := by
  intro s d hs started
  have starts : ∀ n : Nat, allAtRest s = true → started n (settled s (planEvent { s with now := n })) := by
    intro n hrest
    let u : State := { s with now := n }
    obtain ⟨-, -, -, -, -, -, -, -, sup, -⟩ := planEvent_closed hs (u := u) rfl rfl hrest
    obtain ⟨q, a, b, e, -, active⟩ := planEvent_spec u hrest
    refine ⟨sup, fun ch _ ha hpos => ?_⟩
    have tChan : ∀ x : Ch, (settled s (planEvent u)).chan x = q.get x := fun x => by
      rw [settled_chan, e]
      rfl
    have ready : bankAReady (settled s (planEvent u)) = bankAReady { u with seq.chans := q } :=
      bankAReady_congr fun x _ => tChan x
    obtain ⟨-, target, -⟩ := planEvent_plans (s := s) (u := u) rfl hrest ha
    have got := active ch ha
    rw [← target] at got
    have started := got.trans (if_pos hpos)
    intro marked
    show if s.setup.banked = true ∧ ch.bankA = false ∧ bankAReady (settled s (planEvent u)) = false
      then (settled s (planEvent u)).chan ch = marked
      else StartOutcome s.setup n marked ((settled s (planEvent u)).chan ch)
    rw [ready, tChan, started]
    by_cases hw : s.setup.banked = true ∧ ch.bankA = false ∧ bankAReady { u with seq.chans := q } = false
    · rw [if_pos hw]
      exact if_pos hw
    · rw [if_neg hw]
      exact (if_neg hw).symm ▸ Channel.startDue_outcome s.setup n marked
  refine ⟨fun hclimbs hrest => ⟨fun hheld => ?_, fun hd => ?_⟩, bankAReady_iff, fun hbanked hready hwaits => ?_⟩
  · refine ⟨_, ?_, starts s.now hrest⟩
    exact congrArg (finish s) (if_pos (by rw [cycleComplete, hheld, hclimbs, hrest]; rfl))
  · refine ⟨_, ?_, starts (max s.now d) hrest⟩
    refine congrArg (finish s) ((if_pos (by rw [hd, hclimbs]; rfl)).trans ?_)
    rw [hd]
    exact if_pos hrest
  · let t := startBank (fun c => !c.bankA) s
    have block : exec .bankBStart s = finish s t :=
      congrArg (finish s) (if_pos (by rw [bankBDue, hbanked, hready, hwaits]; rfl))
    have moves : ∀ ch : Ch, (s.chan ch).state = .rest ∨ (t.chan ch).state = (s.chan ch).state := by
      intro ch
      by_cases hr : (s.chan ch).state = .rest
      · exact .inl hr
      · refine .inr ?_
        have stays : (s.chan ch).startIfDue s.setup s.now = s.chan ch := if_neg fun k => hr k.1
        rw [startBank_chan, stays, ite_self]
    obtain ⟨sup, -, -⟩ := settled_of_starts hs (t := t) rfl moves
    refine ⟨_, block, ?_, ?_, fun ch hch => ?_, ?_, ?_, ?_, ?_, ?_, ?_, sup, ?_, ?_⟩
    · exact (settled_chan s t .c1).trans (startBank_chan _ s .c1)
    · exact (settled_chan s t .c3).trans (startBank_chan _ s .c3)
    · have isB : (!ch.bankA) = true := by
        simp only [List.mem_cons, List.not_mem_nil, or_false] at hch
        rcases hch with rfl | rfl <;> rfl
      have got : (settled s t).chan ch = (s.chan ch).startIfDue s.setup s.now :=
        (settled_chan s t ch).trans ((startBank_chan _ s ch).trans (if_pos isB))
      rw [got, Channel.startIfDue]
      split
      · exact Channel.startDue_outcome _ _ _
      · rfl
    · exact settled_now s t
    · exact settled_ctl s t
    · exact settled_plan s t
    · exact settled_stack s t
    · exact settled_cure s t
    · exact settled_peers s t
    · exact (congrArg Sequencer.height (settled_seq s t) :)
    · exact (congrArg Sequencer.strokeCount (settled_seq s t) :)

end

end Sys2Proof.Machine
end

section
/-! PROOFS. What the supervisor's onsets and ends bring about in a station that is ready for them (R6, R8, R98,
R110, R182 to R184): one relation that every such change keeps to, and the new latch written out. -/

namespace Sys2Proof.Machine

-- In order, so that the proofs waiting on one another do not hold a stack each.
set_option Elab.async false

section
variable {s t u : State} {c : Cond}

/-! ### A station ready for onsets and ends, and what they may change -/

/-- A poised station whose feed controller is in shape. -/
structure Ready (s : State) : Prop where
  poised : Poised s
  shape : GateShape s

theorem Sound.ready (hs : Sound s) : Ready s := ⟨hs.poised, hs.gate.shape⟩

/-- What onsets and ends do to a station: the blocks aside, the heights and the layers stand; the latched set grows or
stays, and the channels are cut exactly where it grew; a station that feeds goes on or is stopped, and is stopped by
a latch; the feed is withdrawn exactly where it is stopped. -/
structure Onward (s t : State) : Prop where
  aside : Aside s t
  height : t.seq.height = s.seq.height
  strokes : t.seq.strokeCount = s.seq.strokeCount
  layers : t.stack.layers = s.stack.layers
  top : t.stack.concreteTop = s.stack.concreteTop
  chans : (t.sup.latched = s.sup.latched ∧ t.seq.chans = s.seq.chans)
    ∨ (s.sup.latched.length < t.sup.latched.length ∧ t.seq.chans = s.seq.chans.map (Channel.cut s.setup s.now))
  grows : ∀ d, s.isLatched d = true → t.isLatched d = true
  works : t.ctl.mode.works = true → s.ctl.mode.works = true ∧ t.sup.latched = s.sup.latched
  idle : s.ctl.mode.works = false → t.ctl.mode = s.ctl.mode
  stops : s.ctl.mode.works = true → t.ctl.mode.works = false → t.ctl.mode = .stopped
  feed : t.feed = if t.ctl.mode.works = s.ctl.mode.works then s.feed else (feedWithdrawn s).feed

theorem Onward.refl (s : State) : Onward s s :=
  ⟨Aside.refl s, rfl, rfl, rfl, rfl, .inl ⟨rfl, rfl⟩, fun _ k => k, fun k => ⟨k, rfl⟩, fun _ => rfl,
    fun h k => absurd (h.symm.trans k) nofun, (if_pos rfl).symm⟩

theorem Channel.cut_cut (r : SetupRecord) (now : Nat) (c : Channel) :
    Channel.cut r now (Channel.cut r now c) = Channel.cut r now c := by
  by_cases h : c.state = .extend
  · have cut : Channel.cut r now c = ({ c with startPending := false } : Channel).toHold r now := if_pos h
    rw [cut, Channel.toHold_eq, Channel.shut_eq]
    rfl
  · have cut : Channel.cut r now c = { c with startPending := false } := if_neg h
    rw [cut]
    exact if_neg h

theorem feedWithdrawn_feed_of_same (hf : t.feed = s.feed) (hn : t.now = s.now) (hj : t.setup = s.setup) :
    (feedWithdrawn t).feed = (feedWithdrawn s).feed := by
  simp only [feedWithdrawn, blankStart, hf, hn, hj]

theorem Onward.trans (h : Onward s t) (k : Onward t u) : Onward s u := by
  refine ⟨h.aside.trans k.aside, k.height.trans h.height, k.strokes.trans h.strokes, k.layers.trans h.layers,
    k.top.trans h.top, ?_, fun d e => k.grows d (h.grows d e), fun e => ?_, fun e => ?_, fun e e' => ?_, ?_⟩
  · rcases h.chans with ⟨hl, hc⟩ | ⟨hl, hc⟩ <;> rcases k.chans with ⟨kl, kc⟩ | ⟨kl, kc⟩
    · exact .inl ⟨kl.trans hl, kc.trans hc⟩
    · refine .inr ⟨hl ▸ kl, ?_⟩
      rw [kc, hc, h.aside.setup, h.aside.now]
    · exact .inr ⟨kl ▸ hl, kc.trans hc⟩
    · refine .inr ⟨hl.trans kl, ?_⟩
      rw [kc, hc, h.aside.setup, h.aside.now]
      simp only [PerChannel.map, Channel.cut_cut]
  · obtain ⟨w, l⟩ := k.works e
    obtain ⟨w', l'⟩ := h.works w
    exact ⟨w', l.trans l'⟩
  · have same := h.idle e
    exact (k.idle (by rw [same]; exact e)).trans same
  · by_cases w : t.ctl.mode.works = true
    · exact k.stops w e'
    · exact (k.idle (Bool.eq_false_iff.mpr w)).trans (h.stops e (Bool.eq_false_iff.mpr w))
  · by_cases w : t.ctl.mode.works = s.ctl.mode.works
    · have tf : t.feed = s.feed := h.feed.trans (if_pos w)
      rw [k.feed, w, tf, feedWithdrawn_feed_of_same tf h.aside.now h.aside.setup]
    · have off : t.ctl.mode.works = false := by
        rw [← Bool.not_eq_true]
        exact fun e => w (e.trans (h.works e).1.symm)
      have same : u.ctl.mode.works = t.ctl.mode.works := by rw [k.idle off]
      rw [k.feed, if_pos same, h.feed, if_neg w, if_neg (by rw [same]; exact w)]

theorem Onward.shape (h : Onward s t) (hg : GateShape s) : GateShape t := by
  have feed := h.feed
  split at feed
  · rw [GateShape, feed]
    exact hg
  · rw [GateShape, feed]
    exact ⟨rfl, nofun, rfl, rfl⟩

/-- A change of the conditions and what follows it, for a state that looks the same. -/
theorem Onward.alike (h : Alike t (holdFollowed { s with sup.present := cs })) (ha : Aside s t) : Onward s t := by
  have body := h.body
  have mode : t.ctl.mode = heldMode { s with sup.present := cs } := SameBody.mode body
  have works : t.ctl.mode.works = s.ctl.mode.works := by
    rw [mode]
    exact heldMode_works { s with sup.present := cs }
  have seq : t.seq = s.seq := SameBody.seq body
  have stack : t.stack = s.stack := SameBody.stack body
  have latched : t.sup.latched = s.sup.latched := SameBody.latched body
  refine ⟨ha, by rw [seq], by rw [seq], by rw [stack], by rw [stack], .inl ⟨latched, by rw [seq]⟩, fun d k => ?_,
    fun k => ⟨works.symm.trans k, latched⟩, fun k => ?_, fun k k' => ?_, ?_⟩
  · rw [State.isLatched, latched]
    exact k
  · rw [mode]
    exact heldMode_of_not_climbs (Mode.climbs_of_not_works k)
  · rw [works, k] at k'
    cases k'
  · rw [if_pos works]
    exact SameBody.feed body

theorem Ready.lapse (h : Ready s) (c : Cond) : Onward s (lapseCond c s) ∧ Ready (lapseCond c s) := by
  obtain ⟨alike, poised⟩ := h.poised.lapse c
  have onward := Onward.alike alike (aside_lapseCond c s)
  exact ⟨onward, poised, onward.shape h.shape⟩

/-! ### A new latch -/

theorem Poised.of_idle (h : Steady s) (he : s.effectiveMode.climbs = false) : Poised s :=
  ⟨h, by rw [he, Bool.false_and, h.outside he]; rfl⟩

/-- What a latch leaves of the mode controller and the feed (R15, R17, R110). -/
theorem latchMode_spec (h : Steady s) (hg : GateShape s) :
    Steady (latchMode s) ∧ (latchMode s).effectiveMode.climbs = false
      ∧ (latchMode s).feed = (if s.ctl.mode.works = true then (feedWithdrawn s).feed else s.feed)
      ∧ (latchMode s).ctl.mode = (if s.ctl.mode.works = true then .stopped else s.ctl.mode)
      ∧ (latchMode s).stack.concreteTop = s.stack.concreteTop
      ∧ (latchMode s).seq.strokeCount = s.seq.strokeCount := by
  have idle : (latchMode s).effectiveMode.climbs = false := Mode.climbs_of_not_works (latchMode_works s)
  refine (fun k : Steady (latchMode s) ∧ _ => ⟨k.1, idle, k.2⟩) ?_
  rcases latchMode_cases s with ⟨hw, e⟩ | ⟨hm, -, e⟩ | ⟨hw, -, e⟩
  · have stopped : enterMode .stopped s = feedWithdrawn (takeMode .stopped .empty s) := by
      rw [enterMode_eq]
      exact rejudgeFeed_withdrawn (s := takeMode .stopped .empty s) hg rfl _
    rw [if_pos hw, if_pos hw, e, stopped]
    refine ⟨⟨nofun, nofun, fun k => absurd rfl k, fun _ => ⟨rfl, ?_⟩, fun _ => rfl, nofun, nofun⟩, rfl, rfl, rfl, rfl⟩
    exact SetupSlot.leaveSetup_ne s.line.setupRequest
  · have works : s.ctl.mode.works = false := by rw [hm]; rfl
    have off : ¬ s.ctl.mode.works = true := by rw [works]; exact nofun
    rw [if_neg off, if_neg off, e]
    refine ⟨⟨fun k => absurd k off, fun k => ?_, h.gate, fun k => ?_, fun _ => rfl, fun k => ?_, fun k => ?_⟩,
      rfl, rfl, rfl, rfl⟩
    · exact absurd (Mode.works_of_climbs k) off
    · have k : s.ctl.mode.takesCommands = true := k
      rw [hm] at k
      cases k
    · exact absurd (hm.symm.trans k) nofun
    · exact absurd (hm.symm.trans k) nofun
  · have off : ¬ s.ctl.mode.works = true := by rw [hw]; exact nofun
    rw [if_neg off, if_neg off, e]
    exact ⟨h, rfl, rfl, rfl, rfl⟩

/-- A new entry of the latched set (R15, R98, R110, R184). -/
theorem latch_spec (h : Steady s) (hg : GateShape s) (hl : s.isLatched c = false) :
    Onward s (latch c s) ∧ Poised (latch c s) ∧ (latch c s).sup.armed = s.sup.armed := by
  obtain ⟨steady, idle, feed, mode, top, strokes⟩ :=
    latchMode_spec (s := joinLatched c s) (h.same (t := joinLatched c s)) hg
  have pull : ∀ u : State, (pullForTrip c u).ctl = u.ctl ∧ (pullForTrip c u).seq = u.seq
      ∧ (pullForTrip c u).feed = u.feed ∧ (pullForTrip c u).stack = u.stack ∧ (pullForTrip c u).line = u.line
      ∧ (pullForTrip c u).sup.armed = u.sup.armed := by
    intro u
    rcases pullForTrip_cases c u with ⟨-, e⟩ | ⟨-, e⟩ <;> rw [e] <;> exact ⟨rfl, rfl, rfl, rfl, rfl, rfl⟩
  have aside := aside_latch c s
  rcases latch_cases c s with ⟨k, -⟩ | ⟨-, e⟩
  · rw [hl] at k; cases k
  · obtain ⟨pctl, pseq, pfeed, pstack, pline, parmed⟩ := pull (cutExtensions (latchMode (joinLatched c s)))
    have ctl : (latch c s).ctl = (latchMode (joinLatched c s)).ctl := by rw [e]; exact pctl
    have feedE : (latch c s).feed = (latchMode (joinLatched c s)).feed := by rw [e]; exact pfeed
    have stackE : (latch c s).stack = (latchMode (joinLatched c s)).stack := by rw [e]; exact pstack
    have lineE : (latch c s).line = (latchMode (joinLatched c s)).line := by rw [e]; exact pline
    have strokesE : (latch c s).seq.strokeCount = (latchMode (joinLatched c s)).seq.strokeCount := by
      rw [e]; exact (congrArg Sequencer.strokeCount pseq :)
    have armed : (latch c s).sup.armed = s.sup.armed := by
      rw [e]
      refine parmed.trans ?_
      show (latchMode (joinLatched c s)).sup.armed = _
      rw [latchMode_sup]
      rfl
    have modeE : (latch c s).ctl.mode = if s.ctl.mode.works = true then .stopped else s.ctl.mode := by
      rw [ctl]; exact mode
    have latched : (latch c s).sup.latched = s.sup.latched ++ [c] := by
      rw [latch_latched, hl]; rfl
    have off : (latch c s).ctl.mode.works = false := by
      rw [modeE]
      split
      · rfl
      · rename_i k
        exact Bool.eq_false_iff.mpr k
    have setupE : (latchMode (joinLatched c s)).setup = s.setup :=
      ((aside_joinLatched c s).trans (aside_latchMode _)).setup
    have heightE : (latchMode (joinLatched c s)).seq.height = s.seq.height := latchMode_height _
    have still : Steady (latch c s) := steady.same ctl (by rw [latch_height, heightE])
      (by rw [aside.setup, setupE]) feedE fun k => by rw [lineE] at k; exact k
    refine ⟨⟨aside, latch_height c s, strokesE.trans strokes, latch_layers c s, by rw [stackE]; exact top, .inr ?_,
      fun d k => ?_, fun k => ?_, fun k => ?_, fun k _ => ?_, ?_⟩, Poised.of_idle still ?_, armed⟩
    · refine ⟨by rw [latched]; simp, ?_⟩
      rw [latch_chans, hl]
      rfl
    · rw [State.isLatched, latched]
      exact List.contains_iff_mem.mpr (List.mem_append_left _ (List.contains_iff_mem.mp k))
    · rw [off] at k; cases k
    · rw [modeE, if_neg (by rw [k]; exact nofun)]
    · rw [modeE, if_pos k]
    · rw [off, feedE]
      refine feed.trans ?_
      show (if s.ctl.mode.works = true then _ else _) = _
      cases s.ctl.mode.works <;> rfl
    · rw [effectiveMode_of_ctl ctl]
      exact idle

theorem classOf_ne_hold_of_latching (hl : s.latching c = true) : s.classOf c ≠ .hold := by
  intro k
  rw [State.latching, k] at hl
  cases hl

theorem holdPresent_of_same (hp : t.sup.present = s.sup.present) (hj : t.setup = s.setup)
    (ha : t.sup.armed = s.sup.armed) : t.holdPresent = s.holdPresent := by
  simp only [State.holdPresent, State.classOf, State.effective, hp, hj, ha]

theorem followHold_of_same (b : Bool) (h : b = s.holdPresent) : followHold b s = s := if_pos h

/-- The onset of a condition whose class latches: its presence, and a new latch where it was not latched (R184). -/
theorem raiseCond_of_latching (h : Steady s) (hg : GateShape s) (hp : s.isPresent c = false)
    (hl : s.latching c = true) : raiseCond c s = latch c { s with sup.present := s.sup.present ++ [c] } := by
  have shown : presentWith c s = s.sup.present ++ [c] := by simp [presentWith, hp]
  have hold : ({ s with sup.present := s.sup.present ++ [c] } : State).holdPresent = s.holdPresent := by
    rw [← shown]
    exact holdPresent_presentWith (classOf_ne_hold_of_latching hl)
  rcases raiseCond_cases c s with ⟨k, -⟩ | ⟨-, -, e⟩ | ⟨-, k, -⟩
  · rw [hp] at k; cases k
  · rw [e]
    refine followHold_of_same _ (hold.symm.trans ?_)
    have aside := aside_latch c { s with sup.present := s.sup.present ++ [c] }
    refine (holdPresent_of_same (latch_present c _) aside.setup ?_).symm
    cases hq : s.isLatched c with
    | true => rcases latch_cases c { s with sup.present := s.sup.present ++ [c] } with ⟨-, e⟩ | ⟨k, -⟩
              · rw [e]
              · exact absurd (hq.symm.trans k) nofun
    | false => exact (latch_spec (s := { s with sup.present := s.sup.present ++ [c] }) h.same hg hq).2.2
  · rw [hl] at k; cases k

theorem Ready.raise (h : Ready s) (c : Cond) : Onward s (raiseCond c s) ∧ Ready (raiseCond c s) := by
  obtain ⟨poised, shape⟩ := h
  by_cases hp : s.isPresent c = true
  · rcases raiseCond_cases c s with ⟨-, e⟩ | ⟨k, -⟩ | ⟨k, -⟩
    · rw [e]
      exact ⟨Onward.refl s, poised, shape⟩
    · rw [hp] at k; cases k
    · rw [hp] at k; cases k
  · have hp := Bool.eq_false_iff.mpr hp
    by_cases hl : s.latching c = true
    · have raised := raiseCond_of_latching poised.steady shape hp hl
      have seen : Onward s { s with sup.present := s.sup.present ++ [c] } :=
        ⟨aside_setPresent _ s, rfl, rfl, rfl, rfl, .inl ⟨rfl, rfl⟩, fun _ k => k, fun k => ⟨k, rfl⟩, fun _ => rfl,
          fun e k => absurd (e.symm.trans k) nofun, (if_pos rfl).symm⟩
      have steady : Steady { s with sup.present := s.sup.present ++ [c] } := poised.steady.same
      rw [raised]
      cases hq : s.isLatched c with
      | true =>
        rcases latch_cases c { s with sup.present := s.sup.present ++ [c] } with ⟨-, e⟩ | ⟨k, -⟩
        · rw [e]
          refine ⟨seen, ⟨steady, ?_⟩, shape⟩
          have shown : presentWith c s = s.sup.present ++ [c] := by simp [presentWith, hp]
          have hold : ({ s with sup.present := s.sup.present ++ [c] } : State).holdPresent = s.holdPresent := by
            rw [← shown]
            exact holdPresent_presentWith (classOf_ne_hold_of_latching hl)
          rw [hold]
          exact poised.held
        · exact absurd (hq.symm.trans k) nofun
      | false =>
        obtain ⟨onward, ready, -⟩ := latch_spec steady (c := c) shape hq
        exact ⟨seen.trans onward, ready, (seen.trans onward).shape shape⟩
    · obtain ⟨alike, next⟩ := poised.raise (Bool.eq_false_iff.mpr hl)
      have onward := Onward.alike alike (aside_raiseCond c s)
      exact ⟨onward, next, onward.shape shape⟩

theorem Ready.judge (h : Ready s) (c : Cond) (b : Bool) : Onward s (judgeCond c b s) ∧ Ready (judgeCond c b s) := by
  cases b
  · exact h.lapse c
  · exact h.raise c

end

end Sys2Proof.Machine
end

section
/-! PROOFS. The transducer readings and the ends of the stroke timers (R83, R84, R90 to R92, R98, R103, R107). -/

namespace Sys2Proof.Machine

-- In order, so that the proofs waiting on one another do not hold a stack each.
set_option Elab.async false

section
variable {s t u : State} {c : Cond}

/-! ### The blank timer -/

theorem moving_iff (d : Channel) : d.moving = true ↔ d.state ∈ [.extend, .hold, .retract] := by
  simp [Channel.moving, or_assoc]

/-- The blank timer of a closed command: what the blocks made of it, and the end of the last motion (R107). -/
theorem blankFollows_settled {now : Nat} (hn : t.now = now) (hj : t.setup = s.setup)
    (hb : t.feed.blankTimer
      = if s.feed.gate = true ∧ t.feed.gate = false then blankStart t else s.feed.blankTimer) :
    BlankFollows s (settled s t) now := by
  have ended : (anyMoving s && !anyMoving t) = true ↔
      (∃ ch ∈ Ch.all, (s.chan ch).state ∈ [.extend, .hold, .retract])
        ∧ ∀ ch ∈ Ch.all, ¬ ((settled s t).chan ch).state ∈ [.extend, .hold, .retract] := by
    simp only [settled_chan, ← moving_iff, anyMoving_eq, Bool.and_eq_true, Bool.not_eq_true', List.any_eq_true,
      List.any_eq_false]
  have start : blankStart t = if s.setup.blankTime = 0 then none else some (now + s.setup.blankTime) := by
    rw [blankStart, hn, hj]
  unfold BlankFollows
  dsimp only
  rw [settled_feed]
  show (if (anyMoving s && !anyMoving t) = true then blankStart t else t.feed.blankTimer) = _
  rw [hb, start]
  generalize (if s.setup.blankTime = 0 then none else some (now + s.setup.blankTime)) = started
  by_cases hm : (anyMoving s && !anyMoving t) = true
  · rw [if_pos hm, if_pos (.inr (ended.mp hm))]
  · rw [if_neg hm]
    by_cases hg : s.feed.gate = true ∧ t.feed.gate = false
    · rw [if_pos hg, if_pos (.inl hg)]
    · rw [if_neg hg, if_neg (not_or.mpr ⟨hg, fun k => hm (ended.mpr k)⟩)]

/-- Where the feed stands, or was withdrawn. -/
theorem blank_of_same (h : t.feed = s.feed) : t.feed.blankTimer
    = if s.feed.gate = true ∧ t.feed.gate = false then blankStart t else s.feed.blankTimer := by
  rw [h, if_neg (fun k => absurd (k.1.symm.trans k.2) nofun)]

theorem blank_of_withdrawn (hg : GateShape s) (h : t.feed = (feedWithdrawn s).feed) (hn : t.now = s.now)
    (hj : t.setup = s.setup) : t.feed.blankTimer
    = if s.feed.gate = true ∧ t.feed.gate = false then blankStart t else s.feed.blankTimer := by
  obtain ⟨gate, -⟩ := hg
  have start : blankStart t = blankStart s := by simp only [blankStart, hn, hj]
  rw [h, start, gate]
  show (if s.feed.state = .opened then _ else _) = if (s.feed.state == .opened) = true ∧ false = false then _ else _
  simp only [beq_iff_eq, and_true]

theorem Onward.blank (h : Onward s t) (hg : GateShape s) : t.feed.blankTimer
    = if s.feed.gate = true ∧ t.feed.gate = false then blankStart t else s.feed.blankTimer := by
  have feed := h.feed
  split at feed
  · exact blank_of_same feed
  · exact blank_of_withdrawn hg feed h.aside.now h.aside.setup

/-! ### The ends of conditions that hold no station -/

/-- A supervision whose class code is 2 or 3 latches, and holds no station (R181, R184). -/
theorem class_of_code {v : Int} (hc : s.classOf c = .ofCode v) (lo : 2 ≤ v) (hi : v ≤ 3) :
    s.classOf c = .latch ∨ s.classOf c = .trip := by
  rw [hc, FaultClass.ofCode, if_neg (by omega)]
  by_cases h : v = 2
  · exact .inl (if_pos h)
  · refine .inr ((if_neg h).trans (if_pos (by omega)))

theorem latching_of_class (h : s.classOf c = .latch ∨ s.classOf c = .trip) (hd : c.isDeck = false) :
    s.latching c = true := by
  rw [State.latching, State.effective, hd]
  rcases h with h | h <;> rw [h] <;> rfl

theorem classOf_ne_hold_of_class (h : s.classOf c = .latch ∨ s.classOf c = .trip) : s.classOf c ≠ .hold := by
  rcases h with h | h <;> rw [h] <;> exact nofun

/-- The end of a condition that is not of class HOLD changes nothing else (R183). -/
theorem lapseCond_of_ne_hold (hc : s.classOf c ≠ .hold) :
    lapseCond c s = { s with sup.present := s.sup.present.filter (· != c) } := by
  rcases lapseCond_cases c s with ⟨hp, e⟩ | ⟨-, e⟩
  · rw [e, without_of_absent hp]
  · exact e.trans (followHold_of_same _ (holdPresent_without hc).symm)

theorem transducer_class (hs : Sound s) (hj : t.setup = s.setup) (ch : Ch) :
    t.classOf (.transducer ch) = .latch ∨ t.classOf (.transducer ch) = .trip := by
  obtain ⟨lo, hi⟩ := item_bounds hs.setup.inRange (i := 76) (by decide)
  exact class_of_code (v := s.setup.item 77) (by rw [State.classOf, hj]; rfl) lo hi

theorem retractTimeout_class (hs : Sound s) (hj : t.setup = s.setup) (ch : Ch) :
    t.classOf (.retractTimeout ch) = .latch ∨ t.classOf (.retractTimeout ch) = .trip := by
  obtain ⟨lo, hi⟩ := item_bounds hs.setup.inRange (i := 75) (by decide)
  exact class_of_code (v := s.setup.item 76) (by rw [State.classOf, hj]; rfl) lo hi

/-! ### A valid reading -/

theorem Channel.toRetract_begun (r : SetupRecord) (now : Nat) (blind : Bool) (d : Channel) :
    RetractionBegun r now blind (d.toRetract r now blind) := by
  have shut := Channel.shut_pressureOpen now d
  have dump := Channel.shut_dumpOpen now d
  rw [Channel.toRetract_eq]
  dsimp only
  split
  · rename_i h
    exact ⟨rfl, rfl, shut, (if_pos h).symm ▸ ⟨rfl, rfl, rfl⟩⟩
  · rename_i h
    exact ⟨rfl, rfl, shut, (if_neg h).symm ▸ ⟨dump, rfl, rfl⟩⟩

/-- What a reading of a channel in a stroke or in a retraction makes of it, by its state (R83, R90, R92). -/
theorem actOnValid_eq {r : SetupRecord} {now v : Nat} {b : Bool} {d : Channel} (hv : ChannelValves r now d)
    (hr : d.state ≠ .rest ∨ d.homing = .none) :
    let read : Channel := { d with x := some v, readingValid := true }
    let peaked : Channel := { read with xPeak := max d.xPeak v }
    (d.takeReading v).actOnValid r now b v =
      if d.state = .extend then
        (if d.pressureOpen = true ∧ d.target ≤ v then
          { peaked with state := .hold, pressureOpen := false, pressureClosed := now,
                        strokeTimer := some (now + r.deadTime), deferred := none }
        else peaked)
      else if d.state = .hold then peaked
      else if d.state = .retract ∧ d.dumpOpen = true ∧ d.blind = false ∧ v ≤ r.home then
        { read with state := .rest, dumpOpen := false, dumpClosed := now, strokeTimer := none,
                    deferred := none, homing := .none }
      else read := by
  intro read peaked
  obtain ⟨-, popen, dopen, -⟩ := hv
  cases hst : d.state with
  | extend =>
    have dump : d.dumpOpen = false := by
      rw [← Bool.not_eq_true]
      exact fun k => absurd (hst.symm.trans (dopen k).1) nofun
    have taken : d.takeReading v = peaked := by
      rw [Channel.takeReading, if_pos (.inl hst)]
    have acts : (d.takeReading v).actOnValid r now b v
        = if (d.pressureOpen && decide (d.target ≤ v)) = true then peaked.toHold r now else peaked := by
      rw [taken, Channel.actOnValid, show peaked.state = .extend from hst]
    rw [acts, if_pos rfl]
    by_cases h : d.pressureOpen = true ∧ d.target ≤ v
    · rw [if_pos h, if_pos (by rw [h.1, decide_eq_true h.2]; rfl), Channel.toHold_eq, Channel.shut_eq]
      simp only [peaked, read, h.1, dump, if_true, Bool.false_eq_true, if_false]
    · have no : ¬(d.pressureOpen && decide (d.target ≤ v)) = true := by
        simpa using h
      rw [if_neg h, if_neg no]
  | hold =>
    have taken : d.takeReading v = peaked := by
      rw [Channel.takeReading, if_pos (.inr hst)]
    rw [if_neg nofun, if_pos rfl, taken, Channel.actOnValid, show peaked.state = .hold from hst]
  | retract =>
    have press : d.pressureOpen = false := by
      rw [← Bool.not_eq_true]
      exact fun k => absurd (hst.symm.trans (popen k).1) nofun
    have taken : d.takeReading v = read := by
      rw [Channel.takeReading, if_neg (by rw [hst]; simp)]
    have acts : (d.takeReading v).actOnValid r now b v
        = if (d.dumpOpen && !d.blind && decide (v ≤ r.home)) = true then read.stand .rest now else read := by
      rw [taken, Channel.actOnValid, show read.state = .retract from hst]
    refine acts.trans (Eq.trans ?_ ((if_neg nofun).trans (if_neg nofun)).symm)
    by_cases h : d.dumpOpen = true ∧ d.blind = false ∧ v ≤ r.home
    · obtain ⟨hd, hb, hh⟩ := h
      rw [if_pos (by rw [hd, hb, decide_eq_true hh]; rfl), if_pos ⟨rfl, hd, hb, hh⟩, Channel.stand_eq, Channel.shut_eq]
      simp only [read, hd, press, hb, if_true, Bool.false_eq_true, if_false]
    · rw [if_neg (by simpa [and_assoc] using h), if_neg fun k => h k.2]
  | rest =>
    have taken : d.takeReading v = read := by
      rw [Channel.takeReading, if_neg (by rw [hst]; simp)]
    have home : read.homing = .none := hr.resolve_left fun k => k hst
    rw [if_neg nofun, if_neg nofun, if_neg (fun k => nomatch k.1), taken, Channel.actOnValid,
      show read.state = .rest from hst]
    exact if_pos home
  | off =>
    have taken : d.takeReading v = read := by
      rw [Channel.takeReading, if_neg (by rw [hst]; simp)]
    rw [if_neg nofun, if_neg nofun, if_neg (fun k => nomatch k.1), taken, Channel.actOnValid,
      show read.state = .off from hst]
  | inhibited =>
    have taken : d.takeReading v = read := by
      rw [Channel.takeReading, if_neg (by rw [hst]; simp)]
    rw [if_neg nofun, if_neg nofun, if_neg (fun k => nomatch k.1), taken, Channel.actOnValid,
      show read.state = .inhibited from hst]
  | fault =>
    have taken : d.takeReading v = read := by
      rw [Channel.takeReading, if_neg (by rw [hst]; simp)]
    rw [if_neg nofun, if_neg nofun, if_neg (fun k => nomatch k.1), taken, Channel.actOnValid,
      show read.state = .fault from hst]

/-- The first reading after a reset of a channel in REST (R101, R105). -/
theorem actOnValid_homing {r : SetupRecord} {now v : Nat} {b : Bool} {d : Channel} (hr : d.state = .rest)
    (hh : d.homing ≠ .none) : (d.takeReading v).actOnValid r now b v
      = if (decide (r.home < v) && !b) = true then
          ({ d with x := some v, readingValid := true } : Channel).toRetract r now false
        else { d with x := some v, readingValid := true, homing := .none } := by
  have taken : d.takeReading v = { d with x := some v, readingValid := true } := by
    rw [Channel.takeReading, if_neg (by rw [hr]; simp)]
  rw [taken, Channel.actOnValid, hr]
  exact if_neg hh

theorem settled_isPresent_eq (s t : State) (d : Cond) :
    (settled s t).isPresent d = (t.isPresent d && !extendTimeoutOver t d) := by
  rw [State.isPresent, settled_sup, Bool.eq_iff_iff]
  simp [State.isPresent, List.contains_eq_mem]

/-- Settles O25: the reading's own branch gives the channel, and the end of TRANSDUCER changes nothing else. -/
theorem validReadingActsByState : Obligations.ValidReadingActsByState := by
  intro s ch v hs hv c read peaked d
  have lineKept : ∀ w : State, w.line = s.line → (settled s w).line
      = { s.line with report := (settled s w).line.report, busyTimer := (settled s w).line.busyTimer } := by
    intro w hw
    obtain ⟨busy, e⟩ := settled_line s w
    rw [e, hw]
  have reported : ∀ w : State, w.line = s.line →
      (settled s w).line.report = s.line.report ∨ (settled s w).line.report = s.line.report.request .urgent := by
    intro w hw
    rw [settled_report, hw]
    split
    · exact .inl rfl
    · exact .inr rfl
  by_cases ha : c.isActive = true
  · have value : transducerValue (.value v) = some v := by
      have inRange : (0 : Int) ≤ v ∧ (v : Int) ≤ Config.transducerTop := ⟨by omega, by simp only [Config.transducerTop]; omega⟩
      exact (if_pos inRange).trans (congrArg some (Int.toNat_natCast v))
    let f : Channel → Channel := fun x => (x.takeReading v).actOnValid s.setup s.now (s.ctl.mode == .reduced) v
    let w : State := { s with
      seq.chans := s.seq.chans.set ch (f c), sup.present := s.sup.present.filter (· != .transducer ch) }
    have block : exec (.transducerReading ch (.value v)) s = finish s w := by
      refine congrArg (finish s) ((if_pos ha).trans ?_)
      have reads : readChannel ch (.value v) s = lapseCond (.transducer ch) (updateCh ch f s) := by
        unfold readChannel
        rw [value]
      rw [reads]
      exact lapseCond_of_ne_hold (s := updateCh ch f s) (classOf_ne_hold_of_class (transducer_class hs rfl ch))
    have chan : (settled s w).chan ch = f c := by
      rw [settled_chan]
      exact (PerChannel.get_set _ _ _ _).trans (if_pos rfl)
    have seq : (settled s w).seq = { s.seq with chans := s.seq.chans.set ch (f c) } := settled_seq s w
    refine ⟨_, block, fun k => absurd (ha.symm.trans k) nofun, fun _ hr => ?_, fun hr hh => ⟨?_, ?_⟩, fun _ => ?_,
      fun e he hne => ?_, settled_now s w, settled_ctl s w, settled_plan s w, settled_stack s w, settled_cure s w,
      settled_peers s w, ?_, blankFollows_settled rfl rfl (blank_of_same rfl), ?_, settled_join s w, lineKept w rfl,
      reported w rfl⟩
    · rw [seq]
      have acts : f c = d := actOnValid_eq (hs.valves ch (Ch.mem_all ch)) hr
      rw [acts]
    · rw [chan, seq]
    · have acts : f c = _ := actOnValid_homing hr hh
      rw [chan, acts]
      by_cases h : s.setup.home < v ∧ s.ctl.mode ≠ .reduced
      · have go : (decide (s.setup.home < v) && !(s.ctl.mode == .reduced)) = true := by simpa using h
        rw [if_pos h, if_pos go]
        have data := Channel.sameData_toRetract (r := s.setup) (now := s.now)
          (c := { c with x := some v, readingValid := true }) false
        exact ⟨Channel.toRetract_begun _ _ _ _, data.x, data.climbed⟩
      · have stay : ¬(decide (s.setup.home < v) && !(s.ctl.mode == .reduced)) = true := by simpa using h
        rw [if_neg h, if_neg stay]
    · have gone : w.isPresent (.transducer ch) = false := by
        refine (isPresent_without (.transducer ch) (.transducer ch) (s := s)).trans ?_
        simp
      exact (settled_isPresent s w (c := .transducer ch) nofun).trans gone
    · have kept : w.isPresent e = s.isPresent e := by
        refine (isPresent_without (.transducer ch) e (s := s)).trans ?_
        rw [bne_iff_ne.mpr he, Bool.and_true]
      rw [settled_isPresent s w hne, kept]
    · rw [settled_feed]
    · rw [settled_sup]
  · have off := Bool.eq_false_iff.mpr ha
    have block : exec (.transducerReading ch (.value v)) s = finish s s := congrArg (finish s) (if_neg ha)
    obtain ⟨body, report⟩ := settled_of_same hs (t := s) rfl rfl
    have state : c.state = .off := by simpa [Channel.isActive] using off
    refine ⟨_, block, fun _ => ⟨body, report⟩, fun k => absurd k ha, fun k => absurd (state.symm.trans k) nofun,
      fun k => absurd k ha, fun e _ _ => SameBody.isPresent body e, settled_now s s, settled_ctl s s, settled_plan s s,
      settled_stack s s, settled_cure s s, settled_peers s s, ?_, blankFollows_settled rfl rfl (blank_of_same rfl), ?_,
      settled_join s s, lineKept s rfl, reported s rfl⟩
    · rw [settled_feed]
    · rw [settled_sup]

/-! ### An onset over moved channels -/

/-- Channels moved, and nothing else. -/
theorem Ready.moved (h : Ready s) (q : PerChannel Channel) : Ready { s with seq.chans := q } :=
  ⟨h.poised.refed (t := { s with seq.chans := q }) h.poised.steady.gate, h.shape⟩

/-- Time has passed, and nothing else. -/
theorem Ready.later (h : Ready s) (n : Nat) : Ready { s with now := n } :=
  ⟨h.poised.refed (t := { s with now := n }) h.poised.steady.gate, h.shape⟩

/-- What the onset of a latching condition brings about in a sound station whose channels alone were moved. -/
theorem raise_latching (h : Ready u) (hl : u.latching c = true)
    (hw : u.ctl.mode.works = true → u.sup.latched = []) :
    (u.isPresent c = false → (raiseCond c u).isLatched c = true
        ∧ (u.ctl.mode.works = true → (raiseCond c u).ctl.mode = .stopped))
      ∧ (u.isPresent c = false ∧ u.isLatched c = false →
          (raiseCond c u).seq.chans = u.seq.chans.map (Channel.cut u.setup u.now))
      ∧ (¬(u.isPresent c = false ∧ u.isLatched c = false) → (raiseCond c u).seq.chans = u.seq.chans) := by
  obtain ⟨onward, -⟩ := h.raise c
  have latched := raiseCond_latched c u
  refine ⟨fun hp => ?_, fun hn => ?_, fun hn => ?_⟩
  · have entry : (raiseCond c u).isLatched c = true := by
      by_cases k : u.isLatched c = true
      · exact onward.grows c k
      · rw [if_pos ⟨hp, hl, Bool.eq_false_iff.mpr k⟩] at latched
        rw [State.isLatched, latched]
        simp
    refine ⟨entry, fun works => onward.stops works ?_⟩
    rw [← Bool.not_eq_true]
    intro k
    have same := (onward.works k).2
    rw [State.isLatched, same, hw works] at entry
    cases entry
  · rw [if_pos ⟨hn.1, hl, hn.2⟩] at latched
    rcases onward.chans with ⟨k, -⟩ | ⟨-, k⟩
    · rw [latched] at k
      simp at k
    · exact k
  · rw [if_neg fun k => hn ⟨k.1, k.2.2⟩] at latched
    rcases onward.chans with ⟨-, k⟩ | ⟨k, -⟩
    · exact k
    · rw [latched] at k
      exact absurd k (Nat.lt_irrefl _)

theorem Sound.none_of_works (hs : Sound s) (hw : s.ctl.mode.works = true) : s.sup.latched = [] := by
  obtain ⟨none, -⟩ := hs.latch
  refine none ?_
  rw [effectiveMode_of_ne_reduced (Mode.ne_reduced_of_works hw)]
  exact hw

/-! ### An invalid reading -/

/-- A channel out of a stroke or a retraction with its valves shut (R82). -/
theorem shut_of_rest {r : SetupRecord} {now : Nat} {d : Channel} (h : ChannelValves r now d) (hr : d.state = .rest) :
    StandsShut .rest d := by
  obtain ⟨-, popen, dopen, -, -, deferred, timer, -⟩ := h
  have press : d.pressureOpen = false := by
    rw [← Bool.not_eq_true]
    exact fun k => absurd (hr.symm.trans (popen k).1) nofun
  have dump : d.dumpOpen = false := by
    rw [← Bool.not_eq_true]
    exact fun k => absurd (hr.symm.trans (dopen k).1) nofun
  rw [press, dump, hr] at timer
  exact ⟨hr, press, dump, Option.not_isSome_iff_eq_none.mp (by rw [timer]; exact nofun),
    deferred (by rw [hr]; exact nofun) (by rw [hr]; exact nofun)⟩

/-- The channel of an invalid reading (R84). -/
abbrev misread (r : SetupRecord) (now : Nat) (reduced : Bool) (d : Channel) : Channel :=
  { d.actOnInvalid r now reduced with readingValid := false }

/-- No invalid reading leaves its channel in EXTEND, so a latch only cancels its pending start. -/
theorem misread_cut (r : SetupRecord) (now : Nat) (reduced : Bool) (d : Channel) :
    Channel.cut r now (misread r now reduced d) = { misread r now reduced d with startPending := false } := by
  refine if_neg ?_
  show (d.actOnInvalid r now reduced).state ≠ .extend
  unfold Channel.actOnInvalid
  split
  · split
    · split
      · rename_i h _ _
        exact fun k => absurd (h.symm.trans k) nofun
      · rw [(Channel.toRetract_begun r now true d).1]
        exact nofun
    · exact nofun
  · exact nofun
  · rename_i h
    exact fun k => absurd (h.symm.trans k) nofun
  · rename_i h
    exact fun k => absurd (h.symm.trans k) nofun
  · assumption

/-- An invalid reading keeps what the channel has read and climbed. -/
theorem misread_data (r : SetupRecord) (now : Nat) (reduced : Bool) (d : Channel) :
    (misread r now reduced d).x = d.x ∧ (misread r now reduced d).xPeak = d.xPeak
      ∧ (misread r now reduced d).climbed = d.climbed := by
  have acted : (d.actOnInvalid r now reduced).x = d.x ∧ (d.actOnInvalid r now reduced).xPeak = d.xPeak
      ∧ (d.actOnInvalid r now reduced).climbed = d.climbed := by
    unfold Channel.actOnInvalid
    split
    · split
      · split
        · exact ⟨rfl, rfl, rfl⟩
        · have data := Channel.sameData_toRetract (r := r) (now := now) (c := d) true
          exact ⟨data.x, data.peak, data.climbed⟩
      · have data := Channel.sameData_halt (now := now) (c := d) .fault
        exact ⟨data.x, data.peak, data.climbed⟩
    · have data := Channel.sameData_toHold (r := r) (now := now) (c := d)
      exact ⟨data.x, data.peak, data.climbed⟩
    · exact ⟨rfl, rfl, rfl⟩
    · exact ⟨rfl, rfl, rfl⟩
    · exact ⟨rfl, rfl, rfl⟩
  exact acted

theorem Channel.halt_shut (st : ChState) (now : Nat) (d : Channel) :
    StandsShut st (d.halt st now) ∧ (d.halt st now).startPending = false := by
  rw [Channel.halt_eq, Channel.stand_eq, Channel.shut_eq]
  exact ⟨⟨rfl, rfl, rfl, rfl, rfl⟩, rfl⟩

theorem misread_of_rest {r : SetupRecord} {now : Nat} {reduced : Bool} {d : Channel} (hr : d.state = .rest) :
    (d.homing ≠ .atCommit → StandsShut .fault (misread r now reduced d)
        ∧ (misread r now reduced d).startPending = false)
      ∧ (d.homing = .atCommit → reduced = true →
        misread r now reduced d = { d with homing := .none, readingValid := false })
      ∧ (d.homing = .atCommit → reduced = false → RetractionBegun r now true (misread r now reduced d)) := by
  have acts : d.actOnInvalid r now reduced = if d.homing = .atCommit then
      if reduced = true then { d with homing := .none } else d.toRetract r now true else d.halt .fault now := by
    rw [Channel.actOnInvalid, hr]
  refine ⟨fun h => ?_, fun h hm => ?_, fun h hm => ?_⟩
  · rw [misread, acts, if_neg h]
    exact Channel.halt_shut .fault now d
  · rw [misread, acts, if_pos h, if_pos hm]
  · rw [misread, acts, if_pos h, if_neg (by rw [hm]; exact nofun)]
    exact Channel.toRetract_begun r now true d

theorem misread_of_still {r : SetupRecord} {now : Nat} {reduced : Bool} {d : Channel} (hr : d.state ≠ .rest)
    (he : d.state ≠ .extend) (hh : d.state ≠ .hold) (ht : d.state ≠ .retract) :
    misread r now reduced d = { d with readingValid := false } := by
  have acts : d.actOnInvalid r now reduced = d := by
    unfold Channel.actOnInvalid
    split
    · exact absurd ‹_› hr
    · exact absurd ‹_› he
    · exact absurd ‹_› hh
    · exact absurd ‹_› ht
    · rfl
  rw [misread, acts]

/-- Settles O26: the channel by its own row, and the others by the latch of TRANSDUCER. -/
theorem invalidReadingLatches : Obligations.InvalidReadingLatches := by
  intro s ch reading hs hbad ha
  have none_ : transducerValue reading = none := by
    rcases hbad with rfl | ⟨v, rfl, out⟩
    · rfl
    · exact if_neg fun k => by simp only [Config.transducerTop] at k; omega
  let c := s.chan ch
  let g := misread s.setup s.now (s.ctl.mode == .reduced) c
  let u : State := { s with seq.chans := s.seq.chans.set ch g }
  let w := raiseCond (.transducer ch) u
  have block : exec (.transducerReading ch reading) s = finish s w := by
    refine congrArg (finish s) ((if_pos ha).trans ?_)
    unfold readChannel
    rw [none_]
    rfl
  have ready : Ready u := hs.ready.moved _
  have latching : u.latching (.transducer ch) = true := latching_of_class (transducer_class hs rfl ch) rfl
  obtain ⟨onward, -⟩ := ready.raise (.transducer ch)
  obtain ⟨entry, cut, uncut⟩ := raise_latching ready latching hs.none_of_works
  have uChan : ∀ x : Ch, u.chan x = if x = ch then g else s.chan x := fun x => PerChannel.get_set _ _ _ _
  have valves : ∀ x : Ch, ChannelValves s.setup s.now (s.chan x) := fun x => hs.valves x (Ch.mem_all x)
  have chosen : ∃ b, (settled s w).chan ch = { g with startPending := b }
      ∧ (b = false ∨ b = g.startPending)
      ∧ (s.isPresent (.transducer ch) = false ∧ s.isLatched (.transducer ch) = false → b = false) := by
    by_cases hn : s.isPresent (.transducer ch) = false ∧ s.isLatched (.transducer ch) = false
    · refine ⟨false, ?_, .inl rfl, fun _ => rfl⟩
      rw [settled_chan, State.chan, cut hn, PerChannel.get_map]
      show Channel.cut s.setup s.now (u.chan ch) = _
      rw [uChan, if_pos rfl]
      exact misread_cut _ _ _ _
    · refine ⟨g.startPending, ?_, .inr rfl, fun k => absurd k hn⟩
      rw [settled_chan, State.chan, uncut hn]
      exact (uChan ch).trans (if_pos rfl)
  obtain ⟨b, own, hb, cancelled⟩ := chosen
  obtain ⟨x, peak, climbed⟩ := misread_data s.setup s.now (s.ctl.mode == .reduced) c
  refine ⟨_, block, ?_, fun hp => ?_, ?_, ?_, ?_, ?_, ?_, ?_, fun hr hh => ?_, fun hr hh => ?_, fun he => ?_,
    fun he => ?_, fun he => ?_, fun he => ?_, fun he => ?_⟩
  · rw [settled_isPresent s w (c := .transducer ch) nofun, raiseCond_isPresent]
    simp
  · obtain ⟨latched, stopped⟩ := entry hp
    refine ⟨?_, fun works => ?_⟩
    · rw [State.isLatched, settled_sup]
      exact latched
    · rw [settled_ctl]
      exact stopped works
  · by_cases hn : s.isPresent (.transducer ch) = false ∧ s.isLatched (.transducer ch) = false
    · rw [if_pos hn]
      refine ⟨by rw [own, cancelled hn], fun other _ hne => ?_⟩
      have follows := cut_follows (valves other)
      have same : (settled s w).chan other = Channel.cut s.setup s.now (s.chan other) := by
        rw [settled_chan, State.chan, cut hn, PerChannel.get_map]
        exact congrArg (Channel.cut s.setup s.now) ((uChan other).trans (if_neg hne))
      rw [same]
      exact follows
    · rw [if_neg hn]
      intro other _ hne
      rw [settled_chan, State.chan, uncut hn]
      exact (uChan other).trans (if_neg hne)
  · exact blankFollows_settled (t := w) onward.aside.now onward.aside.setup (onward.blank ready.shape)
  · rw [own]; exact x
  · rw [own]; exact peak
  · rw [own]
  · rw [own]; exact climbed
  · obtain ⟨fault, -⟩ := misread_of_rest (r := s.setup) (now := s.now) (reduced := s.ctl.mode == .reduced) hr
    obtain ⟨shut, pending⟩ := fault hh
    rw [own]
    exact ⟨shut, hb.elim id fun k => k.trans pending⟩
  · obtain ⟨-, stays, begins⟩ := misread_of_rest (r := s.setup) (now := s.now) (reduced := s.ctl.mode == .reduced) hr
    rw [own]
    split
    · rename_i hm
      have same : g = _ := stays hh (beq_iff_eq.mpr hm)
      rw [same]
      exact shut_of_rest (valves ch) hr
    · rename_i hm
      exact begins hh (beq_eq_false_iff_ne.mpr hm)
  · have acts : g = { c.toHold s.setup s.now with blind := true, readingValid := false } := by
      show misread _ _ _ _ = _
      rw [misread, Channel.actOnInvalid, he]
    rw [own, acts, Channel.toHold_eq, Channel.shut_eq]
    exact ⟨rfl, rfl, rfl, rfl⟩
  · have acts : g = { c with blind := true, readingValid := false } := by
      show misread _ _ _ _ = _
      rw [misread, Channel.actOnInvalid, he]
    rw [own, acts]
    exact ⟨he, rfl, rfl⟩
  · have acts : g = { c with blind := true, readingValid := false } := by
      show misread _ _ _ _ = _
      rw [misread, Channel.actOnInvalid, he]
    rw [own, acts]
    exact ⟨he, rfl, rfl, rfl⟩
  · have acts : g = { c with readingValid := false } := misread_of_still (by rw [he]; exact nofun)
      (by rw [he]; exact nofun) (by rw [he]; exact nofun) (by rw [he]; exact nofun)
    rw [own, acts]
    exact he
  · have acts : g = { c with readingValid := false } := misread_of_still (by rw [he]; exact nofun)
      (by rw [he]; exact nofun) (by rw [he]; exact nofun) (by rw [he]; exact nofun)
    rw [own, acts]
    exact he

end

end Sys2Proof.Machine
end

section
/-! PROOFS. The ends of T_ext, T_ret and a blind retraction (R84, R90, R92, R98, R103, R186). -/

namespace Sys2Proof.Machine

-- In order, so that the proofs waiting on one another do not hold a stack each.
set_option Elab.async false

section
variable {s t u : State} {c : Cond}

/-- EXTEND TIMEOUT is of class WARN or latches; HOLD is no class of it (R206). -/
theorem extendTimeout_class (hs : Sound s) (hj : t.setup = s.setup) (ch : Ch) :
    t.classOf (.extendTimeout ch) = .warn
      ∨ t.classOf (.extendTimeout ch) = .latch ∨ t.classOf (.extendTimeout ch) = .trip := by
  have inRange := List.all_eq_true.mp hs.setup.inRange 74 (by decide)
  have code : t.classOf (.extendTimeout ch) = .ofCode (s.setup.item 75) := by rw [State.classOf, hj]; rfl
  obtain ⟨lo, hi⟩ := item_bounds hs.setup.inRange (i := 74) (by decide)
  have lo : 0 ≤ s.setup.item 75 := lo
  have hi : s.setup.item 75 ≤ 3 := hi
  have gap : s.setup.item 75 ≠ 1 := by
    simp only [itemInRange, Bool.and_eq_true, bne_iff_ne] at inRange
    exact fun k => inRange.2 (congrArg some k.symm)
  by_cases h : s.setup.item 75 = 0
  · refine .inl ?_
    rw [code, h]
    rfl
  · exact .inr (class_of_code code (by omega) hi)

/-- The open valve whose stroke timer runs (R82). -/
theorem pressureOpen_of_timer {r : SetupRecord} {now d : Nat} {x : Channel} (h : ChannelValves r now x)
    (ht : x.strokeTimer = some d) : (x.state = .extend → x.pressureOpen = true ∧ x.dumpOpen = false)
      ∧ (x.state = .retract → x.dumpOpen = true ∧ x.pressureOpen = false) := by
  obtain ⟨-, popen, dopen, -, -, -, timer, -⟩ := h
  rw [ht] at timer
  constructor
  · intro he
    have dump : x.dumpOpen = false := by
      rw [← Bool.not_eq_true]
      exact fun k => absurd (he.symm.trans (dopen k).1) nofun
    rw [dump, he] at timer
    exact ⟨by simpa using timer, dump⟩
  · intro he
    have press : x.pressureOpen = false := by
      rw [← Bool.not_eq_true]
      exact fun k => absurd (he.symm.trans (popen k).1) nofun
    rw [press, he] at timer
    exact ⟨by simpa using timer, press⟩

theorem cut_of_ne_extend {r : SetupRecord} {now : Nat} {x : Channel} (h : x.state ≠ .extend) :
    Channel.cut r now x = { x with startPending := false } := if_neg h

/-- The onset of EXTEND TIMEOUT by its class (R183, R184). -/
theorem extendTimeout_outcome (hs : Sound s) (ready : Ready u) {ch : Ch} (hj : u.setup = s.setup) (hsup : u.sup = s.sup)
    (hctl : u.ctl = s.ctl) :
    let w := raiseCond (.extendTimeout ch) u
    let latches : Prop := s.classOf (.extendTimeout ch) ≠ .warn ∧ s.isPresent (.extendTimeout ch) = false
      ∧ s.isLatched (.extendTimeout ch) = false
    (s.classOf (.extendTimeout ch) = .warn → w.ctl = s.ctl ∧ w.sup.latched = s.sup.latched)
      ∧ (s.classOf (.extendTimeout ch) ≠ .warn → s.isPresent (.extendTimeout ch) = false →
        w.isLatched (.extendTimeout ch) = true ∧ (s.ctl.mode.works = true → w.ctl.mode = .stopped))
      ∧ (latches → w.seq.chans = u.seq.chans.map (Channel.cut u.setup u.now))
      ∧ (¬latches → w.seq.chans = u.seq.chans) := by
  intro w latches
  have class_ : u.classOf (.extendTimeout ch) = s.classOf (.extendTimeout ch) := by
    rw [State.classOf, hj]
    rfl
  have present : u.isPresent (.extendTimeout ch) = s.isPresent (.extendTimeout ch) := by
    rw [State.isPresent, hsup]
    rfl
  have entry_ : u.isLatched (.extendTimeout ch) = s.isLatched (.extendTimeout ch) := by
    rw [State.isLatched, hsup]
    rfl
  rcases extendTimeout_class hs hj ch with hw | hl
  · have warns : s.classOf (.extendTimeout ch) = .warn := class_.symm.trans hw
    have dull : u.latching (.extendTimeout ch) = false := by rw [State.latching, hw]; rfl
    obtain ⟨alike, -⟩ := ready.poised.raise dull
    have still := ready.poised.holdFollowed_of_same (holdPresent_presentWith (s := u) (c := .extendTimeout ch)
      (by rw [hw]; exact nofun))
    rw [still] at alike
    exact ⟨fun _ => ⟨(SameBody.ctl alike.body).trans hctl, (SameBody.latched alike.body).trans (by rw [← hsup])⟩,
      fun k => absurd warns k, fun k => absurd warns k.1, fun _ => congrArg Sequencer.chans (SameBody.seq alike.body)⟩
  · have latching : s.classOf (.extendTimeout ch) ≠ .warn := by
      rw [← class_]
      rcases hl with k | k <;> rw [k] <;> exact nofun
    obtain ⟨entry, cut, uncut⟩ := raise_latching ready (latching_of_class hl rfl) (by rw [hctl, hsup]; exact hs.none_of_works)
    rw [present, hctl] at entry
    rw [present, entry_] at cut uncut
    exact ⟨fun k => absurd k latching, fun _ => entry, fun k => cut k.2, fun k => uncut fun k' => k ⟨latching, k'⟩⟩

theorem chan_of_cut {w : State} {r : SetupRecord} {n : Nat} (h : w.seq.chans = u.seq.chans.map (Channel.cut r n))
    (x : Ch) : w.chan x = Channel.cut r n (u.chan x) := by
  rw [State.chan, h, PerChannel.get_map]
  rfl

theorem chan_of_same {w : State} (h : w.seq.chans = u.seq.chans) (x : Ch) : w.chan x = u.chan x := by
  rw [State.chan, h]
  rfl

/-- A channel out of EXTEND after an onset that may have latched: its start may have been cancelled. -/
theorem chan_of_cut_or_same {w : State} {r : SetupRecord} {n : Nat} {x : Ch} (hx : (u.chan x).state ≠ .extend)
    (h : w.seq.chans = u.seq.chans.map (Channel.cut r n) ∨ w.seq.chans = u.seq.chans) :
    ∃ b, w.chan x = { u.chan x with startPending := b } ∧ (b = false ∨ b = (u.chan x).startPending) := by
  rcases h with h | h
  · exact ⟨false, (chan_of_cut h x).trans (cut_of_ne_extend hx), .inl rfl⟩
  · exact ⟨_, chan_of_same h x, .inr rfl⟩

/-- The channel at the end of its blind retraction (R84, R103). -/
def blindEnded (s : State) (ch : Ch) (now : Nat) : Channel :=
  if heldInFault s ch then (s.chan ch).halt .fault now
  else (s.chan ch).leaveFault s.setup now s.inhibitInput (s.ctl.mode == .reduced)

/-- FAULT where an entry holds the channel or its last reading was invalid, otherwise by that reading (R84, R103). -/
theorem blindEnd_spec {ch : Ch} {now : Nat} (dump : (s.chan ch).dumpOpen = true) (hi : s.inhibitInput = false)
    (hm : s.ctl.mode ≠ .reduced) :
    (blindEnded s ch now).climbed = (s.chan ch).climbed
      ∧ (if s.isLatched (.transducer ch) = true ∨ s.isLatched (.retractTimeout ch) = true
            ∨ (s.chan ch).readingValid = false then
          StandsShut .fault (blindEnded s ch now)
        else if s.setup.home < (s.chan ch).x.getD 0 then
          RetractionBegun s.setup now false (blindEnded s ch now) ∧ (blindEnded s ch now).dumpClosed = now
        else StandsShut .rest (blindEnded s ch now)) := by
  have halts : ∀ st : ChState, ((s.chan ch).halt st now).climbed = (s.chan ch).climbed := fun st =>
    Channel.halt_climbed st now _
  have held_iff : heldInFault s ch = true ↔ s.isLatched (.transducer ch) = true ∨ s.isLatched (.retractTimeout ch) = true :=
    Bool.or_eq_true_iff
  by_cases hh : heldInFault s ch = true
  · have ended : blindEnded s ch now = (s.chan ch).halt .fault now := if_pos hh
    have cond : s.isLatched (.transducer ch) = true ∨ s.isLatched (.retractTimeout ch) = true
        ∨ (s.chan ch).readingValid = false := (held_iff.mp hh).elim .inl fun k => .inr (.inl k)
    rw [ended, if_pos cond]
    exact ⟨halts _, (Channel.halt_shut .fault now _).1⟩
  · have ended : blindEnded s ch now = if (!(s.chan ch).readingValid) = true then (s.chan ch).halt .fault now
        else if (s.chan ch).aboveHome s.setup = true then ((s.chan ch).halt .fault now).toRetract s.setup now false
        else (s.chan ch).halt .rest now := by
      rw [blindEnded, if_neg hh, Channel.leaveFault, hi, if_neg nofun, beq_eq_false_iff_ne.mpr hm, if_neg nofun]
    rw [ended]
    by_cases hv : (s.chan ch).readingValid = false
    · rw [if_pos (by rw [hv]; rfl), if_pos (.inr (.inr hv))]
      exact ⟨halts _, (Channel.halt_shut .fault now _).1⟩
    · have free : ¬(s.isLatched (.transducer ch) = true ∨ s.isLatched (.retractTimeout ch) = true
          ∨ (s.chan ch).readingValid = false) := by
        rintro (k | k | k)
        · exact hh (held_iff.mpr (.inl k))
        · exact hh (held_iff.mpr (.inr k))
        · exact hv k
      rw [if_neg (by simpa using hv), if_neg free]
      by_cases ha : s.setup.home < (s.chan ch).x.getD 0
      · have above : (s.chan ch).aboveHome s.setup = true := decide_eq_true ha
        rw [if_pos above, if_pos ha]
        refine ⟨(Channel.toRetract_climbed _ _ _ _).trans (halts _), Channel.toRetract_begun _ _ _ _, ?_⟩
        have closed : (((s.chan ch).halt .fault now).shut now).dumpClosed = now := by
          rw [Channel.shut_eq, Channel.halt_eq, Channel.stand_eq, Channel.shut_eq, dump]
          rfl
        rw [Channel.toRetract_eq]
        dsimp only
        split <;> exact closed
      · have below : ¬ (s.chan ch).aboveHome s.setup = true := by simpa [Channel.aboveHome] using ha
        rw [if_neg below, if_neg ha]
        exact ⟨halts _, (Channel.halt_shut .rest now _).1⟩

/-- Settles O27: each end moves its channel, and the onset, where there is one, does the rest. -/
theorem strokeTimersEndMotion : Obligations.StrokeTimersEndMotion := by
  intro s ch d hs hd now c
  have own : ChannelValves s.setup s.now c := hs.valves ch (Ch.mem_all ch)
  have valves : ∀ x : Ch, ChannelValves s.setup now (s.chan x) := fun x =>
    valves_later (hs.valves x (Ch.mem_all x)) (Nat.le_max_left _ _)
  obtain ⟨extends_, retracts⟩ := pressureOpen_of_timer own hd
  refine ⟨fun he => ?_, fun he hb hp => ?_, fun he hb => ?_⟩
  · obtain ⟨press, dump⟩ := extends_ he
    let g := c.toHold s.setup now
    let u : State := { s with now := now, seq.chans := s.seq.chans.set ch g }
    let w := raiseCond (.extendTimeout ch) u
    have block : exec (.tExtExpiry ch) s = finish s w := by
      refine congrArg (finish s) ((if_pos ?_).trans ?_)
      · show ((s.chan ch).state == .extend && _) = true
        rw [hd, show (s.chan ch).state = .extend from he]
        rfl
      · show raiseCond _ (updateCh ch _ (expireAt (s.chan ch).strokeTimer s)) = w
        rw [hd]
        rfl
    have ready : Ready u := (hs.ready.later now).moved _
    obtain ⟨onward, -⟩ := ready.raise (.extendTimeout ch)
    have uChan : ∀ x : Ch, u.chan x = if x = ch then g else s.chan x := fun x => PerChannel.get_set _ _ _ _
    have held : g = { c with
        pressureOpen := false, pressureClosed := now, state := .hold, strokeTimer := some (now + s.setup.deadTime),
        deferred := none } := by
      show c.toHold s.setup now = _
      rw [Channel.toHold_eq, Channel.shut_eq, press, dump]
      rfl
    obtain ⟨warned, latched, cut, uncut⟩ := extendTimeout_outcome hs ready (ch := ch) rfl rfl rfl
    have own_ : u.chan ch = g := (uChan ch).trans (if_pos rfl)
    obtain ⟨b, mine, -⟩ := chan_of_cut_or_same (w := w) (x := ch) (by rw [own_, held]; exact nofun)
      ((em _).imp cut uncut)
    rw [own_, held] at mine
    have tChan : (settled s w).chan ch = w.chan ch := settled_chan s w ch
    refine ⟨_, block, (settled_now s w).trans onward.aside.now, ?_, ?_, ?_, ?_, ?_, ?_, ?_, fun k => ?_,
      fun k k' => ?_, fun other _ hne => ?_, blankFollows_settled (t := w) onward.aside.now onward.aside.setup
        (onward.blank ready.shape)⟩
    · rw [tChan, mine]
    · rw [tChan, mine]
    · rw [tChan, mine]
    · rw [tChan, mine]
    · rw [tChan, mine]
    · rw [tChan, mine]
    · rw [settled_isPresent_eq, raiseCond_isPresent, extendTimeoutOver, mine]
      simp
    · rw [settled_ctl, settled_sup]
      exact warned k
    · rw [settled_ctl, State.isLatched, settled_sup]
      exact latched k k'
    · have theirs : u.chan other = s.chan other := (uChan other).trans (if_neg hne)
      by_cases hn : s.classOf (.extendTimeout ch) ≠ .warn ∧ s.isPresent (.extendTimeout ch) = false
          ∧ s.isLatched (.extendTimeout ch) = false
      · rw [if_pos hn]
        have same : (settled s w).chan other = Channel.cut s.setup now (s.chan other) := by
          rw [settled_chan, ← theirs]
          exact chan_of_cut (cut hn) other
        rw [same]
        exact cut_follows (valves other)
      · rw [if_neg hn, settled_chan]
        exact (chan_of_same (uncut hn) other).trans theirs
  · obtain ⟨dump, press⟩ := retracts he
    let g := c.halt .fault now
    let u : State := { s with now := now, seq.chans := s.seq.chans.set ch g }
    let v := raiseCond (.retractTimeout ch) u
    let w : State := { v with sup.present := v.sup.present.filter (· != .retractTimeout ch) }
    have block : exec (.tRetExpiry ch) s = finish s w := by
      refine congrArg (finish s) ((if_pos ?_).trans ?_)
      · show ((s.chan ch).state == .retract && !(s.chan ch).blind && _) = true
        rw [hd, show (s.chan ch).state = .retract from he, show (s.chan ch).blind = false from hb]
        rfl
      · show lapseCond _ (raiseCond _ (updateCh ch _ (expireAt (s.chan ch).strokeTimer s))) = w
        rw [hd]
        refine lapseCond_of_ne_hold (classOf_ne_hold_of_class ?_)
        exact retractTimeout_class hs (aside_raiseCond (.retractTimeout ch) u).setup ch
    have ready : Ready u := (hs.ready.later now).moved _
    have class_ := retractTimeout_class hs (t := u) rfl ch
    obtain ⟨onward, -⟩ := ready.raise (.retractTimeout ch)
    obtain ⟨entry, cut, uncut⟩ := raise_latching ready (latching_of_class class_ rfl) hs.none_of_works
    obtain ⟨latched, stopped⟩ := entry hp
    have uChan : ∀ x : Ch, u.chan x = if x = ch then g else s.chan x := fun x => PerChannel.get_set _ _ _ _
    have own_ : u.chan ch = g := (uChan ch).trans (if_pos rfl)
    have faulted : g = { c with
        dumpOpen := false, dumpClosed := now, state := .fault, blind := false, homing := .none, strokeTimer := none,
        deferred := none, startPending := false } := by
      show c.halt .fault now = _
      rw [Channel.halt_eq, Channel.stand_eq, Channel.shut_eq, press, dump]
      rfl
    obtain ⟨b, mine, hb_⟩ := chan_of_cut_or_same (u := u) (w := v) (x := ch) (by rw [own_, faulted]; exact nofun)
      ((em _).imp cut uncut)
    have cancelled : b = false := hb_.elim id fun k => k.trans (by rw [own_, faulted])
    rw [own_, faulted, cancelled] at mine
    have tChan : ∀ x : Ch, (settled s w).chan x = v.chan x := settled_chan s w
    have drives : s.classOf (.retractTimeout ch) = .trip → v.sup.drive = true := by
      intro htrip
      have order : LatchesInOrder u := hs.latchesInOrder.same
      have committed : s.join.committed.isSome = true := by
        obtain ⟨active, -⟩ := hs.channels ch (Ch.mem_all ch)
        have on : (s.chan ch).isActive = true := by
          rw [Channel.isActive, show (s.chan ch).state = .retract from he]
          rfl
        rw [on] at active
        cases hc : s.join.committed with
        | none => rw [hc] at active; cases active
        | some r => rfl
      obtain ⟨⟨-, pulls, -⟩, -⟩ := latchesInOrder_iff.mp (inOrder_raiseCond order (c := .retractTimeout ch) nofun
        fun _ => committed)
      refine Eq.trans pulls (List.any_eq_true.mpr ⟨.retractTimeout ch, List.contains_iff_mem.mp latched, ?_⟩)
      rw [(aside_raiseCond (.retractTimeout ch) u).classOf]
      exact beq_iff_eq.mpr htrip
    refine ⟨_, block, (settled_now s w).trans onward.aside.now, ?_, ?_, ?_, ?_, ?_, ?_, fun works => ?_, fun k => ?_,
      fun other _ hne => ?_, blankFollows_settled (t := w) onward.aside.now onward.aside.setup
        (onward.blank ready.shape)⟩
    · rw [tChan, mine]
      exact ⟨rfl, press, rfl, rfl, rfl⟩
    · rw [tChan, mine]
    · rw [tChan, mine]
    · rw [tChan, mine]
    · rw [State.isLatched, settled_sup]
      exact latched
    · refine (settled_isPresent s w (c := .retractTimeout ch) nofun).trans ?_
      refine (isPresent_without (.retractTimeout ch) (.retractTimeout ch) v).trans ?_
      simp
    · rw [settled_ctl]
      exact stopped works
    · rw [settled_sup]
      exact drives k
    · have theirs : u.chan other = s.chan other := (uChan other).trans (if_neg hne)
      by_cases hn : s.isLatched (.retractTimeout ch) = false
      · rw [if_pos hn]
        have same : (settled s w).chan other = Channel.cut s.setup now (s.chan other) := by
          rw [tChan, ← theirs]
          exact chan_of_cut (cut ⟨hp, hn⟩) other
        rw [same]
        exact cut_follows (valves other)
      · rw [if_neg hn, tChan]
        exact (chan_of_same (uncut fun k => hn k.2) other).trans theirs
  · obtain ⟨dump, press⟩ := retracts he
    have input : s.inhibitInput = false := by
      obtain ⟨-, -, -, -, asserted, -⟩ := hs.channels ch (Ch.mem_all ch)
      rw [← Bool.not_eq_true]
      intro k
      rcases asserted k with h | h | h <;> exact absurd (he.symm.trans h) nofun
    have supplied : s.ctl.mode ≠ .reduced := by
      obtain ⟨-, -, -, resting, -⟩ := hs.channels ch (Ch.mem_all ch)
      intro k
      have moving := (resting k).1
      rw [Channel.moving, show (s.chan ch).state = .retract from he] at moving
      cases moving
    let g := blindEnded s ch now
    let u : State := { s with now := now, seq.chans := s.seq.chans.set ch g }
    have block : exec (.blindRetractionEnd ch) s = finish s u := by
      refine congrArg (finish s) ((if_pos ?_).trans ?_)
      · show ((s.chan ch).state == .retract && (s.chan ch).blind && _) = true
        rw [hd, show (s.chan ch).state = .retract from he, show (s.chan ch).blind = true from hb]
        rfl
      · rw [hd]
        let put (x : Channel) : State := { s with now := now, seq.chans := s.seq.chans.set ch x }
        by_cases hh : heldInFault s ch = true
        · exact (if_pos hh).trans (congrArg put (if_pos hh).symm)
        · exact (if_neg hh).trans (congrArg put (if_neg hh).symm)
    have uChan : ∀ x : Ch, (settled s u).chan x = if x = ch then g else s.chan x := fun x =>
      (settled_chan s u x).trans (PerChannel.get_set _ _ _ _)
    obtain ⟨climbed, ends⟩ := blindEnd_spec (s := s) (ch := ch) (now := now) dump input supplied
    refine ⟨_, block, settled_now s u, settled_ctl s u, ?_, settled_stack s u, ?_, ?_, fun other _ hne => ?_,
      blankFollows_settled (t := u) rfl rfl (blank_of_same rfl)⟩
    · rw [settled_sup]
    · rw [uChan, if_pos rfl]
      exact climbed
    · rw [uChan, if_pos rfl]
      exact ends
    · exact (uChan other).trans (if_neg hne)

end

end Sys2Proof.Machine
end

section
/-! PROOFS. A credit and what it hands on (R11, R56, R91, R93 to R95, R187, R188). -/

namespace Sys2Proof.Machine

-- In order, so that the proofs waiting on one another do not hold a stack each.
set_option Elab.async false

section
variable {s t u v : State} {c : Cond}

/-! ### The entry checks after a credit -/

/-- A station that differs in its height alone is poised where its entry checks hold. -/
theorem Poised.checked (h : Poised s) (hctl : v.ctl = s.ctl) (hfeed : v.feed = s.feed) (hsetup : v.setup = s.setup)
    (hsup : v.sup = s.sup) (hreq : v.line.setupRequest = s.line.setupRequest)
    (htop : v.ctl.mode.works = true → atTop v = false)
    (hwait : v.ctl.mode.climbs = true → v.ctl.pause.segment.isSome = true ∨ waitingSegment v = none) : Poised v := by
  have eff : v.effectiveMode = s.effectiveMode := effectiveMode_of_ctl hctl
  have allowed : feedAllowed v = feedAllowed s := by simp only [feedAllowed, hctl, hfeed]
  have hold : v.holdPresent = s.holdPresent := holdPresent_of_same (by rw [hsup]) hsetup (by rw [hsup])
  obtain ⟨steady, held⟩ := h
  refine ⟨⟨htop, hwait, ?_, ?_, ?_, ?_, ?_⟩, ?_⟩
  · rw [hfeed, allowed]; exact steady.gate
  · rw [hctl, hreq]; exact steady.taken
  · rw [eff, hctl]; exact steady.outside
  · rw [hctl]; exact steady.climbing
  · rw [hctl]; exact steady.paused
  · rw [hctl, eff, hold]; exact held

/-- A waiting segment joins, in PAUSED (R10, R11). -/
theorem Poised.waiting (h : Poised s) (hm : s.ctl.mode.climbs = true)
    (hctl : v.ctl = { s.ctl with mode := .paused, pause.segment := waitingSegment v })
    (hfeed : v.feed = s.feed) (hsetup : v.setup = s.setup)
    (hsup : v.sup = s.sup) (hreq : v.line.setupRequest ≠ .pending)
    (htop : atTop v = false) (hwait : (waitingSegment v).isSome = true) : Poised v := by
  obtain ⟨steady, held⟩ := h
  have mode : v.ctl.mode = .paused := by rw [hctl]
  have pause : v.ctl.pause = { s.ctl.pause with segment := waitingSegment v } := by rw [hctl]
  have works : s.ctl.mode.works = true := Mode.works_of_climbs hm
  have eff : v.effectiveMode = .paused := (effectiveMode_of_ne_reduced (by rw [mode]; exact nofun)).trans mode
  have eff' : s.effectiveMode = s.ctl.mode := effectiveMode_of_ne_reduced (Mode.ne_reduced_of_works works)
  have hold : v.holdPresent = s.holdPresent := holdPresent_of_same (by rw [hsup]) hsetup (by rw [hsup])
  have allowed : feedAllowed v = feedAllowed s := by
    have hold_ : v.ctl.feedHold = s.ctl.feedHold := by rw [hctl]
    unfold feedAllowed
    rw [hold_, hfeed, mode, works]
    rfl
  refine ⟨⟨fun _ => htop, fun _ => .inl ?_, ?_, fun _ => ⟨?_, hreq⟩, fun k => ?_, fun k => ?_, fun _ => ?_⟩, ?_⟩
  · rw [pause]; exact hwait
  · rw [hfeed, allowed]; exact steady.gate
  · rw [hctl]; exact (steady.taken (Mode.takesCommands_of_climbs hm)).1
  · rw [eff] at k; cases k
  · exact absurd (mode.symm.trans k) nofun
  · rw [pause, ← Bool.not_eq_true, PauseSet.isEmpty_iff]
    intro k
    have none_ : waitingSegment v = none := congrArg PauseSet.segment k
    rw [none_] at hwait
    cases hwait
  · rw [pause, eff, hold]
    show s.ctl.pause.faultHold = _
    rw [held, eff', hm]
    rfl

/-- The entry checks of a station that differs from a ready one in its height alone. -/
theorem creditChecks_spec (h : Ready s) (hctl : v.ctl = s.ctl) (hfeed : v.feed = s.feed) (hsetup : v.setup = s.setup)
    (hsup : v.sup = s.sup) (hreq : v.line.setupRequest = s.line.setupRequest) :
    Ready (creditChecks v) ∧ (creditChecks v).sup = v.sup
      ∧ (creditChecks v).seq.chans = v.seq.chans ∧ (creditChecks v).seq.height = v.seq.height
      ∧ (creditChecks v).seq.strokeCount = v.seq.strokeCount ∧ (creditChecks v).stack.layers = v.stack.layers
      ∧ (creditChecks v).stack.concreteTop = v.stack.concreteTop
      ∧ (creditChecks v).feed
        = (if v.ctl.mode.works = true ∧ atTop v = true then (feedWithdrawn v).feed else v.feed)
      ∧ (creditChecks v).ctl.mode = (if v.ctl.mode.works = true ∧ atTop v = true then .topped
          else if v.ctl.mode = .climbing ∧ (waitingSegment v).isSome = true then .paused else v.ctl.mode) := by
  have shape : GateShape v := by rw [GateShape, hfeed]; exact h.shape
  rcases creditChecks_cases v with ⟨hw, htop, e⟩ | ⟨hlow, e⟩
  · have topped : enterMode .topped v = feedWithdrawn (takeMode .topped .empty v) := by
      rw [enterMode_eq]
      exact rejudgeFeed_withdrawn (s := takeMode .topped .empty v) shape rfl _
    rw [if_pos ⟨hw, htop⟩, if_pos ⟨hw, htop⟩, e, topped]
    refine ⟨⟨Poised.of_idle ⟨nofun, nofun, fun k => absurd rfl k, fun _ => ⟨rfl, ?_⟩, fun _ => rfl, nofun, nofun⟩ rfl,
      rfl, nofun, rfl, rfl⟩, rfl, rfl, rfl, rfl, rfl, rfl, rfl, rfl⟩
    exact SetupSlot.leaveSetup_ne v.line.setupRequest
  · have no : ¬(v.ctl.mode.works = true ∧ atTop v = true) := by
      rintro ⟨k, k'⟩
      rcases hlow with q | q
      · exact absurd (q.symm.trans k) nofun
      · exact absurd (q.symm.trans k') nofun
    rw [if_neg no, if_neg no, e]
    have low : v.ctl.mode.works = true → atTop v = false := fun k => Bool.eq_false_iff.mpr fun k' => no ⟨k, k'⟩
    rcases segmentCheck_cases v with ⟨hc, hn, hwait, e⟩ | ⟨hq, e⟩
    · have works := Mode.works_of_climbs hc
      obtain ⟨hret, hpend⟩ := h.poised.steady.taken (by rw [← hctl]; exact Mode.takesCommands_of_climbs hc)
      let q : PauseSet := { v.ctl.pause with segment := waitingSegment v }
      have joined : addWaiting v v.ctl.pause = q := by rw [addWaiting, hn]; rfl
      have hc' : s.ctl.mode.climbs = true := by rw [← hctl]; exact hc
      rw [e]
      rcases addPause_cases (addWaiting v) v with ⟨hm, a⟩ | ⟨hm, a⟩ | ⟨k, -⟩
      · have settles : settle .paused (entryPause .paused { v with ctl.pause := q }) { v with ctl.pause := q }
            = (.paused, q) := by
          have entry : entryPause .paused { v with ctl.pause := q } = q := by simp [entryPause, hm, Mode.climbs]
          have top : atTop { v with ctl.pause := q } = false := low works
          have full : addWaiting { v with ctl.pause := q } q = q := by
            obtain ⟨k, hk⟩ := Option.isSome_iff_exists.mp hwait
            simp [addWaiting, q, hk]
          rw [entry, settle, top, full]
          show ((if q.isEmpty = true then Mode.paused else Mode.paused), q) = _
          rw [ite_self]
        have gate : ({ v with ctl.pause := q } : State).feed.state ≠ .idle → feedAllowed { v with ctl.pause := q } = true := by
          have allowed : feedAllowed { v with ctl.pause := q } = feedAllowed s := by
            show (v.ctl.mode.works && !v.ctl.feedHold && v.feed.probeValid) = _
            rw [hctl, hfeed]
            rfl
          rw [allowed]
          show v.feed.state ≠ .idle → _
          rw [hfeed]
          exact h.poised.steady.gate
        have entered : addPause (addWaiting v) v = takeMode .paused q { v with ctl.pause := q } := by
          rw [a, joined]
          exact enterMode_of_works (s := { v with ctl.pause := q }) works rfl nofun settles gate
        rw [entered, if_pos ⟨hm, hwait⟩]
        refine ⟨⟨h.poised.waiting hc' ?_ hfeed hsetup hsup ?_ (low works) hwait, shape⟩, rfl, rfl, rfl, rfl, rfl, rfl,
          rfl, rfl⟩
        · show ({ v.ctl with mode := .paused, pause := q, returnMode := none } : ModeCtl)
            = { s.ctl with mode := .paused, pause := { s.ctl.pause with segment := waitingSegment v } }
          rw [← hret, ← hctl]
        · exact SetupSlot.leaveSetup_ne v.line.setupRequest
      · have paused : v.ctl.mode = .paused := by
          rcases hm with k | ⟨k, -⟩
          · exact k
          · rw [k] at hc; cases hc
        have other : ¬(v.ctl.mode = .climbing ∧ (waitingSegment v).isSome = true) := by
          rw [paused]
          exact fun k => absurd k.1 nofun
        rw [a, joined, if_neg other]
        refine ⟨⟨h.poised.waiting hc' ?_ hfeed hsetup hsup ?_ (low works) hwait, shape⟩, rfl, rfl, rfl, rfl, rfl, rfl,
          rfl, rfl⟩
        · show ({ v.ctl with pause := q } : ModeCtl)
            = { s.ctl with mode := .paused, pause := { s.ctl.pause with segment := waitingSegment v } }
          rw [← paused, ← hctl]
        · show v.line.setupRequest ≠ _
          rw [hreq]
          exact hpend
      · rw [hc] at k; cases k
    · have other : ¬(v.ctl.mode = .climbing ∧ (waitingSegment v).isSome = true) := by
        rintro ⟨hm, k⟩
        rcases hq with q | q | q
        · rw [hm] at q; cases q
        · rw [hctl, h.poised.steady.climbing (by rw [← hctl]; exact hm)] at q
          exact q rfl
        · rw [q] at k; cases k
      rw [e, if_neg other]
      refine ⟨⟨h.poised.checked hctl hfeed hsetup hsup hreq low fun k => ?_, shape⟩, rfl, rfl, rfl, rfl, rfl, rfl, rfl, rfl⟩
      rcases hq with q | q | q
      · exact absurd (q.symm.trans k) nofun
      · exact .inl (Option.isSome_iff_ne_none.mpr q)
      · exact .inr q

/-! ### A credit -/

/-- The station once a credit's entry checks have been made. -/
abbrev creditChecked (ch : Ch) (s : State) : State := creditChecks (keepChange true (creditHeight ch s))

theorem aside_creditChecked (ch : Ch) (s : State) : Aside s (creditChecked ch s) :=
  ((aside_creditHeight ch s).trans (aside_keepChange true _)).trans (aside_creditChecks _)

/-- The height that a credit of channel `ch` works (R93, R94). -/
abbrev creditedHeight (ch : Ch) (s : State) : Nat :=
  meanOf (activeHeights (s.seq.chans.set ch ((s.chan ch).credited s.setup)))

theorem creditChecked_spec (h : Ready s) (ch : Ch) :
    let w := creditChecked ch s
    let top : Bool := decide (s.setup.programTop ≤ creditedHeight ch s)
    Ready w ∧ w.sup = s.sup ∧ w.seq.chans = s.seq.chans.set ch ((s.chan ch).credited s.setup)
      ∧ w.seq.height = creditedHeight ch s ∧ w.seq.strokeCount = s.seq.strokeCount
      ∧ w.stack.layers = removeBelow (creditedHeight ch s) s.stack.layers
      ∧ w.stack.concreteTop = s.stack.concreteTop
      ∧ w.feed = (if s.ctl.mode.works = true ∧ top = true then (feedWithdrawn s).feed else s.feed)
      ∧ (s.ctl.mode.works = true → top = true → w.ctl.mode = .topped)
      ∧ (top = false → w.ctl.mode.works = s.ctl.mode.works ∧ w.ctl.mode.climbs = s.ctl.mode.climbs
        ∧ (s.ctl.mode.climbs = false → w.ctl.mode = s.ctl.mode))
      ∧ (s.ctl.mode.works = false → w.ctl.mode = s.ctl.mode) := by
  intro w top
  obtain ⟨ready, sup, chans, height, strokes, layers, concrete, feed, mode⟩ :=
    creditChecks_spec h (v := keepChange true (creditHeight ch s)) rfl rfl rfl rfl rfl
  refine ⟨ready, sup, chans, height, strokes, layers, concrete, feed, fun k k' => ?_, fun k => ?_, fun k => ?_⟩
  · exact mode.trans (if_pos ⟨k, k'⟩)
  · have low : ¬((keepChange true (creditHeight ch s)).ctl.mode.works = true
        ∧ atTop (keepChange true (creditHeight ch s)) = true) := fun q => absurd (k.symm.trans q.2) nofun
    rw [if_neg low] at mode
    by_cases q : s.ctl.mode = .climbing ∧ (waitingSegment (keepChange true (creditHeight ch s))).isSome = true
    · have paused : w.ctl.mode = .paused := mode.trans (if_pos q)
      rw [paused, q.1]
      exact ⟨rfl, rfl, nofun⟩
    · have same : w.ctl.mode = s.ctl.mode := mode.trans (if_neg q)
      rw [same]
      exact ⟨rfl, rfl, fun _ => rfl⟩
  · have no : ¬((keepChange true (creditHeight ch s)).ctl.mode.works = true
        ∧ atTop (keepChange true (creditHeight ch s)) = true) := fun q => absurd (k.symm.trans q.1) nofun
    rw [if_neg no] at mode
    refine mode.trans (if_neg fun q => ?_)
    rw [show s.ctl.mode = .climbing from q.1] at k
    cases k

theorem credit_onward (h : Ready s) (ch : Ch) : Onward (creditChecked ch s) (credit ch s) ∧ Ready (credit ch s) := by
  obtain ⟨ready, -⟩ := creditChecked_spec h ch
  obtain ⟨one, tilted_⟩ := ready.judge .tilt (tilted (creditChecked ch s))
  obtain ⟨two, spread⟩ := tilted_.judge .jackSpread
    (decide ((judgeTilt (creditChecked ch s)).setup.spreadMax < jackSpread (judgeTilt (creditChecked ch s)).seq.chans))
  rw [credit_eq]
  exact ⟨one.trans two, spread⟩

/-- A latch's cut leaves the heights. -/
theorem activeHeights_cut (r : SetupRecord) (n : Nat) (q : PerChannel Channel) :
    activeHeights (q.map (Channel.cut r n)) = activeHeights q := by
  refine activeHeights_congr fun ch => ?_
  rw [PerChannel.get_map]
  refine ⟨?_, Channel.cut_climbed _ _ _⟩
  by_cases h : (q.get ch).state = .extend
  · have cut : Channel.cut r n (q.get ch) = ({ q.get ch with startPending := false } : Channel).toHold r n := if_pos h
    rw [cut, Channel.toHold_eq, Channel.isActive, Channel.isActive, h]
    rfl
  · rw [cut_of_ne_extend h]
    rfl

theorem Onward.activeHeights (h : Onward s t) : activeHeights t.seq.chans = activeHeights s.seq.chans := by
  rcases h.chans with ⟨-, k⟩ | ⟨-, k⟩ <;> rw [k]
  exact activeHeights_cut _ _ _

/-- The mean of the neighbours' heights aside, TILT is judged against each of them (R188). -/
theorem tilted_iff (h : s.heightSet = true) : tilted s = true ↔ ∃ x ∈ linkedHeights s,
    s.setup.tiltMax < s.seq.height - x ∨ s.setup.tiltMax < x - s.seq.height := by
  rw [tilted, h, Bool.true_and, linkedFloor, linkedCeiling]
  cases hmin : (linkedHeights s).min? with
  | none =>
    have empty : linkedHeights s = [] := List.min?_eq_none_iff.mp hmin
    simp [empty]
  | some lo =>
    cases hmax : (linkedHeights s).max? with
    | none =>
      have empty : linkedHeights s = [] := List.max?_eq_none_iff.mp hmax
      rw [empty] at hmin
      cases hmin
    | some hi =>
      obtain ⟨loMem, least⟩ := List.min?_eq_some_iff.mp hmin
      obtain ⟨hiMem, most⟩ := List.max?_eq_some_iff.mp hmax
      show (decide _ || decide _) = true ↔ _
      rw [Bool.or_eq_true, decide_eq_true_eq, decide_eq_true_eq]
      constructor
      · rintro (k | k)
        · exact ⟨lo, loMem, .inl k⟩
        · exact ⟨hi, hiMem, .inr k⟩
      · rintro ⟨x, hx, k | k⟩
        · have := least x hx
          exact .inl (by omega)
        · have := most x hx
          exact .inr (by omega)

theorem Aside.linkedHeights (h : Aside s t) : linkedHeights t = linkedHeights s := by
  have peer : peerOf t = peerOf s := funext fun n => by simp only [peerOf, h.peers]
  have near : available t = available s := funext fun n => by simp only [available, peer]
  simp only [Machine.linkedHeights, availablePeers, near, peer, h.peers]

/-- TILT and JACK SPREAD after a credit are as judged at its heights (R95, R187, R188). -/
theorem credit_presence (h : Ready s) (ch : Ch) (hset : s.heightSet = true) :
    ((credit ch s).isPresent .tilt = true ↔ ∃ x ∈ linkedHeights s,
        s.setup.tiltMax < creditedHeight ch s - x ∨ s.setup.tiltMax < x - creditedHeight ch s)
      ∧ ((credit ch s).isPresent .jackSpread
        = decide (s.setup.spreadMax < jackSpread (s.seq.chans.set ch ((s.chan ch).credited s.setup)))) := by
  obtain ⟨ready, -, chans, height, -⟩ := creditChecked_spec h ch
  have aside := aside_creditChecked ch s
  obtain ⟨one, -⟩ := ready.judge .tilt (tilted (creditChecked ch s))
  have setHere : (creditChecked ch s).heightSet = true := by
    rw [State.heightSet, aside.join_kind, aside.join_state]
    exact hset
  have linked : linkedHeights (creditChecked ch s) = linkedHeights s := aside.linkedHeights
  refine ⟨?_, ?_⟩
  · have shown : (credit ch s).isPresent .tilt = tilted (creditChecked ch s) := by
      rw [credit_eq]
      refine (judgeCond_isPresent_of_ne (c := .jackSpread) (d := .tilt) nofun _ _).trans ?_
      exact judgeCond_isPresent _ _ _
    rw [shown, tilted_iff setHere, linked, height, aside.setup]
  · rw [credit_eq]
    refine (judgeCond_isPresent _ _ _).trans ?_
    have setupE : (judgeTilt (creditChecked ch s)).setup = s.setup := one.aside.setup.trans aside.setup
    have heights : activeHeights (judgeTilt (creditChecked ch s)).seq.chans
        = activeHeights (s.seq.chans.set ch ((s.chan ch).credited s.setup)) := by
      rw [← chans]
      exact one.activeHeights
    rw [setupE, jackSpread, heights]
    rfl

end

end Sys2Proof.Machine
end

section
/-! PROOFS. The end of HOLD: its credit, TILT and JACK SPREAD, and the retraction (R91, R93 to R95, R187, R188). -/

namespace Sys2Proof.Machine

-- In order, so that the proofs waiting on one another do not hold a stack each.
set_option Elab.async false

section
variable {s t u v : State} {c : Cond}

/-! ### What onsets and ends leave of the arming -/

theorem latch_armed (c : Cond) (s : State) : (latch c s).sup.armed = s.sup.armed := by
  rcases latch_cases c s with ⟨-, e⟩ | ⟨-, e⟩ <;> rw [e]
  have still : (cutExtensions (latchMode (joinLatched c s))).sup.armed = s.sup.armed :=
    (congrArg Supervisor.armed (latchMode_sup (joinLatched c s)) :)
  rcases pullForTrip_cases c (cutExtensions (latchMode (joinLatched c s))) with ⟨-, k⟩ | ⟨-, k⟩ <;> rw [k] <;>
    exact still

theorem raiseCond_armed (c : Cond) (s : State) : (raiseCond c s).sup.armed = s.sup.armed := by
  rcases raiseCond_cases c s with ⟨-, e⟩ | ⟨-, -, e⟩ | ⟨-, -, e⟩ <;> rw [e]
  · rw [followHold_sup]
    exact latch_armed c _
  · rw [followHold_sup]

theorem judgeCond_armed (c : Cond) (b : Bool) (s : State) : (judgeCond c b s).sup.armed = s.sup.armed := by
  cases b
  · rcases lapseCond_cases c s with ⟨-, e⟩ | ⟨-, e⟩
    · exact (congrArg (fun x : State => x.sup.armed) e :)
    · exact (congrArg (fun x : State => x.sup.armed) e :).trans (by rw [followHold_sup])
  · exact raiseCond_armed c s

/-- A judgement that makes a latching condition present latches it (R184). -/
theorem judgeCond_enters {b : Bool} (hp : s.isPresent c = false) (hl : s.latching c = true)
    (ht : (judgeCond c b s).isPresent c = true) : (judgeCond c b s).isLatched c = true := by
  have raised : b = true := (judgeCond_isPresent c b s).symm.trans ht
  subst raised
  have latched : (raiseCond c s).sup.latched = _ := raiseCond_latched c s
  by_cases k : s.isLatched c = true
  · rw [if_neg fun q => absurd (q.2.2.symm.trans k) nofun] at latched
    exact (congrArg (fun l : List Cond => l.contains c) latched :).trans k
  · rw [if_pos ⟨hp, hl, Bool.eq_false_iff.mpr k⟩] at latched
    refine (congrArg (fun l : List Cond => l.contains c) latched :).trans ?_
    simp

/-! ### What a credit brings about -/

/-- TILT and JACK SPREAD that a credit makes present are latched by their class (R184). -/
theorem credit_enters (h : Ready s) (ch : Ch) (harm : s.sup.armed = true) {e : Cond}
    (he : e ∈ [Cond.tilt, Cond.jackSpread]) (hp : s.isPresent e = false) (ht : (credit ch s).isPresent e = true)
    (hc : s.classOf e = .latch ∨ s.classOf e = .trip) : (credit ch s).isLatched e = true := by
  obtain ⟨ready, sup, -⟩ := creditChecked_spec h ch
  have aside := aside_creditChecked ch s
  let v := creditChecked ch s
  have vArmed : v.sup.armed = true := (congrArg Supervisor.armed sup).trans harm
  have vAbsent : v.isPresent e = false := (congrArg (fun x : Supervisor => x.present.contains e) sup).trans hp
  obtain ⟨first, tilted_⟩ := ready.judge .tilt (tilted v)
  let w := judgeTilt v
  have steps : credit ch s = judgeCond .jackSpread (decide (w.setup.spreadMax < jackSpread w.seq.chans)) w :=
    credit_eq ch s
  have latching_ : ∀ x : State, Aside s x → x.sup.armed = true → x.latching e = true := by
    intro x a armed
    rw [State.latching, a.classOf e, State.effective, armed, Bool.or_true, Bool.and_true]
    rcases hc with k | k <;> rw [k] <;> rfl
  rcases List.mem_cons.mp he with rfl | he
  · have shown : w.isPresent .tilt = true := by
      rw [steps] at ht
      exact (judgeCond_isPresent_of_ne (c := .jackSpread) (d := .tilt) nofun _ w).symm.trans ht
    have entered : w.isLatched .tilt = true := judgeCond_enters vAbsent (latching_ v aside vArmed) shown
    rw [steps]
    exact (tilted_.judge .jackSpread _).1.grows .tilt entered
  · obtain rfl : e = .jackSpread := List.mem_singleton.mp he
    have absent : w.isPresent .jackSpread = false :=
      (judgeCond_isPresent_of_ne (c := .tilt) (d := .jackSpread) nofun _ v).trans vAbsent
    have armed : w.sup.armed = true := (judgeCond_armed .tilt (tilted v) v).trans vArmed
    rw [steps] at ht ⊢
    exact judgeCond_enters absent (latching_ w (aside.trans first.aside) armed) ht

/-- A credit leaves the feed as it was, or withdraws it where the station no longer feeds (R11, R110). -/
theorem credit_feed (h : Ready s) (ch : Ch) :
    (credit ch s).feed = s.feed ∨ (credit ch s).feed = (feedWithdrawn s).feed := by
  obtain ⟨ready, -, -, -, -, -, -, feed, topped, -⟩ := creditChecked_spec h ch
  obtain ⟨onward, -⟩ := credit_onward h ch
  have aside := aside_creditChecked ch s
  have after := onward.feed
  by_cases k : s.ctl.mode.works = true ∧ decide (s.setup.programTop ≤ creditedHeight ch s) = true
  · have mode := topped k.1 k.2
    have idle : (creditChecked ch s).ctl.mode.works = false := by rw [mode]; rfl
    rw [if_pos (by rw [onward.idle idle])] at after
    exact .inr (after.trans (feed.trans (if_pos k)))
  · have same : (creditChecked ch s).feed = s.feed := feed.trans (if_neg k)
    split at after
    · exact .inl (after.trans same)
    · exact .inr (after.trans (feedWithdrawn_feed_of_same same aside.now aside.setup))

/-- A feed that stands or was withdrawn. -/
theorem blank_of_kept (hg : GateShape s) (h : t.feed = s.feed ∨ t.feed = (feedWithdrawn s).feed) (hn : t.now = s.now)
    (hj : t.setup = s.setup) : t.feed.blankTimer
    = if s.feed.gate = true ∧ t.feed.gate = false then blankStart t else s.feed.blankTimer :=
  h.elim blank_of_same fun k => blank_of_withdrawn hg k hn hj

/-- The channels after a credit: one of them credited, and cut where the credit latched. -/
theorem credit_chans (h : Ready s) (ch : Ch) :
    let q := s.seq.chans.set ch ((s.chan ch).credited s.setup)
    (credit ch s).seq.chans = q.map (Channel.cut s.setup s.now) ∨ (credit ch s).seq.chans = q := by
  obtain ⟨-, -, chans, -⟩ := creditChecked_spec h ch
  obtain ⟨onward, -⟩ := credit_onward h ch
  have aside := aside_creditChecked ch s
  rcases onward.chans with ⟨-, k⟩ | ⟨-, k⟩
  · exact .inr (k.trans chans)
  · rw [chans, aside.setup, aside.now] at k
    exact .inl k

theorem credit_height (h : Ready s) (ch : Ch) : (credit ch s).seq.height = creditedHeight ch s := by
  obtain ⟨-, -, -, height, -⟩ := creditChecked_spec h ch
  exact (credit_onward h ch).1.height.trans height

/-- After a credit the height is the mean of the active channels (R94). -/
theorem credit_mean (h : Ready s) (ch : Ch) :
    (credit ch s).seq.height = meanOf (activeHeights (credit ch s).seq.chans) := by
  rw [credit_height h]
  rcases credit_chans h ch with k | k <;> rw [k]
  exact congrArg meanOf (activeHeights_cut _ _ _).symm

theorem credit_layers (h : Ready s) (ch : Ch) :
    (credit ch s).stack.layers = removeBelow (creditedHeight ch s) s.stack.layers
      ∧ (credit ch s).stack.concreteTop = s.stack.concreteTop
      ∧ (credit ch s).seq.strokeCount = s.seq.strokeCount := by
  obtain ⟨-, -, -, -, strokes, layers, top, -⟩ := creditChecked_spec h ch
  obtain ⟨onward, -⟩ := credit_onward h ch
  exact ⟨onward.layers.trans layers, onward.top.trans top, onward.strokes.trans strokes⟩

/-- Settles O28: the retraction begins, and the credit does the rest. -/
theorem holdEndCreditsStroke : Obligations.HoldEndCreditsStroke := by
  intro s ch d hs he hd now c
  let g := c.endHold s.setup now
  let u : State := { s with now := now, seq.chans := s.seq.chans.set ch g }
  let w := credit ch u
  have block : exec (.holdEnd ch) s = finish s w := by
    refine congrArg (finish s) ((if_pos ?_).trans ?_)
    · rw [he, hd]
      rfl
    · rw [hd]
      rfl
  have ready : Ready u := (hs.ready.later now).moved _
  have aside : Aside u w := aside_credit ch u
  have uChan : ∀ x : Ch, u.chan x = if x = ch then g else s.chan x := fun x => PerChannel.get_set _ _ _ _
  have own : u.chan ch = g := (uChan ch).trans (if_pos rfl)
  have data : c.SameData g := Channel.sameData_toRetract _
  have begun : RetractionBegun s.setup now (c.blind || !c.readingValid) g := Channel.toRetract_begun _ _ _ _
  have done : s.join.state = .done := by
    obtain ⟨-, -, before, -⟩ := hs.channels ch (Ch.mem_all ch)
    by_contra k
    exact (before k).2.1 he
  have set_ : u.heightSet = true := by
    rw [State.heightSet, Bool.or_eq_true]
    exact .inr (beq_iff_eq.mpr done)
  have armed : u.sup.armed = true := by
    obtain ⟨-, -, -, -, -, -, -, -, -, -, -, harmed, -⟩ := hs.join
    exact harmed.trans (beq_iff_eq.mpr done)
  let q := u.seq.chans.set ch ((u.chan ch).credited s.setup)
  have qChan : ∀ x : Ch, q.get x = if x = ch then g.credited s.setup else s.chan x := by
    intro x
    refine (PerChannel.get_set _ _ _ _).trans ?_
    by_cases k : x = ch
    · rw [if_pos k, if_pos k, own]
    · rw [if_neg k, if_neg k]
      exact (uChan x).trans (if_neg k)
  have chans := credit_chans ready ch
  have wClimbed : ∀ x : Ch, (w.chan x).climbed = (q.get x).climbed := by
    intro x
    rcases chans with k | k
    · exact (congrArg Channel.climbed ((congrArg (fun p : PerChannel Channel => p.get x) k).trans
        (PerChannel.get_map _ _ _)) :).trans (Channel.cut_climbed _ _ _)
    · exact (congrArg (fun p : PerChannel Channel => (p.get x).climbed) k :)
  have wOwn : ∃ b, w.chan ch = { g.credited s.setup with startPending := b } := by
    have mine : q.get ch = g.credited s.setup := (qChan ch).trans (if_pos rfl)
    have out : (q.get ch).state ≠ .extend := by
      rw [mine]
      exact fun k => absurd (begun.1.symm.trans k) nofun
    rcases chans with k | k
    · refine ⟨false, (congrArg (fun p : PerChannel Channel => p.get ch) k).trans ?_⟩
      rw [PerChannel.get_map]
      exact (cut_of_ne_extend out).trans (by rw [mine])
    · exact ⟨_, (congrArg (fun p : PerChannel Channel => p.get ch) k).trans mine⟩
  obtain ⟨b, wCh⟩ := wOwn
  have height : w.seq.height = creditedHeight ch u := credit_height ready ch
  obtain ⟨layers, top, strokes⟩ := credit_layers ready ch
  obtain ⟨tilts, spreads⟩ := credit_presence ready ch set_
  have active : ∀ x : Ch, (q.get x).isActive = (s.chan x).isActive := by
    intro x
    rw [qChan]
    split
    · rename_i k
      rw [k, Channel.isActive, Channel.isActive, he, show (g.credited s.setup).state = .retract from begun.1]
      rfl
    · rfl
  refine ⟨_, block, (settled_now s w).trans aside.now, ?_, fun other _ hne => ?_, ?_, ?_, ?_, ?_, ?_, ?_, ?_, ?_,
    fun works high => ?_, blankFollows_settled (t := w) aside.now aside.setup
      (blank_of_kept (s := u) ready.shape (credit_feed ready ch) aside.now aside.setup), ?_, ?_, fun e hm hp ht hc => ?_⟩
  · rw [settled_chan, wCh]
    have sum : (g.credited s.setup).climbed = min 2000000 (c.climbed + (c.xPeak - s.setup.jawLoss)) := by
      rw [Channel.credited_climbed, data.climbed, data.peak]
      rfl
    show ((g.credited s.setup).climbed : Int) = _
    rw [sum]
    omega
  · rw [settled_chan, wClimbed, qChan, if_neg hne]
  · rw [settled_seq]
    exact credit_mean ready ch
  · rw [settled_stack, settled_seq, layers, height]
    rfl
  · rw [settled_stack, top]
  · rw [settled_chan, wCh]
    exact begun
  · rw [settled_chan, wCh]
    exact data.target
  · rw [settled_seq, strokes]
  · rw [settled_cure]
    exact aside.cure
  · rw [settled_peers]
    exact aside.peers
  · obtain ⟨-, -, -, -, -, -, -, feed, topped, -⟩ := creditChecked_spec ready ch
    have high : decide (u.setup.programTop ≤ creditedHeight ch u) = true := by
      rw [← height]
      rw [settled_seq] at high
      exact decide_eq_true high
    have mode := topped works high
    obtain ⟨onward, -⟩ := credit_onward ready ch
    have idle : (creditChecked ch u).ctl.mode.works = false := by rw [mode]; rfl
    have stays := onward.idle idle
    have fed := onward.feed
    rw [if_pos (by rw [stays])] at fed
    refine ⟨by rw [settled_ctl]; exact stays.trans mode, ?_⟩
    rw [settled_feed]
    show w.feed.gate = false
    rw [show w.feed = _ from fed.trans (feed.trans (if_pos ⟨works, high⟩))]
    rfl
  · rw [settled_isPresent s w (c := .tilt) nofun, tilts, settled_seq, height]
    rfl
  · rw [settled_isPresent s w (c := .jackSpread) nofun, spreads, decide_eq_true_eq]
    refine lt_jackSpread_iff.trans ?_
    simp only [settled_chan, wClimbed]
    show (∃ a ∈ Ch.all, ∃ b ∈ Ch.all, (q.get a).isActive = true ∧ (q.get b).isActive = true ∧ _) ↔ _
    simp only [active]
    rfl
  · have shown : w.isPresent e = true := by
      refine (settled_isPresent s w ?_).symm.trans ht
      rintro x rfl
      simp at hm
    rw [State.isLatched, settled_sup]
    exact credit_enters ready ch armed hm hp shown hc

end

end Sys2Proof.Machine
end

section
/-! PROOFS. A new entry of the latched set, and the two supervisions that latch whatever the setup record says:
DUPLICATE NUMBER and HALT LOOP (R130, R184, R191 to R193). -/

namespace Sys2Proof.Machine

-- In order, so that the proofs waiting on one another do not hold a stack each.
set_option Elab.async false

section
variable {s t u v : State} {c : Cond}

/-- What a latch leaves of the return mode and of the REPORT slot (R15, R17, R110). -/
theorem latchMode_returnMode (hg : GateShape s) (hr : s.ctl.mode.works = true → s.ctl.returnMode = none) :
    (latchMode s).ctl.returnMode
        = (if s.ctl.mode = .reduced ∧ s.effectiveMode.works = true then some .stopped else s.ctl.returnMode)
      ∧ ((latchMode s).line.report = s.line.report
        ∨ (latchMode s).line.report = s.line.report.request .urgent) := by
  rcases latchMode_cases s with ⟨hw, e⟩ | ⟨hm, hw, e⟩ | ⟨hw, hr, e⟩
  · have stopped : enterMode .stopped s = feedWithdrawn (takeMode .stopped .empty s) := by
      rw [enterMode_eq]
      exact rejudgeFeed_withdrawn (s := takeMode .stopped .empty s) hg rfl _
    rw [e, stopped, if_neg fun k => Mode.ne_reduced_of_works hw k.1]
    refine ⟨(hr hw).symm, .inr ?_⟩
    show (if s.feed.state = .idle then s.line.report.request .urgent
      else (s.line.report.request .urgent).request .urgent) = _
    rw [ReportSlot.request_urgent_twice, ite_self]
  · rw [e, if_pos ⟨hm, (congrArg Mode.works (effectiveMode_of_reduced hm)).trans hw⟩]
    exact ⟨rfl, .inl rfl⟩
  · rw [e, if_neg]
    · exact ⟨rfl, .inl rfl⟩
    · rintro ⟨hm, k⟩
      rw [effectiveMode_of_reduced hm] at k
      exact hr.elim (fun q => q hm) fun q => absurd (q.symm.trans k) nofun

/-- The onset of a latching condition that is not latched yet, item by item (R98, R110, R184, R191). -/
theorem raise_latch_spec (h : Ready u) (hp : u.isPresent c = false) (hl : u.latching c = true)
    (hn : u.isLatched c = false) :
    let w := raiseCond c u
    w.sup = { u.sup with
        present := u.sup.present ++ [c]
        latched := u.sup.latched ++ [c]
        haltCause := if c = .haltLoop then some (if u.sup.drive then .self else .other) else u.sup.haltCause
        drive := u.classOf c == .trip || u.sup.drive }
      ∧ w.ctl.mode = (if u.ctl.mode.works = true then .stopped else u.ctl.mode)
      ∧ w.ctl.returnMode
        = (if u.ctl.mode = .reduced ∧ u.effectiveMode.works = true then some .stopped else u.ctl.returnMode)
      ∧ w.feed = (if u.ctl.mode.works = true then (feedWithdrawn u).feed else u.feed)
      ∧ (w.line.report = u.line.report ∨ w.line.report = u.line.report.request .urgent)
      ∧ w.seq.chans = u.seq.chans.map (Channel.cut u.setup u.now) := by
  intro w
  obtain ⟨poised, shape⟩ := h
  let v : State := { u with sup.present := u.sup.present ++ [c] }
  let j := joinLatched c v
  have raised : w = latch c v := raiseCond_of_latching poised.steady shape hp hl
  obtain ⟨-, -, feed, mode, -, -⟩ :=
    latchMode_spec (s := j) (poised.steady.same (t := j)) shape
  obtain ⟨returns, report⟩ := latchMode_returnMode (s := j) shape fun k =>
    (poised.steady.taken (Mode.takesCommands_of_works k)).1
  rcases latch_cases c v with ⟨k, -⟩ | ⟨-, e⟩
  · exact absurd (hn.symm.trans k) nofun
  have chans : w.seq.chans = u.seq.chans.map (Channel.cut u.setup u.now) := by
    rw [raised, latch_chans, show v.isLatched c = false from hn]
    rfl
  have same : (cutExtensions (latchMode j)).sup = j.sup := latchMode_sup j
  have class_ : (cutExtensions (latchMode j)).classOf c = u.classOf c :=
    ((aside_latchMode j).trans (aside_cutExtensions _)).classOf c
  rcases pullForTrip_cases c (cutExtensions (latchMode j)) with ⟨k, q⟩ | ⟨k, q⟩
  · rw [q] at e
    have whole : w = _ := raised.trans e
    have drives : (u.classOf c == .trip) = true := beq_iff_eq.mpr (class_.symm.trans k)
    refine ⟨?_, ?_, ?_, ?_, ?_, chans⟩
    · refine (congrArg State.sup whole).trans ?_
      show ({ (latchMode j).sup with drive := true } : Supervisor) = _
      rw [show (latchMode j).sup = j.sup from same, drives]
      rfl
    · exact (congrArg (fun x : State => x.ctl.mode) whole).trans mode
    · exact (congrArg (fun x : State => x.ctl.returnMode) whole).trans returns
    · exact (congrArg State.feed whole).trans feed
    · have same : w.line.report = (latchMode j).line.report := (congrArg (fun x : State => x.line.report) whole :)
      rw [same]
      exact report
  · rw [q] at e
    have whole : w = _ := raised.trans e
    have still : (u.classOf c == .trip) = false := beq_eq_false_iff_ne.mpr fun x => k (class_.trans x)
    refine ⟨?_, ?_, ?_, ?_, ?_, chans⟩
    · refine (congrArg State.sup whole).trans ?_
      show (latchMode j).sup = _
      rw [show (latchMode j).sup = j.sup from same, still]
      rfl
    · exact (congrArg (fun x : State => x.ctl.mode) whole).trans mode
    · exact (congrArg (fun x : State => x.ctl.returnMode) whole).trans returns
    · exact (congrArg State.feed whole).trans feed
    · have same : w.line.report = (latchMode j).line.report := (congrArg (fun x : State => x.line.report) whole :)
      rw [same]
      exact report

/-- The gate of a feed that was withdrawn where the station worked. -/
theorem gate_of_withdrawn {f : Feed} (h : f = if s.ctl.mode.works = true then (feedWithdrawn s).feed else s.feed) :
    f.gate = (s.feed.gate && !s.ctl.mode.works) := by
  rw [h]
  cases s.ctl.mode.works with
  | true => exact (Bool.and_false _).symm
  | false => exact (Bool.and_true _).symm

/-- A command whose blocks change the fault set, and request at most an urgent report, requests one (R197). -/
theorem settled_urgent (hf : faultView (endExtendTimeouts t) ≠ faultView s)
    (h : t.line.report = s.line.report ∨ t.line.report = s.line.report.request .urgent) :
    (settled s t).line.report = s.line.report.request .urgent := by
  rw [settled_report, if_neg hf]
  rcases h with h | h <;> rw [h]
  exact ReportSlot.request_urgent_twice _

/-- The fault set is another one where the latched set is another one. -/
theorem faultView_ne_of_latched (h : t.isLatched c = true) (h' : s.isLatched c = false) (hc : c ∈ Cond.all) :
    faultView (endExtendTimeouts t) ≠ faultView s := by
  intro k
  have same : Cond.all.filter t.isLatched = Cond.all.filter s.isLatched := congrArg FaultView.latched k
  have mem : c ∈ Cond.all.filter t.isLatched := List.mem_filter.mpr ⟨hc, h⟩
  rw [same, List.mem_filter] at mem
  exact absurd (h'.symm.trans mem.2) nofun

/-- Settles O38: DUPLICATE NUMBER is of class TRIP whatever the record says, and its onset latches. -/
theorem ownNumberTrips : Obligations.OwnNumberTrips := by
  intro s sender payload hs hn h0
  let u : State := { s with peers := { s.peers with dupMiss := 0, dupHeard := true } }
  let w := raiseCond .duplicateNumber u
  have block : exec (.report sender payload) s = finish s w := congrArg (finish s) (if_pos ⟨h0, hn⟩)
  have ready : Ready u := ⟨hs.poised.refed (t := u) hs.poised.steady.gate, hs.gate.shape⟩
  have latching : u.latching .duplicateNumber = true := rfl
  obtain ⟨onward, -⟩ := ready.raise .duplicateNumber
  refine ⟨_, block, (settled_peers s w).trans onward.aside.peers, ?_, fun hp => ?_, fun hp hl => ?_⟩
  · refine (settled_isPresent s w (c := .duplicateNumber) nofun).trans ?_
    exact (raiseCond_isPresent .duplicateNumber .duplicateNumber u).trans (by simp)
  · have same : w = u := by
      rcases raiseCond_cases .duplicateNumber u with ⟨-, e⟩ | ⟨k, -⟩ | ⟨k, -⟩
      · exact e
      · exact absurd (hp.symm.trans k) nofun
      · exact absurd (hp.symm.trans k) nofun
    rw [same]
    obtain ⟨body, -, -, report⟩ := settled_calm hs (t := u) rfl fun _ k => k
    exact ⟨body, report.trans (if_pos rfl)⟩
  · obtain ⟨sup, mode, -, feed, report, chans⟩ := raise_latch_spec ready hp latching hl
    have entered : w.isLatched .duplicateNumber = true := by
      rw [State.isLatched, sup]
      simp
    refine ⟨?_, ?_, ?_, ?_, ?_, ?_, ?_, ?_, ?_, fun ch hch => ?_⟩
    · rw [settled_sup]
      exact congrArg Supervisor.latched sup
    · rw [settled_sup]
      exact congrArg Supervisor.drive sup
    · rw [settled_ctl]
      exact mode
    · exact settled_urgent (faultView_ne_of_latched entered hl (by decide)) report
    · exact (settled_now s w).trans onward.aside.now
    · exact (settled_cure s w).trans onward.aside.cure
    · rw [settled_seq]
      exact onward.height
    · rw [settled_stack]
      exact onward.layers
    · rw [settled_feed]
      exact gate_of_withdrawn (s := u) (f := w.feed) feed
    · rw [settled_chan, chan_of_cut chans]
      exact cut_follows (hs.valves ch hch)

/-! ### The halt loop -/

/-- The feed at the close of a command that moves no channel. -/
theorem settled_feed_of_chans (h : t.seq.chans = s.seq.chans) : (settled s t).feed = t.feed := by
  rw [settled_feed, anyMoving_of_chans h, Bool.and_not_self]
  rfl

/-- The end of HALT LOOP alone (R192). -/
theorem lapseHalt_eq : lapseCond .haltLoop s = { s with sup.present := s.sup.present.filter (· != .haltLoop) } :=
  lapseCond_of_ne_hold nofun

/-! ### The close of a CLEAR -/

/-- In STOPPED nothing is planned, and no feed goes on (R22, R85, R110). -/
structure Stands (s : State) : Prop where
  steady : Steady s
  shape : GateShape s
  blank : s.ctl.mode = .stopped → s.plan.last = .blank
  timer : s.ctl.mode = .stopped → s.seq.cycleTimer = none
  held : s.ctl.mode = .stopped → s.seq.expiryHeld = false

theorem Sound.stands (hs : Sound s) : Stands s := by
  obtain ⟨blank, -, -, -, -, -, -, timer, held⟩ := hs.plan
  have climbs : s.ctl.mode = .stopped → s.ctl.mode.climbs = false := fun k => by rw [k]; rfl
  refine ⟨hs.steady, hs.gate.shape, fun k => blank (climbs k), fun k => ?_, fun k => ?_⟩
  · rw [climbs k] at timer
    exact Option.not_isSome_iff_eq_none.mp (by rw [timer]; exact nofun)
  · rw [← Bool.not_eq_true]
    exact fun q => absurd ((climbs k).symm.trans (held q)) nofun

/-- Marks of the supervisor and channels moved, and nothing else. -/
theorem Stands.moved (h : Stands s) (q : PerChannel Channel) (p : Supervisor) :
    Stands { s with seq.chans := q, sup := p } :=
  ⟨h.steady.same (t := { s with seq.chans := q, sup := p }), h.shape, h.blank, h.timer, h.held⟩

/-- A feed that may go on as soon as the station stands again (R112). -/
theorem askIfShort_spec (s : State) :
    (askIfShort s).ctl = s.ctl ∧ (askIfShort s).seq = s.seq ∧ (askIfShort s).stack = s.stack
      ∧ (askIfShort s).plan = s.plan ∧ (askIfShort s).sup = s.sup ∧ (askIfShort s).feed.gate = s.feed.gate
      ∧ (askIfShort s).feed.depth = s.feed.depth
      ∧ ((askIfShort s).line.report = s.line.report
        ∨ (askIfShort s).line.report = s.line.report.request .urgent) := by
  rcases askIfShort_cases s with ⟨-, -, -, e⟩ | ⟨-, e⟩ <;> rw [e]
  · exact ⟨rfl, rfl, rfl, rfl, rfl, rfl, rfl, .inr rfl⟩
  · exact ⟨rfl, rfl, rfl, rfl, rfl, rfl, rfl, .inl rfl⟩

/-- The entry to STANDING out of STOPPED, checked against the program top (R11, R16). -/
theorem enterMode_standing_of_stopped (h : Stands s) (hm : s.ctl.mode = .stopped) :
    let w := enterMode .standing s
    w.ctl = { s.ctl with mode := if atTop s = true then .topped else .standing } ∧ w.seq = s.seq ∧ w.stack = s.stack
      ∧ w.plan = s.plan ∧ w.sup = s.sup ∧ w.feed.gate = s.feed.gate ∧ w.feed.depth = s.feed.depth
      ∧ w.line.report = s.line.report.request .urgent := by
  obtain ⟨hret, -⟩ := h.steady.taken (by rw [hm]; rfl)
  have empty : s.ctl.pause = .empty := h.steady.outside (by
    rw [effectiveMode_of_ne_reduced (by rw [hm]; exact nofun), hm]
    rfl)
  let n : Mode := if atTop s = true then .topped else .standing
  have settles : settle .standing (entryPause .standing s) s = (n, .empty) := by
    show (if (true && atTop s) = true then _ else _) = _
    rw [Bool.true_and]
    by_cases k : atTop s = true
    · rw [if_pos k, show n = .topped from if_pos k]
    · rw [if_neg k, show n = .standing from if_neg k]
      rfl
  have dull : n.climbs = false := by
    show (if atTop s = true then Mode.topped else Mode.standing).climbs = false
    split <;> rfl
  let v := takeMode n .empty s
  have ctl : v.ctl = { s.ctl with mode := n } := by
    show ({ s.ctl with mode := n, pause := .empty, returnMode := none } : ModeCtl) = _
    rw [← hret, ← empty]
  have seq : v.seq = s.seq := by
    show ({ s.seq with cycleTimer := if n.climbs = true then _ else none, expiryHeld := n.climbs && _ && _ } : Sequencer) = _
    rw [if_neg (by rw [dull]; exact nofun), dull, ← h.timer hm]
    show ({ s.seq with expiryHeld := false } : Sequencer) = _
    rw [← h.held hm]
  have plan : v.plan = s.plan := by
    show ({ s.plan with last := if n.climbs = true then _ else .blank } : Planner) = _
    rw [if_neg (by rw [dull]; exact nofun), ← h.blank hm]
  have fed : s.feed.state = .idle := by
    by_contra k
    have allowed := h.steady.gate k
    rw [feedAllowed, hm] at allowed
    cases allowed
  have entered : enterMode .standing s = rejudgeFeed (feedAllowed s) v := by
    rw [enterMode_eq, settles]
    rfl
  intro w
  have report : v.line.report = s.line.report.request .urgent := rfl
  rcases rejudgeFeed_cases (feedAllowed s) v with ⟨-, -, e⟩ | ⟨-, -, e⟩ | ⟨-, -, e⟩ | ⟨-, k, -⟩ | ⟨-, k, -⟩
  · rw [show w = v from entered.trans e]
    exact ⟨ctl, seq, rfl, plan, rfl, rfl, rfl, rfl⟩
  · obtain ⟨actl, aseq, astack, aplan, asup, agate, adepth, areport⟩ := askIfShort_spec v
    rw [show w = askIfShort v from entered.trans e]
    refine ⟨actl.trans ctl, aseq.trans seq, astack, aplan.trans plan, asup, agate, adepth, ?_⟩
    rcases areport with k | k
    · exact k
    · exact k.trans (ReportSlot.request_urgent_twice _)
  · rw [show w = v from entered.trans e]
    exact ⟨ctl, seq, rfl, plan, rfl, rfl, rfl, rfl⟩
  · exact absurd (fed.symm.trans k) nofun
  · exact absurd (fed.symm.trans k) nofun

/-- Steps 6 and 7 of a CLEAR (R16, R190). -/
theorem closeClear_spec (b : State) (h : Stands s) :
    let w := closeClear b s
    let emptied : Prop := b.noneLatched = false ∧ s.noneLatched = true ∧ s.ctl.mode = .stopped
    Aside s w ∧ w.ctl = { s.ctl with
        mode := if b.noneLatched = false ∧ s.noneLatched = true ∧ s.ctl.mode = .stopped then
          (if atTop s = true then .topped else .standing) else s.ctl.mode }
      ∧ w.seq = s.seq ∧ w.stack = s.stack ∧ w.plan = s.plan ∧ w.sup = s.sup ∧ w.feed.gate = s.feed.gate
      ∧ w.feed.depth = s.feed.depth
      ∧ (w.line.report = s.line.report ∨ w.line.report = s.line.report.request .urgent)
      ∧ (¬ emptied → SameBody w s ∧ w.line.report = s.line.report) := by
  intro w emptied
  by_cases k : emptied
  · have followed : latchedEmptied b s = enterMode .standing s := if_pos k
    obtain ⟨ctl, seq, stack, plan, sup, gate, depth, report⟩ := enterMode_standing_of_stopped h k.2.2
    have closed : w = keepChange (s.sup.latched != b.sup.latched) (enterMode .standing s) :=
      congrArg (keepChange _) followed
    have k' : b.noneLatched = false ∧ s.noneLatched = true ∧ s.ctl.mode = .stopped := k
    rw [closed, if_pos k']
    refine ⟨(aside_enterMode _ _).trans (aside_keepChange _ _), ?_, ?_, ?_, ?_, ?_, ?_, ?_, .inr ?_,
      fun q => absurd k q⟩
    · rw [keepChange_ctl, ctl]
    · rw [keepChange_seq, seq]
    · rw [keepChange_stack, stack]
    · rw [keepChange_plan, plan]
    · rw [keepChange_sup, sup]
    · rw [keepChange_feed, gate]
    · rw [keepChange_feed, depth]
    · rw [keepChange_line, report]
  · have followed : latchedEmptied b s = s := if_neg k
    have closed : w = keepChange (s.sup.latched != b.sup.latched) s := congrArg (keepChange _) followed
    have k' : ¬(b.noneLatched = false ∧ s.noneLatched = true ∧ s.ctl.mode = .stopped) := k
    rw [closed, if_neg k']
    exact ⟨aside_keepChange _ _, rfl, rfl, rfl, rfl, rfl, rfl, rfl, .inl rfl, fun _ => ⟨rfl, rfl⟩⟩

end

end Sys2Proof.Machine
end

section
/-! PROOFS. The halt loop sensed asserted and released, and the clear pending timer (R192, R193). -/

namespace Sys2Proof.Machine

-- In order, so that the proofs waiting on one another do not hold a stack each.
set_option Elab.async false

section
variable {s t u v : State} {c : Cond}

/-- Other marks of the supervisor, where those of the HOLD-class conditions stand. -/
theorem Ready.marked (h : Ready s) (p : Supervisor) (hp : p.present = s.sup.present) (ha : p.armed = s.sup.armed) :
    Ready { s with sup := p } := by
  have hold : ({ s with sup := p } : State).holdPresent = s.holdPresent :=
    holdPresent_of_same (t := { s with sup := p }) hp rfl ha
  refine ⟨⟨h.poised.steady.same (t := { s with sup := p }), ?_⟩, h.shape⟩
  rw [hold]
  exact h.poised.held

/-- The onset of a latching condition whose entry is latched already. -/
theorem raise_of_latched (h : Ready u) (hp : u.isPresent c = false) (hl : u.latching c = true)
    (hn : u.isLatched c = true) : raiseCond c u = { u with sup.present := u.sup.present ++ [c] } := by
  obtain ⟨poised, shape⟩ := h
  rw [raiseCond_of_latching poised.steady shape hp hl]
  rcases latch_cases c { u with sup.present := u.sup.present ++ [c] } with ⟨-, e⟩ | ⟨k, -⟩
  · exact e
  · exact absurd (hn.symm.trans k) nofun

/-- Settles O58: HALT LOOP is of class LATCH whatever the record says; its end holds no station, and a release under a
pending clear closes as a CLEAR does. -/
theorem haltLoopSensed : Obligations.HaltLoopSensed := by
  intro s d hs
  obtain ⟨present, latched, -, -, pending⟩ := hs.halt
  refine ⟨fun hl => ?_, fun hl => ?_, fun hd => ?_⟩
  · let u : State := { s with sup.loopSensed := true }
    let w := raiseCond .haltLoop u
    have block : exec .haltLoopSensedAsserted s = finish s w := congrArg (finish s) (if_neg (by rw [hl]; exact nofun))
    have ready : Ready u := hs.ready.marked { s.sup with loopSensed := true } rfl rfl
    have absent : u.isPresent .haltLoop = false := present.trans hl
    have latching : u.latching .haltLoop = true := rfl
    obtain ⟨onward, -⟩ := ready.raise .haltLoop
    obtain ⟨entry, -, -⟩ := raise_latching ready latching hs.none_of_works
    have sups : w.sup.loopSensed = true ∧ w.sup.drive = s.sup.drive ∧ w.sup.clearPending = s.sup.clearPending := by
      by_cases k : u.isLatched .haltLoop = true
      · rw [show w = _ from raise_of_latched ready absent latching k]
        exact ⟨rfl, rfl, rfl⟩
      · obtain ⟨sup, -⟩ := raise_latch_spec ready absent latching (Bool.eq_false_iff.mpr k)
        exact ⟨(congrArg Supervisor.loopSensed sup :), (congrArg Supervisor.drive sup :),
          (congrArg Supervisor.clearPending sup :)⟩
    obtain ⟨sensed, drive, mark⟩ := sups
    refine ⟨_, block, ?_, ?_, ?_, ?_, ?_, ?_, ?_, ?_, ?_, ?_, fun k => ?_, fun k => ?_⟩
    · rw [settled_sup]; exact sensed
    · refine (settled_isPresent s w (c := .haltLoop) nofun).trans ?_
      exact (raiseCond_isPresent .haltLoop .haltLoop u).trans (by simp)
    · rw [State.isLatched, settled_sup]; exact (entry absent).1
    · rw [settled_sup]; exact drive
    · rw [settled_sup]; exact mark
    · exact (settled_now s w).trans onward.aside.now
    · exact (settled_cure s w).trans onward.aside.cure
    · exact (settled_peers s w).trans onward.aside.peers
    · rw [settled_seq]; exact onward.height
    · rw [settled_stack]; exact onward.layers
    · have same : w = _ := raise_of_latched ready absent latching k
      rw [same]
      exact ⟨by rw [settled_sup], by rw [settled_ctl], by rw [settled_seq], settled_feed_of_chans rfl⟩
    · obtain ⟨sup, mode, returns, feed, report, chans⟩ := raise_latch_spec ready absent latching k
      refine ⟨?_, ?_, ?_, ?_, fun hm => ?_, fun ch hch => ?_⟩
      · rw [settled_sup]
        exact congrArg Supervisor.haltCause sup
      · rw [settled_ctl]; exact mode
      · exact settled_urgent (faultView_ne_of_latched (entry absent).1 k (Cond.mem_all _)) report
      · rw [settled_feed]
        exact gate_of_withdrawn (s := u) (f := w.feed) feed
      · rw [settled_ctl]
        have hm' : u.ctl.mode = .reduced := hm
        refine returns.trans ?_
        exact if_congr (and_iff_right hm') rfl rfl
      · rw [settled_chan, chan_of_cut chans]
        exact cut_follows (hs.valves ch hch)
  · let t : State := { s with
      sup.loopSensed := false, sup.present := s.sup.present.filter (· != .haltLoop) }
    have ends : lapseCond .haltLoop { s with sup.loopSensed := false } = t := lapseHalt_eq
    have shrinks : ∀ ch : Ch, t.isPresent (.extendTimeout ch) = true → s.isPresent (.extendTimeout ch) = true := by
      intro ch k
      simp only [State.isPresent, List.contains_iff_mem] at k ⊢
      exact (List.mem_filter.mp k).1
    by_cases hp : s.sup.clearPending = true
    · let j := unlatchHalt t
      let w := closeClear t j
      have block : exec .haltLoopSensedReleased s = finish s w := by
        refine congrArg (finish s) ((if_pos hl).trans ?_)
        rw [ends]
        exact if_pos hp
      have stands : Stands j := hs.stands.moved s.seq.chans j.sup
      obtain ⟨aside, ctl, seq, stack, -, sup, -⟩ := closeClear_spec t stands
      have entry : s.isLatched .haltLoop = true := pending hp
      have before : t.noneLatched = false := by
        rw [← Bool.not_eq_true]
        intro k
        rw [State.isLatched, show s.sup.latched = [] from List.isEmpty_iff.mp k] at entry
        cases entry
      refine ⟨_, block, fun k => absurd (hp.symm.trans k) nofun, fun _ => ⟨?_, ?_, ?_, ?_, ?_, ?_, ?_, ?_, ?_, ?_, ?_⟩⟩
      · refine (settled_isPresent s w (c := .haltLoop) nofun).trans ?_
        rw [State.isPresent, sup]
        show ((s.sup.present.filter (· != .haltLoop)).contains .haltLoop) = false
        simp
      · rw [settled_sup, sup]; rfl
      · rw [settled_sup, sup]; rfl
      · rw [settled_sup, sup]; rfl
      · rw [settled_sup, sup]; rfl
      · rw [settled_sup, sup]; rfl
      · rw [settled_seq, seq]; rfl
      · rw [settled_stack, stack]; rfl
      · rw [settled_cure]; exact aside.cure
      · rw [settled_peers]; exact aside.peers
      · rw [settled_ctl, ctl, settled_sup, sup]
        have emptied : (t.noneLatched = false ∧ j.noneLatched = true ∧ j.ctl.mode = .stopped)
            = (s.ctl.mode = .stopped ∧ j.sup.latched = []) :=
          propext ⟨fun q => ⟨q.2.2, List.isEmpty_iff.mp q.2.1⟩, fun q => ⟨before, List.isEmpty_iff.mpr q.2, q.1⟩⟩
        simp only [emptied]
        rfl
    · have hp := Bool.eq_false_iff.mpr hp
      have block : exec .haltLoopSensedReleased s = finish s t := by
        refine congrArg (finish s) ((if_pos hl).trans ?_)
        rw [ends]
        exact if_neg (by rw [show t.sup.clearPending = _ from hp]; exact nofun)
      obtain ⟨body, -⟩ := settled_calm hs (t := t) rfl shrinks
      exact ⟨_, block, fun _ => body, fun k => absurd (hp.symm.trans k) nofun⟩
  · let t : State := { s with now := max s.now d, sup.clearPending := false, sup.clearTimer := none }
    have block : exec .clearPendingTimerExpiry s = finish s t := by
      refine congrArg (finish s) ((if_pos ?_).trans ?_)
      · rw [hd]; rfl
      · rw [hd]; rfl
    obtain ⟨body, -⟩ := settled_calm hs (t := t) rfl fun _ k => k
    exact ⟨_, block, body⟩

end

end Sys2Proof.Machine
end

section
/-! PROOFS. CLEAR and the local clear (R16, R103, R187, R190, R191, R193). -/

namespace Sys2Proof.Machine

-- In order, so that the proofs waiting on one another do not hold a stack each.
set_option Elab.async false

section
variable {s t u v : State} {c : Cond}

/-! ### The steps of R190 -/

/-- Where the station neither climbs nor pauses, no change of the HOLD-class conditions moves its pause-cause set (R6,
R8, R17). -/
theorem followHold_of_outside (hc : s.effectiveMode.climbs = false) (hp : s.ctl.pause = .empty) (before : Bool) :
    followHold before s = s := by
  rcases followHold_cases before s with ⟨-, e⟩ | ⟨-, -, e⟩ | ⟨-, -, e⟩ <;> rw [e]
  · have same : ({ s.ctl.pause with faultHold := false } : PauseSet) = s.ctl.pause := by rw [hp]; rfl
    exact if_pos same
  · rcases addPause_cases (fun p => { p with faultHold := true }) s with ⟨k, -⟩ | ⟨k | ⟨k, kr⟩, -⟩ | ⟨-, -, e⟩
    · rw [effectiveMode_of_ne_reduced (by rw [k]; exact nofun), k] at hc
      cases hc
    · rw [effectiveMode_of_ne_reduced (by rw [k]; exact nofun), k] at hc
      cases hc
    · rw [effectiveMode_of_reduced k, kr] at hc
      cases hc
    · exact e

/-- The station with the JACK SPREAD judgement withdrawn outside CLIMBING and PAUSED (R187). -/
def spreadWithdrawn (s : State) : State :=
  { s with sup.present :=
      if s.ctl.mode.climbs then s.sup.present else s.sup.present.filter (· != .jackSpread) }

/-- Step 1. -/
theorem withdrawSpread_eq (h : Steady s) (ht : s.ctl.mode.takesCommands = true) :
    withdrawSpread s = spreadWithdrawn s := by
  have withdrawn : s.ctl.mode.climbs = false → lapseCond .jackSpread s = spreadWithdrawn s := by
    intro hc
    have outside : s.effectiveMode.climbs = false := by
      rw [effectiveMode_of_takesCommands ht]
      exact hc
    have target : spreadWithdrawn s = { s with sup.present := s.sup.present.filter (· != .jackSpread) } := by
      rw [spreadWithdrawn, hc]
      rfl
    rw [target]
    rcases lapseCond_cases .jackSpread s with ⟨hp, e⟩ | ⟨-, e⟩
    · rw [e, without_of_absent hp]
    · exact e.trans (followHold_of_outside (s := { s with sup.present := s.sup.present.filter (· != .jackSpread) })
        outside (h.outside outside) _)
  have stays : s.ctl.mode.climbs = true → s = spreadWithdrawn s := by
    intro hc
    rw [spreadWithdrawn, hc]
    rfl
  unfold withdrawSpread
  cases hm : s.ctl.mode with
  | standing | stopped | topped => exact withdrawn (by rw [hm]; rfl)
  | climbing | paused => exact stays (by rw [hm]; rfl)
  | setup | locked | joining | reduced => rw [hm] at ht; cases ht

/-- The entries that stay latched through steps 2 to 4. -/
def staysLatched (s : State) (c : Cond) : Bool := if c = .haltLoop then s.sup.loopSensed else s.isPresent c

/-- The supervisor after steps 2 to 4. -/
def clearedSup (s : State) : Supervisor :=
  let waits : Bool := s.isLatched .haltLoop && s.sup.loopSensed
  let ended : Bool := s.isLatched .haltLoop && !s.sup.loopSensed
  { s.sup with
    latched := s.sup.latched.filter (staysLatched s)
    drive := (s.sup.latched.filter (staysLatched s)).any fun c => s.classOf c == .trip
    haltCause := if ended then none else s.sup.haltCause
    clearPending := if waits then true else if ended then false else s.sup.clearPending
    clearTimer := if waits then some (s.now + Config.clearPendingLength)
      else if ended then none else s.sup.clearTimer }

/-- Steps 2 to 4. -/
theorem clearHalt_eq (hd : s.sup.drive = s.tripLatched) :
    clearHalt (releaseDrive (unlatchAbsent s)) = { s with sup := clearedSup s } := by
  let kept := s.sup.latched.filter fun c => !unlatchable s c
  have unlatchable_halt : unlatchable s .haltLoop = false := rfl
  have driven : releaseDrive (unlatchAbsent s)
      = { s with sup.latched := kept, sup.drive := kept.any fun c => s.classOf c == .trip } := by
    have sum : (unlatchAbsent s).tripLatched = kept.any fun c => s.classOf c == .trip := rfl
    unfold releaseDrive
    by_cases k : (unlatchAbsent s).tripLatched = true
    · have was : s.sup.drive = true := by
        rw [hd]
        obtain ⟨c, hc, hk⟩ := List.any_eq_true.mp (sum.symm.trans k)
        exact List.any_eq_true.mpr ⟨c, (List.mem_filter.mp hc).1, hk⟩
      rw [if_pos k, ← sum, k, ← was]
      rfl
    · rw [if_neg k, ← sum, Bool.eq_false_iff.mpr k]
      rfl
  have halts : kept.contains .haltLoop = s.isLatched .haltLoop := by
    rw [Bool.eq_iff_iff]
    simp only [kept, State.isLatched, List.contains_iff_mem, List.mem_filter, unlatchable_halt]
    simp
  have same : s.sup.loopSensed = true ∨ s.isLatched .haltLoop = false → kept = s.sup.latched.filter (staysLatched s) := by
    intro h
    refine List.filter_congr fun c hc => ?_
    unfold staysLatched unlatchable
    by_cases hk : c = .haltLoop
    · subst hk
      rcases h with h | h
      · rw [if_pos rfl, h]; rfl
      · exact absurd (h.symm.trans (List.contains_iff_mem.mpr hc)) nofun
    · rw [if_neg hk, bne_iff_ne.mpr hk]
      simp
  rw [driven]
  unfold clearHalt
  by_cases hl : s.isLatched .haltLoop = true
  · rw [if_pos (by rw [State.isLatched]; exact halts.trans hl)]
    by_cases hs : s.sup.loopSensed = true
    · have waits : (s.isLatched .haltLoop && s.sup.loopSensed) = true := by rw [hl, hs]; rfl
      have ends : (s.isLatched .haltLoop && !s.sup.loopSensed) = false := by rw [hl, hs]; rfl
      rw [if_pos hs, clearedSup, waits, ends, ← same (.inl hs)]
      rfl
    · have hs := Bool.eq_false_iff.mpr hs
      have waits : (s.isLatched .haltLoop && s.sup.loopSensed) = false := by rw [hl, hs]; rfl
      have ends : (s.isLatched .haltLoop && !s.sup.loopSensed) = true := by rw [hl, hs]; rfl
      have rest : kept.filter (· != .haltLoop) = s.sup.latched.filter (staysLatched s) := by
        rw [List.filter_filter]
        refine List.filter_congr fun c _ => ?_
        unfold staysLatched unlatchable
        by_cases hk : c = .haltLoop
        · subst hk
          rw [if_pos rfl, hs]
          rfl
        · rw [if_neg hk, bne_iff_ne.mpr hk]
          simp
      have trips : (kept.filter (· != .haltLoop)).any (fun c => s.classOf c == .trip)
          = kept.any fun c => s.classOf c == .trip := by
        rw [List.any_filter, Bool.eq_iff_iff, List.any_eq_true, List.any_eq_true]
        refine ⟨fun ⟨c, hc, hk⟩ => ⟨c, hc, (Bool.and_eq_true_iff.mp hk).2⟩, fun ⟨c, hc, hk⟩ => ⟨c, hc, ?_⟩⟩
        refine Bool.and_eq_true_iff.mpr ⟨bne_iff_ne.mpr ?_, hk⟩
        rintro rfl
        exact absurd (beq_iff_eq.mp hk) nofun
      rw [if_neg (by rw [show (_ : Bool) = _ from hs]; exact nofun), clearedSup, waits, ends, ← rest, trips]
      rfl
  · have hl := Bool.eq_false_iff.mpr hl
    have waits : (s.isLatched .haltLoop && s.sup.loopSensed) = false := by rw [hl]; rfl
    have ends : (s.isLatched .haltLoop && !s.sup.loopSensed) = false := by rw [hl]; rfl
    rw [if_neg (by rw [State.isLatched]; exact fun k => absurd (hl.symm.trans (halts.symm.trans k)) nofun), clearedSup,
      waits, ends, ← same (.inr hl)]
    rfl

/-- A channel that leaves FAULT (R103). -/
theorem leaveFault_outcome (r : SetupRecord) (now : Nat) (inhibit : Bool) (d : Channel) :
    let e := d.leaveFault r now inhibit false
    e.climbed = d.climbed ∧ e.x = d.x
      ∧ (if inhibit = true then StandsShut .inhibited e
        else if d.readingValid = false then StandsShut .fault e
        else if r.home < d.x.getD 0 then RetractionBegun r now false e
        else StandsShut .rest e) := by
  intro e
  have halts : ∀ st : ChState, (d.halt st now).climbed = d.climbed ∧ (d.halt st now).x = d.x := fun st =>
    ⟨Channel.halt_climbed st now d, (Channel.sameData_halt (now := now) (c := d) st).x⟩
  have left : e = if inhibit = true then d.halt .inhibited now
      else if (!d.readingValid) = true then d.halt .fault now
      else if d.aboveHome r = true then (d.halt .fault now).toRetract r now false else d.halt .rest now := by
    show d.leaveFault r now inhibit false = _
    rw [Channel.leaveFault, if_neg (show ¬ false = true from nofun)]
  rw [left]
  by_cases hi : inhibit = true
  · rw [if_pos hi, if_pos hi]
    exact ⟨(halts _).1, (halts _).2, (Channel.halt_shut .inhibited now d).1⟩
  rw [if_neg hi, if_neg hi]
  by_cases hv : d.readingValid = false
  · rw [if_pos (by rw [hv]; rfl), if_pos hv]
    exact ⟨(halts _).1, (halts _).2, (Channel.halt_shut .fault now d).1⟩
  rw [if_neg (by simpa using hv), if_neg hv]
  by_cases ha : r.home < d.x.getD 0
  · rw [if_pos (show d.aboveHome r = true from decide_eq_true ha), if_pos ha]
    have data := Channel.sameData_toRetract (r := r) (now := now) (c := d.halt .fault now) false
    exact ⟨data.climbed.trans (halts _).1, data.x.trans (halts _).2, Channel.toRetract_begun _ _ _ _⟩
  · rw [if_neg (by simpa [Channel.aboveHome] using ha), if_neg ha]
    exact ⟨(halts _).1, (halts _).2, (Channel.halt_shut .rest now d).1⟩

/-- Where no EXTEND TIMEOUT is over, none ends. -/
theorem endExtendTimeouts_of_none
    (h : ∀ ch : Ch, extendTimeoutOver t (.extendTimeout ch) = true → t.isPresent (.extendTimeout ch) = false) :
    endExtendTimeouts t = t := by
  have all : t.sup.present.filter (fun c => !extendTimeoutOver t c) = t.sup.present := by
    refine List.filter_eq_self.mpr fun c hc => ?_
    cases c with
    | extendTimeout ch =>
      rw [Bool.not_eq_true', ← Bool.not_eq_true]
      intro k
      exact absurd ((h ch k).symm.trans (List.contains_iff_mem.mpr hc)) nofun
    | _ => rfl
  rw [endExtendTimeouts, all]

/-! ### A CLEAR as a whole -/

/-- The condition of an entry that a CLEAR leaves latched (R187, R190, R193). -/
def heldThrough (s : State) (c : Cond) : Bool :=
  if c = .haltLoop then s.sup.loopSensed else s.isPresent c && !(c == .jackSpread && !s.ctl.mode.climbs)

theorem spreadWithdrawn_isPresent (c : Cond) (s : State) :
    (spreadWithdrawn s).isPresent c = (s.isPresent c && !(c == .jackSpread && !s.ctl.mode.climbs)) := by
  cases hc : s.ctl.mode.climbs with
  | true =>
    have same : spreadWithdrawn s = s := by rw [spreadWithdrawn, hc]; rfl
    rw [same]
    simp
  | false =>
    have cut : spreadWithdrawn s = { s with sup.present := s.sup.present.filter (· != .jackSpread) } := by
      rw [spreadWithdrawn, hc]
      rfl
    rw [cut, isPresent_without]
    simp [bne]

theorem staysLatched_eq (s : State) : staysLatched (spreadWithdrawn s) = heldThrough s := by
  funext c
  unfold staysLatched heldThrough
  rw [spreadWithdrawn_isPresent]
  rfl

/-- The station after the steps 1 to 5 of a CLEAR. -/
def cleared (s : State) : State :=
  freeChannels (spreadWithdrawn s) { spreadWithdrawn s with sup := clearedSup (spreadWithdrawn s) }

theorem clearFaults_eq (hs : Sound s) (ht : s.ctl.mode.takesCommands = true) :
    clearFaults s = closeClear (spreadWithdrawn s) (cleared s) := by
  have steps : clearHalt (releaseDrive (unlatchAbsent (spreadWithdrawn s)))
      = { spreadWithdrawn s with sup := clearedSup (spreadWithdrawn s) } := clearHalt_eq hs.drive
  unfold clearFaults
  rw [withdrawSpread_eq hs.steady ht]
  exact congrArg (fun x => closeClear (spreadWithdrawn s) (freeChannels (spreadWithdrawn s) x)) steps

theorem cleared_latched (s : State) : (cleared s).sup.latched = s.sup.latched.filter (heldThrough s) :=
  congrArg (fun f => s.sup.latched.filter f) (staysLatched_eq s)

/-- A channel whose TRANSDUCER or RETRACT TIMEOUT entries went leaves FAULT (R103). -/
theorem cleared_chan (s : State) (ch : Ch) :
    (cleared s).chan ch
      = if ((heldInFault s ch && !heldInFault (cleared s) ch) && (s.chan ch).state == .fault) = true then
          (s.chan ch).leaveFault s.setup s.now s.inhibitInput (s.ctl.mode == .reduced)
        else s.chan ch := PerChannel.get_ofFn _ ch

/-- A CLEAR ends no EXTEND TIMEOUT (R186). -/
theorem cleared_over (hs : Sound s) (ch : Ch) (h : extendTimeoutOver (cleared s) (.extendTimeout ch) = true) :
    (cleared s).isPresent (.extendTimeout ch) = false := by
  obtain ⟨-, -, -, -, -, absent⟩ := hs.presence
  have shown : (cleared s).isPresent (.extendTimeout ch) = s.isPresent (.extendTimeout ch) :=
    (spreadWithdrawn_isPresent _ s).trans (by simp)
  rw [shown]
  refine absent ch (Ch.mem_all ch) ?_
  have chan := cleared_chan s ch
  split at chan
  · rename_i k
    have fault : ((s.chan ch).state == .fault) = true := (Bool.and_eq_true_iff.mp k).2
    rw [extendTimeoutOver, fault, Bool.or_true, Bool.true_or]
  · rw [extendTimeoutOver, chan] at h
    exact h

/-- Where a CLEAR leaves the latched set and JACK SPREAD, it leaves the rest of the fault set but for the clear
pending mark, and otherwise it changes the fault set (R197). -/
theorem cleared_faultView (hs : Sound s) : faultView (cleared s) = faultView s
    ↔ (cleared s).isPresent .jackSpread = s.isPresent .jackSpread
      ∧ (cleared s).sup.latched = s.sup.latched ∧ (cleared s).sup.clearPending = s.sup.clearPending := by
  have latched := cleared_latched s
  have shown : ∀ c, (cleared s).isPresent c = (s.isPresent c && !(c == .jackSpread && !s.ctl.mode.climbs)) := fun c =>
    spreadWithdrawn_isPresent c s
  constructor
  · intro same
    have keeps : ∀ c ∈ s.sup.latched, heldThrough s c = true := by
      intro c hc
      have equal : Cond.all.filter (cleared s).isLatched = Cond.all.filter s.isLatched := congrArg FaultView.latched same
      have mem : c ∈ Cond.all.filter (cleared s).isLatched := by
        rw [equal]
        exact List.mem_filter.mpr ⟨Cond.mem_all c, List.contains_iff_mem.mpr hc⟩
      have entry := List.contains_iff_mem.mp (List.mem_filter.mp mem).2
      rw [latched] at entry
      exact (List.mem_filter.mp entry).2
    have whole : (cleared s).sup.latched = s.sup.latched := latched.trans (List.filter_eq_self.mpr keeps)
    refine ⟨?_, whole, congrArg FaultView.clearPending same⟩
    have equal : Cond.all.filter (fun c => (cleared s).isPresent c || (cleared s).isLatched c)
        = Cond.all.filter (fun c => s.isPresent c || s.isLatched c) := congrArg FaultView.shown same
    by_cases hp : s.isPresent .jackSpread = true
    · have mem : Cond.jackSpread ∈ Cond.all.filter (fun c => (cleared s).isPresent c || (cleared s).isLatched c) := by
        rw [equal]
        exact List.mem_filter.mpr ⟨Cond.mem_all _, by rw [hp]; rfl⟩
      rcases Bool.or_eq_true_iff.mp (List.mem_filter.mp mem).2 with k | k
      · exact k.trans hp.symm
      · rw [State.isLatched, whole] at k
        have stays := keeps .jackSpread (List.contains_iff_mem.mp k)
        rw [heldThrough, if_neg nofun, ← shown] at stays
        exact stays.trans hp.symm
    · rw [shown, Bool.eq_false_iff.mpr hp, Bool.false_and]
  · rintro ⟨jack, whole, mark⟩
    have present : ∀ c, (cleared s).isPresent c = s.isPresent c := by
      intro c
      by_cases hc : c = .jackSpread
      · rw [hc]; exact jack
      · rw [shown, beq_eq_false_iff_ne.mpr hc]
        simp
    have entries : (cleared s).isLatched = s.isLatched := by
      funext c
      rw [State.isLatched, whole]
      rfl
    have drive : (cleared s).sup.drive = s.sup.drive := by
      rw [hs.drive]
      exact (congrArg (fun l : List Cond => l.any fun c => s.classOf c == .trip) whole :)
    have cause : (cleared s).sup.haltCause = s.sup.haltCause := by
      refine if_neg fun k => ?_
      obtain ⟨entry, released⟩ := Bool.and_eq_true_iff.mp k
      have gone : heldThrough s .haltLoop = false := (Bool.not_eq_true' _).mp released
      have mem : Cond.haltLoop ∈ s.sup.latched.filter (heldThrough s) := by
        rw [← latched, whole]
        exact List.contains_iff_mem.mp entry
      exact absurd (gone.symm.trans (List.mem_filter.mp mem).2) nofun
    simp only [faultView, present, entries, drive, cause, mark]

/-- A CLEAR that finds nothing latched and nothing to withdraw (R190). -/
theorem cleared_of_none (hs : Sound s) (hl : s.sup.latched = [])
    (hj : s.isPresent .jackSpread = false ∨ s.ctl.mode.climbs = true) : cleared s = s := by
  have spread : spreadWithdrawn s = s := by
    have present : (if s.ctl.mode.climbs then s.sup.present else s.sup.present.filter (· != .jackSpread))
        = s.sup.present := by
      rcases hj with h | h
      · have same := without_of_absent h
        have same : s.sup.present.filter (· != .jackSpread) = s.sup.present :=
          (congrArg (fun x : State => x.sup.present) same :)
        rw [same, ite_self]
      · rw [if_pos h]
    rw [spreadWithdrawn, present]
  have unlatched : s.isLatched .haltLoop = false := by rw [State.isLatched, hl]; rfl
  have drive : s.sup.drive = false := by rw [hs.drive, State.tripLatched, hl]; rfl
  have sup : clearedSup s = s.sup := by
    rw [clearedSup, unlatched, hl]
    show ({ s.sup with latched := [], drive := false } : Supervisor) = s.sup
    rw [← hl, ← drive]
  have free : ∀ ch : Ch, faultsUnlatched s s ch = false := fun ch => by
    rw [faultsUnlatched, Bool.and_not_self]
  have still : ∀ ch : Ch, (if (faultsUnlatched s s ch && (s.chan ch).state == .fault) = true then
      (s.chan ch).leaveFault s.setup s.now s.inhibitInput (s.ctl.mode == .reduced) else s.chan ch) = s.chan ch :=
    fun ch => if_neg (by rw [free]; exact nofun)
  rw [cleared, spread, sup]
  show freeChannels s s = s
  rw [freeChannels, PerChannel.ofFn, still, still, still, still]
  rfl

/-- Settles O56: the steps of R190 one by one, and the close of a CLEAR. -/
theorem clearUnlatchesAbsent : Obligations.ClearUnlatchesAbsent := by
  intro s sender target argument low hs ht ha hlow kept held
  let b := spreadWithdrawn s
  let j := cleared s
  let w := closeClear b j
  have whole : clearStation s = w := (if_pos ht).trans (clearFaults_eq hs ht)
  have block : exec (.clear sender target argument) s = finish s w :=
    congrArg (finish s) ((if_pos ha).trans whole)
  have local_ : exec (.localClear low) s = finish s w := congrArg (finish s) ((if_pos hlow).trans whole)
  have stands : Stands j := hs.stands.moved j.seq.chans j.sup
  obtain ⟨aside, ctl, seq, stack, plan, sup, gate, depth, report, same⟩ := closeClear_spec b stands
  have latched := cleared_latched s
  have ends : endExtendTimeouts w = w := endExtendTimeouts_of_none fun ch k => by
    have chan : w.chan ch = j.chan ch := (congrArg (fun x : Sequencer => x.chans.get ch) seq :)
    rw [extendTimeoutOver, chan] at k
    rw [State.isPresent, sup]
    exact cleared_over hs ch k
  have supE : (settled s w).sup = j.sup := by
    rw [settled_sup]
    have present : w.sup.present.filter (fun c => !extendTimeoutOver w c) = w.sup.present :=
      congrArg (fun u : State => u.sup.present) ends
    rw [present]
    exact sup
  have shown : ∀ c, (settled s w).isPresent c = j.isPresent c := fun c => by
    rw [State.isPresent, supE]
    rfl
  have emptied : (b.noneLatched = false ∧ j.noneLatched = true ∧ j.ctl.mode = .stopped)
      ↔ (s.ctl.mode = .stopped ∧ s.sup.latched ≠ [] ∧ j.sup.latched = []) := by
    have none_iff : b.noneLatched = false ↔ s.sup.latched ≠ [] :=
      Bool.eq_false_iff.trans (not_congr List.isEmpty_iff)
    rw [none_iff]
    exact ⟨fun q => ⟨q.2.2, q.1, List.isEmpty_iff.mp q.2.1⟩, fun q => ⟨q.2.1, List.isEmpty_iff.mpr q.2.2, q.1⟩⟩
  have marks : w.sup = j.sup := sup
  have view : faultView w = faultView j := by
    unfold faultView State.isPresent State.isLatched
    rw [marks]
  have calm : j.isPresent .jackSpread = s.isPresent .jackSpread ∧ j.sup.latched = s.sup.latched
        ∧ j.sup.clearPending = s.sup.clearPending →
      (settled s w).line.report = s.line.report := by
    intro k
    have stays : ¬(b.noneLatched = false ∧ j.noneLatched = true ∧ j.ctl.mode = .stopped) := by
      rw [emptied]
      exact fun q => q.2.1 (k.2.1.symm.trans q.2.2)
    rw [settled_report, if_pos]
    · exact (same stays).2
    · rw [ends, view]
      exact (cleared_faultView hs).mpr k
  refine ⟨_, block, local_, ?_, ?_, fun e he => ?_, ?_, ?_, ?_, ?_, ?_, ?_, ?_, ?_, ?_, ?_, ?_, fun hl => ⟨fun hsens => ?_,
    fun hrel => ?_⟩, ?_, fun hl hj => ?_, fun ch hch => ?_⟩
  · rw [supE]
    exact latched
  · rw [shown]
    exact (spreadWithdrawn_isPresent .jackSpread s).trans (by simp)
  · rw [shown]
    refine (spreadWithdrawn_isPresent e s).trans ?_
    rw [beq_eq_false_iff_ne.mpr he]
    simp
  · rw [supE]
    rfl
  · rw [shown, supE]
    by_cases k : j.isPresent .jackSpread = s.isPresent .jackSpread ∧ j.sup.latched = s.sup.latched
        ∧ j.sup.clearPending = s.sup.clearPending
    · rw [if_pos k]
      exact calm k
    · rw [if_neg k]
      refine settled_urgent ?_ report
      rw [ends, view]
      exact fun q => k ((cleared_faultView hs).mp q)
  · rw [settled_now]; exact aside.now
  · rw [settled_seq, seq]; rfl
  · rw [settled_seq, seq]; rfl
  · rw [settled_stack, stack]; rfl
  · rw [settled_cure]; exact aside.cure
  · rw [settled_peers]; exact aside.peers
  · rw [settled_plan, plan]; rfl
  · rw [settled_feed]; exact gate
  · rw [settled_feed]; exact depth
  · have waits : (s.isLatched .haltLoop && s.sup.loopSensed) = true := by rw [hl, hsens]; rfl
    have over_ : ¬(s.isLatched .haltLoop && !s.sup.loopSensed) = true := by rw [hl, hsens]; exact nofun
    rw [supE]
    exact ⟨if_pos waits, if_pos waits, if_neg over_⟩
  · have waits : ¬(s.isLatched .haltLoop && s.sup.loopSensed) = true := by rw [hrel, Bool.and_false]; exact nofun
    have over_ : (s.isLatched .haltLoop && !s.sup.loopSensed) = true := by rw [hl, hrel]; rfl
    rw [supE]
    exact ⟨(if_neg waits).trans (if_pos over_), (if_neg waits).trans (if_pos over_), if_pos over_⟩
  · rw [settled_ctl, ctl, supE]
    exact congrArg (fun m => ({ s.ctl with mode := m } : ModeCtl)) (if_congr emptied rfl rfl)
  · have none_ : j = s := cleared_of_none hs hl hj
    have stays : ¬(b.noneLatched = false ∧ j.noneLatched = true ∧ j.ctl.mode = .stopped) := by
      rw [emptied]
      exact fun q => q.2.1 hl
    have body : SameBody w s := (same stays).1.trans (congrArg State.body none_)
    obtain ⟨kept_, -⟩ := settled_calm hs (t := w) (congrArg Sequencer.chans (SameBody.seq body))
      fun ch k => (SameBody.isPresent body _).symm.trans k
    exact ⟨kept_.trans body, calm (by rw [none_]; exact ⟨rfl, rfl, rfl⟩)⟩
  · have chan : (settled s w).chan ch = j.chan ch :=
      (settled_chan s w ch).trans (congrArg (fun x : Sequencer => x.chans.get ch) seq :)
    have freed : ((heldInFault s ch && !heldInFault j ch) && (s.chan ch).state == .fault) = true
        ↔ (s.chan ch).state = .fault ∧ held s.sup.latched ch = true ∧ held (settled s w).sup.latched ch = false := by
      rw [supE, Bool.and_eq_true, Bool.and_eq_true, Bool.not_eq_true', beq_iff_eq]
      exact ⟨fun q => ⟨q.2, q.1.1, q.1.2⟩, fun q => ⟨⟨q.2.1, q.2.2⟩, q.1⟩⟩
    have supplied : (s.ctl.mode == .reduced) = false := by
      refine beq_eq_false_iff_ne.mpr fun k => ?_
      rw [k] at ht
      cases ht
    rw [chan]
    refine ⟨fun k => (cleared_chan s ch).trans (if_neg fun q => k (freed.mp q)), fun k => ?_⟩
    rw [show j.chan ch = _ from (cleared_chan s ch).trans (if_pos (freed.mpr k)), supplied]
    exact leaveFault_outcome s.setup s.now s.inhibitInput (s.chan ch)

end

end Sys2Proof.Machine
end

section
/-! PROOFS. What an arrival, a sweep and the end of the settle time bring about in the feed controller and in the
pause-cause set (R6, R9, R113 to R116, R121, R129). -/

namespace Sys2Proof.Machine

-- In order, so that the proofs waiting on one another do not hold a stack each.
set_option Elab.async false

section
variable {s t u : State} {c : Cond}

/-! ### REJOIN through onsets and ends -/

/-- REJOIN stands while the station goes on in CLIMBING, PAUSED or a REDUCED that returns to them. -/
def RejoinKept (s t : State) : Prop :=
  t.effectiveMode.climbs = true → s.effectiveMode.climbs = true ∧ t.ctl.pause.rejoin = s.ctl.pause.rejoin

theorem RejoinKept.refl (s : State) : RejoinKept s s := fun h => ⟨h, rfl⟩

theorem RejoinKept.trans (h : RejoinKept s t) (k : RejoinKept t u) : RejoinKept s u := fun e => by
  obtain ⟨ht, kt⟩ := k e
  obtain ⟨hs, hr⟩ := h ht
  exact ⟨hs, kt.trans hr⟩

theorem RejoinKept.of_ctl (h : t.ctl = s.ctl) : RejoinKept s t := fun e => by
  rw [effectiveMode_of_ctl h] at e
  exact ⟨e, by rw [h]⟩

theorem RejoinKept.alike (h : Alike t (holdFollowed { s with sup.present := cs })) : RejoinKept s t := by
  have ctl : t.ctl = (holdFollowed { s with sup.present := cs }).ctl := SameBody.ctl h.body
  intro e
  rw [effectiveMode_of_ctl ctl, holdFollowed_effective_climbs] at e
  exact ⟨e, by rw [ctl]; rfl⟩

theorem Ready.judge_rejoin (h : Ready s) (c : Cond) (b : Bool) : RejoinKept s (judgeCond c b s) := by
  cases b with
  | false => exact RejoinKept.alike (h.poised.lapse c).1
  | true =>
    show RejoinKept s (raiseCond c s)
    by_cases hl : s.latching c = true
    · rcases raiseCond_cases c s with ⟨-, e⟩ | ⟨hp, -, -⟩ | ⟨-, k, -⟩
      · rw [e]; exact RejoinKept.refl s
      · by_cases hn : s.isLatched c = true
        · rw [raise_of_latched h hp hl hn]
          exact RejoinKept.of_ctl rfl
        · obtain ⟨-, mode, returns, -⟩ := raise_latch_spec h hp hl (Bool.eq_false_iff.mpr hn)
          intro e
          have works := Mode.works_of_climbs e
          by_cases hm : s.ctl.mode.works = true
          · rw [if_pos hm] at mode
            rw [effectiveMode_of_ne_reduced (by rw [mode]; exact nofun), mode] at works
            cases works
          · rw [if_neg hm] at mode
            by_cases hr : s.ctl.mode = .reduced
            · rw [effectiveMode_of_reduced (mode.trans hr), returns] at works
              by_cases hw : s.effectiveMode.works = true
              · rw [if_pos ⟨hr, hw⟩] at works
                cases works
              · rw [if_neg fun k => hw k.2, ← effectiveMode_of_reduced hr] at works
                exact absurd works hw
            · rw [effectiveMode_of_ne_reduced (by rw [mode]; exact hr), mode] at works
              exact absurd works hm
      · exact absurd (hl.symm.trans k) nofun
    · exact RejoinKept.alike (h.poised.raise (Bool.eq_false_iff.mpr hl)).1

/-- REJOIN leaves once every linked neighbour is available, and changes nothing else but PAUSED into CLIMBING (R6,
R9). -/
theorem Ready.checkRejoin (h : Ready s) :
    Onward s (checkRejoin s) ∧ Ready (checkRejoin s) ∧ (checkRejoin s).sup = s.sup
      ∧ (s.ctl.pause.rejoin = false → checkRejoin s = s)
      ∧ (s.ctl.pause.rejoin = true →
        (checkRejoin s).ctl.pause.rejoin = ((checkRejoin s).effectiveMode.climbs && !allAvailable s)) := by
  obtain ⟨⟨steady, held⟩, shape⟩ := h
  have climbs : s.ctl.pause.rejoin = true → s.effectiveMode.climbs = true := by
    intro hr
    by_contra k
    rw [steady.outside (Bool.eq_false_iff.mpr k)] at hr
    cases hr
  let p : PauseSet := { s.ctl.pause with rejoin := false }
  rcases checkRejoin_cases s with ⟨hr, ha, e⟩ | ⟨k, e⟩
  · have changed : p ≠ s.ctl.pause := fun k => absurd ((congrArg PauseSet.rejoin k).trans hr) nofun
    rcases dropPause_cases (fun p => { p with rejoin := false }) s with ⟨k, -⟩ | ⟨-, hm, hp, d⟩ | ⟨-, hp, d⟩
    · exact absurd k changed
    · have empty : p = .empty := PauseSet.isEmpty_iff.mp hp
      have segment : s.ctl.pause.segment = none := (congrArg PauseSet.segment empty :)
      have hold : s.ctl.pause.faultHold = false := (congrArg PauseSet.faultHold empty :)
      have alike := enterMode_climbing_of_last steady hm segment
      have whole : Machine.checkRejoin s = enterMode .climbing { s with ctl.pause := .empty } :=
        (e.trans d).trans (congrArg (fun q => enterMode .climbing { s with ctl.pause := q }) empty)
      rw [whole]
      have body := alike.body
      have ctl := SameBody.ctl body (x := { s.ctl with mode := .climbing, pause := .empty }) rfl
      have seq : (enterMode .climbing { s with ctl.pause := .empty }).seq = s.seq := SameBody.seq body
      have stack : (enterMode .climbing { s with ctl.pause := .empty }).stack = s.stack := SameBody.stack body
      have sup : (enterMode .climbing { s with ctl.pause := .empty }).sup = s.sup := enterMode_sup _ _
      have feed : (enterMode .climbing { s with ctl.pause := .empty }).feed = s.feed := SameBody.feed body
      have works : s.ctl.mode.works = true := by rw [hm]; rfl
      have absent : s.holdPresent = false := by
        rw [effectiveMode_of_ne_reduced (by rw [hm]; exact nofun), hm] at held
        exact held.symm.trans hold
      have aside : Aside s (enterMode .climbing { s with ctl.pause := .empty }) :=
        (aside_setPause .empty s).trans (aside_enterMode _ _)
      have free : waitingSegment { s with ctl := { s.ctl with mode := .climbing, pause := .empty } } = none :=
        (steady.waits (by rw [hm]; rfl)).resolve_left (by rw [segment]; exact nofun)
      have target : Poised { s with
          ctl := { s.ctl with mode := .climbing, pause := .empty }
          plan.ramp := 0
          line.report := s.line.report.request .urgent } := by
        refine ⟨⟨fun _ => steady.top works, fun _ => .inr free, fun k => ?_, fun _ => steady.taken (by rw [hm]; rfl),
          fun _ => rfl, fun _ => rfl, fun k => absurd k nofun⟩, ?_⟩
        · have allowed := steady.gate k
          rw [feedAllowed, works] at allowed
          exact allowed
        · show false = (true && s.holdPresent)
          rw [absent]
          rfl
      have mode : (enterMode .climbing { s with ctl.pause := .empty }).ctl.mode = .climbing := by rw [ctl]
      refine ⟨⟨aside, by rw [seq], by rw [seq], by rw [stack], by rw [stack], .inl ⟨by rw [sup], by rw [seq]⟩,
        fun d k => by rw [State.isLatched, sup]; exact k, fun _ => ⟨works, by rw [sup]⟩,
        fun k => absurd (works.symm.trans k) nofun, fun _ k => ?_, ?_⟩, ⟨target.alike alike, ?_⟩, sup,
        fun k => absurd (hr.symm.trans k) nofun, fun _ => ?_⟩
      · rw [mode] at k; cases k
      · rw [mode, works, if_pos (show Mode.climbing.works = true from rfl)]
        exact feed
      · rw [GateShape, feed]; exact shape
      · rw [ctl, ha]
        exact (Bool.and_false _).symm
    · have whole : Machine.checkRejoin s = { s with ctl.pause := p } := e.trans d
      rw [whole]
      have here := climbs hr
      refine ⟨⟨aside_setPause p s, rfl, rfl, rfl, rfl, .inl ⟨rfl, rfl⟩, fun _ k => k, fun k => ⟨k, rfl⟩, fun _ => rfl,
        fun k k' => absurd (k.symm.trans k') nofun, (if_pos rfl).symm⟩, ⟨⟨⟨steady.top, steady.waits, steady.gate,
        steady.taken, fun k => ?_, fun k => ?_, fun k => ?_⟩, held⟩, shape⟩, rfl,
        fun k => absurd (hr.symm.trans k) nofun, fun _ => ?_⟩
      · exact absurd (here.symm.trans k) nofun
      · have empty := steady.climbing k
        rw [empty] at hr
        cases hr
      · exact Bool.eq_false_iff.mpr fun q => hp ⟨k, q⟩
      · rw [ha]
        exact (Bool.and_false _).symm
  · rw [e]
    refine ⟨Onward.refl s, ⟨⟨steady, held⟩, shape⟩, rfl, fun _ => rfl, fun hr => ?_⟩
    have lost : allAvailable s = false := k.resolve_left fun q => absurd (hr.symm.trans q) nofun
    rw [hr, climbs hr, lost]
    rfl

/-! ### Admission and yield -/

/-- A feed changed where feeding goes on as it was allowed, with what goes with it: the reckoning and the REPORT
slot. -/
theorem Ready.fed (h : Ready s) {f : Feed} {st : Stack} {l : Line} (hq : l.setupRequest = s.line.setupRequest)
    (hp : f.probeValid = s.feed.probeValid) (hi : s.feed.state ≠ .idle)
    (hg : GateShape { s with feed := f, stack := st, line := l }) : Ready { s with feed := f, stack := st, line := l } := by
  have allowed : feedAllowed { s with feed := f, stack := st, line := l } = feedAllowed s := by
    simp only [feedAllowed, hp]
  exact ⟨h.poised.refed (t := { s with feed := f, stack := st, line := l })
    (fun _ => allowed.trans (h.poised.steady.gate hi)) rfl rfl rfl rfl hq, hg⟩

/-- The feed once the gate has been opened at moment `s.now` (R116). -/
def openedFeed (s : State) : Feed :=
  { s.feed with
    state := .opened, gate := true, settled := false, settleTimer := none,
    feedTimer := some (s.now + s.setup.feedTime) }

/-- The feed once the gate has been closed in a yield (R121). -/
def yieldedFeed (s : State) : Feed :=
  { s.feed with
    state := .asking, gate := false, settled := false, feedTimer := none,
    settleTimer := some (s.now + s.setup.settleTime), blankTimer := blankStart s }

/-- The feed after an arrival (R115, R121). -/
def arrivedFeed (s : State) : Feed :=
  if s.feed.state = .asking ∧ s.feed.settled = true ∧ openPeers s + askersAbove s < s.setup.gateMax then openedFeed s
  else if s.feed.state = .opened ∧ s.setup.gateMax ≤ lowerOpenPeers s then yieldedFeed s
  else s.feed

theorem gateShape_opened : GateShape (openGate s) := ⟨rfl, nofun, rfl, rfl⟩

theorem gateShape_yielded : GateShape (closeGate .asking s) := ⟨rfl, nofun, rfl, rfl⟩

/-- An admission of a settled station (R114, R115). -/
theorem admitIfSettled_spec (h : Ready s) :
    let w := admitIfSettled s
    let admits : Prop := s.feed.state = .asking ∧ s.feed.settled = true ∧ openPeers s + askersAbove s < s.setup.gateMax
    Ready w ∧ Aside s w ∧ w.ctl = s.ctl ∧ w.seq = s.seq ∧ w.sup = s.sup ∧ w.stack = s.stack
      ∧ (admits → w = openGate s) ∧ (¬ admits → w = s) := by
  intro w admits
  by_cases k : admits
  · obtain ⟨ha, hs, hm⟩ := k
    have opened : w = openGate s := (if_pos ⟨ha, hs⟩).trans (if_pos hm)
    rw [opened]
    refine ⟨h.fed (f := (openGate s).feed) (l := (openGate s).line) rfl rfl (by rw [ha]; exact nofun) gateShape_opened,
      aside_openGate s, rfl, rfl, rfl, rfl, fun _ => rfl, fun q => absurd ⟨ha, hs, hm⟩ q⟩
  · have stays : w = s := by
      show (if s.feed.state = .asking ∧ s.feed.settled = true then admission s else s) = s
      split
      · rename_i q
        exact if_neg fun hm => k ⟨q.1, q.2, hm⟩
      · rfl
    rw [stays]
    exact ⟨h, Aside.refl s, rfl, rfl, rfl, rfl, fun q => absurd q k, fun _ => rfl⟩

/-- What the feed controller does at an arrival (R115, R121). -/
theorem feedArrival_spec (h : Ready s) :
    let w := feedArrival s
    Ready w ∧ Aside s w ∧ w.ctl = s.ctl ∧ w.seq = s.seq ∧ w.sup = s.sup ∧ w.feed = arrivedFeed s
      ∧ w.stack.layers = s.stack.layers ∧ w.stack.concreteTop = s.stack.concreteTop
      ∧ (s.feed.state = .idle → w = s) := by
  intro w
  cases hf : s.feed.state with
  | idle =>
    have same : w = s := by
      show feedArrival s = s
      rw [feedArrival, hf]
    have feed : arrivedFeed s = s.feed := by
      rw [arrivedFeed, hf, if_neg (fun k => nomatch k.1), if_neg (fun k => nomatch k.1)]
    rw [same, feed]
    exact ⟨h, Aside.refl s, rfl, rfl, rfl, rfl, rfl, rfl, fun _ => rfl⟩
  | asking =>
    have same : w = admitIfSettled s := by
      show feedArrival s = _
      rw [feedArrival, hf]
    obtain ⟨ready, aside, ctl, seq, sup, stack, admits, stays⟩ := admitIfSettled_spec h
    have feed : (admitIfSettled s).feed = arrivedFeed s := by
      by_cases k : s.feed.state = .asking ∧ s.feed.settled = true ∧ openPeers s + askersAbove s < s.setup.gateMax
      · rw [arrivedFeed, if_pos k, admits k]
        rfl
      · have yields : ¬(s.feed.state = .opened ∧ s.setup.gateMax ≤ lowerOpenPeers s) :=
          fun q => absurd (hf.symm.trans q.1) nofun
        rw [arrivedFeed, if_neg k, if_neg yields, stays k]
    rw [same]
    exact ⟨ready, aside, ctl, seq, sup, feed, by rw [stack], by rw [stack], nofun⟩
  | opened =>
    have same : w = yieldIfExcess s := by
      show feedArrival s = _
      rw [feedArrival, hf]
    have asks : ¬(s.feed.state = .asking ∧ s.feed.settled = true ∧ openPeers s + askersAbove s < s.setup.gateMax) :=
      fun q => absurd (hf.symm.trans q.1) nofun
    rw [same, arrivedFeed, if_neg asks]
    by_cases k : s.feed.state = .opened ∧ s.setup.gateMax ≤ lowerOpenPeers s
    · rw [if_pos k, show yieldIfExcess s = closeGate .asking s from if_pos k]
      exact ⟨h.fed (f := (closeGate .asking s).feed) (st := (closeGate .asking s).stack) (l := (closeGate .asking s).line)
        rfl rfl (by rw [hf]; exact nofun) gateShape_yielded, aside_closeGate .asking s, rfl, rfl, rfl, rfl, rfl, rfl, nofun⟩
    · rw [if_neg k, show yieldIfExcess s = s from if_neg k]
      exact ⟨h, Aside.refl s, rfl, rfl, rfl, rfl, rfl, rfl, nofun⟩

/-! ### The conditions of the peer table after an arrival or a sweep -/

theorem Ready.judgePeers (h : Ready s) :
    Onward s (judgePeers s) ∧ Ready (judgePeers s) ∧ RejoinKept s (judgePeers s) := by
  obtain ⟨one, ready⟩ := h.judge .neighbourLost (!allAvailable s)
  obtain ⟨two, ready'⟩ := ready.judge .peerSilent (peerSilent (judgeCond .neighbourLost (!allAvailable s) s))
  exact ⟨one.trans two, ready', (h.judge_rejoin .neighbourLost _).trans (ready.judge_rejoin .peerSilent _)⟩

/-- A record as it is entered (R128). -/
def entered (n : Nat) (r : Report) (s : State) : State :=
  { s with peers.records := enterReport n r s.peers.records }

/-- What an arrival brings about before the join unit (R129). -/
def arrived (n : Nat) (s : State) : State :=
  let t := judgePeers (feedArrival s)
  checkRejoin (if t.peers.links.contains n then judgeTilt t else t)

/-- An arrival in a ready station, up to the join unit (R9, R129, R135, R188). -/
theorem arrived_spec (n : Nat) (h : Ready s) :
    Onward (feedArrival s) (arrived n s) ∧ Ready (arrived n s)
      ∧ (s.ctl.pause.rejoin = true →
        (arrived n s).ctl.pause.rejoin = ((arrived n s).effectiveMode.climbs && !allAvailable (arrived n s))) := by
  obtain ⟨ready, aside, ctl, -⟩ := feedArrival_spec h
  obtain ⟨judged, ready, kept⟩ := ready.judgePeers
  let v := judgePeers (feedArrival s)
  let u := if v.peers.links.contains n then judgeTilt v else v
  have tilt : Onward v u ∧ Ready u ∧ RejoinKept v u := by
    by_cases k : v.peers.links.contains n = true
    · rw [show u = judgeTilt v from if_pos k]
      exact ⟨(ready.judge .tilt _).1, (ready.judge .tilt _).2, ready.judge_rejoin .tilt _⟩
    · rw [show u = v from if_neg k]
      exact ⟨Onward.refl v, ready, RejoinKept.refl v⟩
  obtain ⟨tilted_, readyU, keptU⟩ := tilt
  obtain ⟨last, readyW, -, none_, leaves⟩ := readyU.checkRejoin
  have whole : arrived n s = checkRejoin u := rfl
  rw [whole]
  refine ⟨(judged.trans tilted_).trans last, readyW, fun hr => ?_⟩
  have avail : allAvailable (checkRejoin u) = allAvailable u := last.aside.allAvailable
  rw [avail]
  by_cases hu : u.ctl.pause.rejoin = true
  · exact leaves hu
  · have still := none_ (Bool.eq_false_iff.mpr hu)
    rw [still]
    cases hc : u.effectiveMode.climbs with
    | false => rw [Bool.eq_false_iff.mpr hu]; rfl
    | true =>
      obtain ⟨-, same⟩ := ((RejoinKept.of_ctl ctl).trans (kept.trans keptU)) hc
      exact absurd (same.trans hr) hu

end

end Sys2Proof.Machine
end

section
/-! PROOFS. The end of the settle time, and the feed controller at an arrival (R113 to R116, R121). -/

namespace Sys2Proof.Machine

-- In order, so that the proofs waiting on one another do not hold a stack each.
set_option Elab.async false

section
variable {s t u : State} {c : Cond}

/-- No record is held for the own number (R125). -/
theorem Sound.ne_own (hs : Sound s) {n : Nat} (hn : n ∈ s.peers.records.map Peer.number) : n ≠ s.join.ownNumber := by
  obtain ⟨numbers, -⟩ := hs.peers
  rw [numbers, rosterNumbers, List.mem_filter] at hn
  exact bne_iff_ne.mp hn.2

/-- A report that can be entered (R127, R129). -/
theorem exec_report_of_entered (hs : Sound s) {sender : BitVec 6} {payload : BitVec 224} {r : Report}
    (hr : decodeReport payload.toNat = some r) (hn : sender.toNat ∈ s.peers.records.map Peer.number) :
    exec (.report sender payload) s
      = finish s (joinIfWaiting (arrived sender.toNat (entered sender.toNat r s))) := by
  have other : ¬(sender.toNat ≠ 0 ∧ sender.toNat = s.join.ownNumber) := fun k => hs.ne_own hn k.2
  have known : (s.peers.records.any fun p => p.number == sender.toNat) = true := by
    obtain ⟨p, hp, e⟩ := List.mem_map.mp hn
    exact List.any_eq_true.mpr ⟨p, hp, beq_iff_eq.mpr e⟩
  refine congrArg (finish s) ((if_neg other).trans ?_)
  rw [hr]
  exact if_pos known

theorem joinIfWaiting_of_ne (h : s.join.state ≠ .waitingForLink) : joinIfWaiting s = s := if_neg h

/-- A report entered, and nothing else yet. -/
theorem Ready.entered (h : Ready s) (n : Nat) (r : Report) : Ready (entered n r s) :=
  ⟨h.poised.refed (t := Machine.entered n r s) h.poised.steady.gate, h.shape⟩

/-- What onsets and ends leave of a feed where the station goes on (R110). -/
theorem Onward.feed_of_works (h : Onward s t) (hw : t.ctl.mode.works = true) :
    t.feed = s.feed ∧ t.seq.chans = s.seq.chans := by
  obtain ⟨works, latched⟩ := h.works hw
  refine ⟨h.feed.trans (if_pos (hw.trans works.symm)), ?_⟩
  rcases h.chans with ⟨-, k⟩ | ⟨k, -⟩
  · exact k
  · rw [latched] at k
    exact absurd k (Nat.lt_irrefl _)

/-- Settles O35: the first admission at the end of the settle time, and the feed controller at an arrival. -/
theorem admissionAndYield : Obligations.AdmissionAndYield := by
  intro s d hs now own depth isOpen ranks ahead opened
  refine ⟨fun hd => ?_, fun sender payload hr hn hj => ?_⟩
  · obtain ⟨-, -, settle, -⟩ := hs.gate.shape
    have asks : s.feed.state = .asking := by
      rw [hd] at settle
      exact beq_iff_eq.mp (Bool.and_eq_true_iff.mp settle.symm).1
    let u : State := { s with now := now, feed := { s.feed with settled := true, settleTimer := none } }
    let w := admitIfSettled u
    have block : exec .settleTimerExpiry s = finish s w := by
      refine congrArg (finish s) ((if_pos ?_).trans ?_)
      · rw [hd]; rfl
      · rw [hd]; rfl
    have admits : w = admission u := if_pos ⟨asks, rfl⟩
    refine ⟨_, block, fun hm => ?_, fun hm => ?_⟩
    · have whole : w = openGate u := admits.trans (if_pos hm)
      rw [whole]
      obtain ⟨body, -, -, report⟩ := settled_calm hs (t := openGate u) rfl fun _ k => k
      exact ⟨body, report.trans (if_pos rfl)⟩
    · have whole : w = u := admits.trans (if_neg (Nat.not_lt.mpr hm))
      rw [whole]
      obtain ⟨body, -, -, report⟩ := settled_calm hs (t := u) rfl fun _ k => k
      exact ⟨body, report.trans (if_pos rfl)⟩
  · obtain ⟨r, hr⟩ := Option.isSome_iff_exists.mp hr
    let n := sender.toNat
    let v := entered n r s
    let w := arrived n v
    have ready : Ready v := hs.ready.entered n r
    obtain ⟨fedReady, fedAside, -, fedSeq, -, fedFeed, -⟩ := feedArrival_spec ready
    obtain ⟨onward, -⟩ := arrived_spec n ready
    have aside : Aside v w := fedAside.trans onward.aside
    have stays : w.join.state ≠ .waitingForLink := by
      rw [aside.join_state]
      exact hj
    have block : exec (.report sender payload) s = finish s w :=
      (exec_report_of_entered hs hr hn).trans (congrArg (finish s) (joinIfWaiting_of_ne stays))
    have feed : (settled s w).ctl.mode.works = true → (settled s w).feed = arrivedFeed v := by
      intro k
      rw [settled_ctl] at k
      obtain ⟨same, chans⟩ := onward.feed_of_works k
      have kept : w.seq.chans = s.seq.chans := chans.trans (by rw [fedSeq]; rfl)
      rw [settled_feed_of_chans kept, same, fedFeed]
    have peers : (settled s w).peers = v.peers := (settled_peers s w).trans aside.peers
    refine ⟨_, block, fun hw ha hsettled => ?_, fun hw ho => ?_⟩
    · rw [feed hw, peers]
      have closed : ¬(v.feed.state = .opened ∧ v.setup.gateMax ≤ lowerOpenPeers v) :=
        fun q => absurd (ha.symm.trans q.1) nofun
      by_cases k : ahead v.peers.records < s.setup.gateMax
      · rw [if_pos k, arrivedFeed, if_pos ⟨ha, hsettled, k⟩]
        rfl
      · have no : ¬(v.feed.state = .asking ∧ v.feed.settled = true
            ∧ openPeers v + askersAbove v < v.setup.gateMax) := fun q => k q.2.2
        rw [if_neg k, arrivedFeed, if_neg no, if_neg closed]
        rfl
    · rw [feed hw, peers]
      have no : ¬(v.feed.state = .asking ∧ v.feed.settled = true
          ∧ openPeers v + askersAbove v < v.setup.gateMax) := fun q => absurd (ho.symm.trans q.1) nofun
      rw [arrivedFeed, if_neg no]
      by_cases k : s.setup.gateMax ≤ v.peers.records.countP fun p => isOpen p && decide (p.number < own)
      · rw [if_pos k, if_pos ⟨ho, k⟩]
        rfl
      · rw [if_neg k, if_neg fun q => k q.2]
        rfl

end

end Sys2Proof.Machine
end

section
/-! PROOFS. The neighbours that a join looks at (R135, R175 to R177). -/

namespace Sys2Proof.Machine

-- In order, so that the proofs waiting on one another do not hold a stack each.
set_option Elab.async false

section
variable {s t u : State} {c : Cond}

/-- The records have distinct numbers, and the link list has no number twice (R125, R134). -/
structure Distinct (s : State) : Prop where
  records : (s.peers.records.map Peer.number).Nodup
  links : s.peers.links.Nodup

theorem linkList_nodup (n : Nat) (r : SetupRecord) : (linkList n r).Nodup := by
  rw [linkList_eq]
  exact (foldl_joinOnce (ringNeighbours n r ++ crossLinks r) [] List.nodup_nil).1

theorem Sound.distinct (hs : Sound s) : Distinct s := by
  obtain ⟨numbers, -, links, -⟩ := hs.peers
  refine ⟨by rw [numbers]; exact rosterNumbers_nodup _ _, ?_⟩
  rw [links]
  cases s.join.committed with
  | none => exact List.nodup_nil
  | some r => exact linkList_nodup _ _

/-- The record that a number finds is the one that bears it. -/
theorem peerOf_iff (h : Distinct s) {n : Nat} {p : Peer} :
    peerOf s n = some p ↔ p ∈ s.peers.records ∧ p.number = n := by
  constructor
  · intro k
    exact ⟨List.mem_of_find?_eq_some k, beq_iff_eq.mp (List.find?_some (p := fun q : Peer => q.number == n) k)⟩
  · rintro ⟨hp, rfl⟩
    have found : ((s.peers.records.find? fun q => q.number == p.number)).isSome = true :=
      List.find?_isSome.mpr ⟨p, hp, beq_iff_eq.mpr rfl⟩
    obtain ⟨q, hq⟩ := Option.isSome_iff_exists.mp found
    have same : q.number = p.number := beq_iff_eq.mp (List.find?_some (p := fun q : Peer => q.number == p.number) hq)
    have eq : q = p := List.inj_on_of_nodup_map h.records (List.mem_of_find?_eq_some hq) hp same
    exact hq.trans (congrArg some eq)

theorem available_iff_of_distinct (h : Distinct s) {n : Nat} :
    available s n = true ↔ ∃ p ∈ s.peers.records, p.number = n ∧ p.liveness = .live ∧ p.height.isSome = true := by
  unfold available
  cases k : peerOf s n with
  | none =>
    refine ⟨nofun, fun ⟨p, hp, hn, _⟩ => ?_⟩
    have found := (peerOf_iff h).mpr ⟨hp, hn⟩
    exact absurd (k.symm.trans found) nofun
  | some p =>
    obtain ⟨hp, hn⟩ := (peerOf_iff h).mp k
    show (p.liveness == .live && p.height.isSome) = true ↔ _
    rw [Bool.and_eq_true, beq_iff_eq]
    refine ⟨fun ⟨live, height⟩ => ⟨p, hp, hn, live, height⟩, fun ⟨q, hq, hqn, live, height⟩ => ?_⟩
    have same : q = p := Option.some.inj (((peerOf_iff h).mpr ⟨hq, hqn⟩).symm.trans k)
    exact ⟨same ▸ live, same ▸ height⟩

/-- The available linked neighbours by the link list and by the records. -/
theorem availablePeers_perm (h : Distinct s) : (availablePeers s).Perm (availableOf s) := by
  have byNumber : ∀ n m : Nat, ∀ p ∈ peerOf s n, p ∈ peerOf s m → n = m := by
    intro n m p hp hq
    exact ((peerOf_iff h).mp hp).2.symm.trans ((peerOf_iff h).mp hq).2
  have nodupL : (availablePeers s).Nodup := (h.links.filter _).filterMap byNumber
  have nodupR : (availableOf s).Nodup := (List.Nodup.of_map _ h.records).filter _
  refine (List.perm_ext_iff_of_nodup nodupL nodupR).mpr fun p => ?_
  simp only [availablePeers, availableOf, List.mem_filterMap, List.mem_filter, Bool.and_eq_true, beq_iff_eq,
    List.contains_iff_mem]
  constructor
  · rintro ⟨n, ⟨hn, ha⟩, hp⟩
    obtain ⟨hr, rfl⟩ := (peerOf_iff h).mp hp
    obtain ⟨q, hq, same, live, height⟩ := (available_iff_of_distinct h).mp ha
    have eq : q = p := List.inj_on_of_nodup_map h.records hq hr same
    exact ⟨hr, ⟨hn, eq ▸ live⟩, eq ▸ height⟩
  · rintro ⟨hr, ⟨hn, live⟩, height⟩
    exact ⟨p.number, ⟨hn, (available_iff_of_distinct h).mpr ⟨p, hr, rfl, live, height⟩⟩, (peerOf_iff h).mpr ⟨hr, rfl⟩⟩

theorem availablePeers_eq_nil (h : Distinct s) : availablePeers s = [] ↔ availableOf s = [] :=
  ⟨fun k => (availablePeers_perm h).symm.trans (by rw [k]) |>.eq_nil,
    fun k => (availablePeers_perm h).trans (by rw [k]) |>.eq_nil⟩

/-- A neighbour that has climbed (R175). -/
theorem hasClimbed_iff {r : SetupRecord} {p : Peer} (hc : p.strokeCount.isSome = true) :
    hasClimbed r p = true ↔ p.strokeCount ≠ some 0 ∨ p.height ≠ some r.programStart := by
  obtain ⟨n, hn⟩ := Option.isSome_iff_exists.mp hc
  rw [hasClimbed, hn, Bool.or_eq_true, decide_eq_true_eq, bne_iff_ne]
  refine or_congr ?_ Iff.rfl
  show 0 < n ↔ some n ≠ some 0
  rw [Ne, Option.some.injEq, Nat.pos_iff_ne_zero]

/-- The least of two lists of the same numbers. -/
theorem min?_eq_of_perm {l m : List Nat} (h : l.Perm m) : l.min? = m.min? := by
  cases k : m.min? with
  | none =>
    rw [List.min?_eq_none_iff] at k ⊢
    exact (k ▸ h).eq_nil
  | some a =>
    obtain ⟨mem, least⟩ := List.min?_eq_some_iff.mp k
    exact List.min?_eq_some_iff.mpr ⟨h.mem_iff.mpr mem, fun b hb => least b (h.mem_iff.mp hb)⟩

/-- The mean of the available neighbours' heights (R177). -/
theorem adoptedHeight_eq (h : Distinct s) :
    adoptedHeight s = ((availableOf s).map fun p => p.height.getD 0).sum / (availableOf s).length := by
  have perm := availablePeers_perm h
  have heights : linkedHeights s = (availablePeers s).map fun p => p.height.getD 0 := by
    have lit : ∀ p ∈ availablePeers s, p.height.isSome = true := fun p hp => by
      have mem : p ∈ availableOf s := perm.mem_iff.mp hp
      rw [availableOf, List.mem_filter, Bool.and_eq_true] at mem
      exact mem.2.2
    rw [linkedHeights]
    revert lit
    induction availablePeers s with
    | nil => exact fun _ => rfl
    | cons p ps ih =>
      intro lit
      obtain ⟨x, hx⟩ := Option.isSome_iff_exists.mp (lit p List.mem_cons_self)
      rw [List.filterMap_cons_some hx, List.map_cons, hx, ih fun q hq => lit q (List.mem_cons_of_mem _ hq)]
      rfl
  have sums := (perm.map fun p => p.height.getD 0).sum_eq
  rw [adoptedHeight, heights, meanOf, sums, List.length_map, perm.length_eq]

/-- The least top maturity of the available neighbours (R65). -/
theorem adoptedMaturity_eq (h : Distinct s) :
    adoptedMaturity s = (((availableOf s).map fun p => p.topMaturity.getD 0).min?.getD 0) * 600 := by
  rw [adoptedMaturity, min?_eq_of_perm ((availablePeers_perm h).map _)]
  rfl

end

end Sys2Proof.Machine
end

section
/-! PROOFS. How a join ends (R3, R65, R175 to R179): its outcome's heights and stack, the arming of the deck
supervisions, and the mode that follows. -/

namespace Sys2Proof.Machine

-- In order, so that the proofs waiting on one another do not hold a stack each.
set_option Elab.async false

section
variable {s t u v y : State} {c : Cond} {o : JoinOutcome}

/-! ### A station that listens -/

/-- A station in a join, in JOINING or in a REDUCED that returns to it (R3, R17, R63, R101, R173). -/
structure Listens (s : State) : Prop where
  mode : s.ctl.mode = .joining ∨ (s.ctl.mode = .reduced ∧ s.ctl.returnMode = some .joining)
  pause : s.ctl.pause = .empty
  idle : s.feed.state = .idle
  still : ∀ ch : Ch, (s.chan ch).state ≠ .extend ∧ (s.chan ch).startPending = false
  bare : s.join.kind = .afterCommit → s.stack.layers = [] ∧ s.stack.concreteTop = none
  distinct : Distinct s
  heard : ∀ p ∈ s.peers.records, p.liveness = .live → p.strokeCount.isSome = true
  shallow : ∀ d ∈ s.feed.depth, d ≤ s.setup.formHeight

theorem Listens.effective (h : Listens s) : s.effectiveMode = .joining := by
  rcases h.mode with k | ⟨k, kr⟩
  · exact (effectiveMode_of_ne_reduced (by rw [k]; exact nofun)).trans k
  · rw [effectiveMode_of_reduced k, kr]
    rfl

theorem Listens.outside (h : Listens s) : s.effectiveMode.climbs = false := by
  rw [h.effective]
  rfl

theorem Listens.not_works (h : Listens s) : s.ctl.mode.works = false := by
  rcases h.mode with k | ⟨k, -⟩ <;> rw [k] <;> rfl

theorem Sound.listens (hs : Sound s) (hj : s.join.state = .listening ∨ s.join.state = .waitingForLink) : Listens s := by
  obtain ⟨returns, -⟩ := hs.mode
  obtain ⟨out, -⟩ := hs.pause
  obtain ⟨-, -, -, -, -, -, -, -, -, joining, -⟩ := hs.join
  obtain ⟨-, -, bare, -⟩ := hs.stack
  obtain ⟨-, records, -⟩ := hs.peers
  obtain ⟨shallow, -⟩ := hs.depth
  have effective : s.effectiveMode = .joining := by
    have : (s.effectiveMode == .joining) = true := by
      rw [joining]
      rcases hj with k | k <;> rw [k] <;> rfl
    exact beq_iff_eq.mp this
  have mode : s.ctl.mode = .joining ∨ (s.ctl.mode = .reduced ∧ s.ctl.returnMode = some .joining) := by
    by_cases k : s.ctl.mode = .reduced
    · refine .inr ⟨k, ?_⟩
      rw [effectiveMode_of_reduced k] at effective
      cases hr : s.ctl.returnMode with
      | none => rw [hr] at effective; cases effective
      | some m => rw [hr] at effective; exact congrArg some effective
    · exact .inl ((effectiveMode_of_ne_reduced k).symm.trans effective)
  have undone : s.join.state ≠ .done := by rcases hj with k | k <;> rw [k] <;> exact nofun
  refine ⟨mode, out (by rw [effective]; rfl), hs.idle_of_not_works ?_, fun ch => ?_, fun k => bare ?_, hs.distinct,
    fun p hp live => ?_, shallow⟩
  · rcases mode with k | ⟨k, -⟩ <;> rw [k] <;> rfl
  · obtain ⟨-, -, before, -⟩ := hs.channels ch (Ch.mem_all ch)
    obtain ⟨extends_, -, pending⟩ := before undone
    exact ⟨extends_, pending⟩
  · rw [State.heightSet, k, beq_eq_false_iff_ne.mpr undone]
    rfl
  · obtain ⟨-, -, -, -, carries, -⟩ := records p hp
    exact (carries (by rw [live]; exact nofun)).1

/-- An end of a condition in a station that neither climbs nor pauses. -/
theorem lapse_of_outside (hc : s.effectiveMode.climbs = false) (hp : s.ctl.pause = .empty) (c : Cond) :
    ∃ cs : List Cond, lapseCond c s = { s with sup.present := cs } := by
  rcases lapseCond_cases c s with ⟨-, e⟩ | ⟨-, e⟩
  · exact ⟨s.sup.present, e⟩
  · exact ⟨_, e.trans (followHold_of_outside (s := { s with sup.present := s.sup.present.filter (· != c) }) hc hp _)⟩

/-! ### The heights and the stack of the outcome -/

/-- Equal heights are not spread (R187). -/
theorem not_lt_jackSpread {q : PerChannel Channel} {h m : Nat} (hq : ∀ ch : Ch, (q.get ch).isActive = true →
    (q.get ch).climbed = h) : ¬ m < jackSpread q := by
  rw [lt_jackSpread_iff]
  rintro ⟨a, -, b, -, ha, hb, k⟩
  rw [hq a ha, hq b hb] at k
  omega

/-- The channels of a station with the active ones at `h` (R177, R178). -/
def heightened (h : Nat) (q : PerChannel Channel) : PerChannel Channel :=
  q.map fun c => if c.isActive then { c with climbed := h } else c

theorem heightened_get (h : Nat) (q : PerChannel Channel) (ch : Ch) :
    (heightened h q).get ch = if (q.get ch).isActive = true then { q.get ch with climbed := h } else q.get ch :=
  PerChannel.get_map _ _ _

theorem heightened_climbed (h : Nat) (q : PerChannel Channel) (ch : Ch) :
    ((heightened h q).get ch).climbed = if (q.get ch).isActive = true then h else (q.get ch).climbed := by
  rw [heightened_get]
  split <;> rfl

theorem heightened_still (h : Nat) (q : PerChannel Channel) (ch : Ch) :
    ((heightened h q).get ch).state = (q.get ch).state
      ∧ ((heightened h q).get ch).startPending = (q.get ch).startPending := by
  rw [heightened_get]
  split <;> exact ⟨rfl, rfl⟩

theorem heightened_equal (h : Nat) (q : PerChannel Channel) (ch : Ch)
    (ha : ((heightened h q).get ch).isActive = true) : ((heightened h q).get ch).climbed = h := by
  rw [heightened_climbed]
  refine if_pos ?_
  rw [Channel.isActive, (heightened_still h q ch).1] at ha
  exact ha

/-- The stack of an adoption at height `h` (R65). -/
def adoptedStack (h : Nat) (s : State) : Stack :=
  match s.feed.depth with
  | some d =>
    { s.stack with
      layers := if d < s.setup.formHeight then
          [{ seq := s.stack.nextSeq, bottom := h, top := h + s.setup.formHeight - d, placed := s.cure.clock,
             maturity := adoptedMaturity s, adopted := true }]
        else []
      concreteTop := some (h + s.setup.formHeight - d)
      nextSeq := if d < s.setup.formHeight then nextSequence s.stack.nextSeq else s.stack.nextSeq }
  | none => s.stack

theorem adoptStack_setHeights {h : Nat} (hb : s.stack.layers = []) (hd : ∀ d ∈ s.feed.depth, d ≤ s.setup.formHeight) :
    (adoptStack h (adoptedMaturity s) (setHeights h s)) = { setHeights h s with stack := adoptedStack h s } := by
  unfold adoptStack adoptedStack
  cases k : s.feed.depth with
  | none =>
    rw [show (setHeights h s).feed.depth = none from k]
    rfl
  | some d =>
    rw [show (setHeights h s).feed.depth = some d from k]
    have low := hd d k
    have above : h < h + s.setup.formHeight - d ↔ d < s.setup.formHeight := by omega
    by_cases q : d < s.setup.formHeight
    · simp only [show (setHeights h s).setup = s.setup from rfl, if_pos (above.mpr q), if_pos q, pushLayer,
        show (setHeights h s).stack = s.stack from rfl, hb, List.nil_append, reckonBase, List.getLast?_nil]
      rfl
    · simp only [show (setHeights h s).setup = s.setup from rfl, if_neg (mt above.mp q), if_neg q,
        show (setHeights h s).stack = s.stack from rfl]
      rw [← hb]

/-- What the outcome of a join makes of the heights and the stack (R65, R175 to R178). -/
def OutcomeOf (o : JoinOutcome) (s x : State) : Prop :=
  match o with
  | .restore => x.seq = s.seq ∧ x.stack = s.stack
  | .fresh => x.seq.height = s.setup.programStart ∧ x.seq.chans = heightened s.setup.programStart s.seq.chans
      ∧ x.seq.strokeCount = 0 ∧ x.stack.layers = []
  | .adoption => x.seq.height = adoptedHeight s ∧ x.seq.chans = heightened (adoptedHeight s) s.seq.chans
      ∧ x.seq.strokeCount = s.seq.strokeCount ∧ x.stack = adoptedStack (adoptedHeight s) s

/-- Heights, a stack, presence marks and a requested report changed, and nothing else. -/
structure Outcome (s x : State) : Prop where
  aside : Aside s x
  ctl : x.ctl = s.ctl
  feed : x.feed = s.feed
  latched : x.sup.latched = s.sup.latched
  setupRequest : x.line.setupRequest = s.line.setupRequest
  still : ∀ ch : Ch, (x.chan ch).state = (s.chan ch).state ∧ (x.chan ch).startPending = (s.chan ch).startPending
  marks : ∀ d, d ≠ .jackSpread → x.isPresent d = s.isPresent d

/-- JACK SPREAD judged at equal heights in a station that listens: its end at most. -/
theorem judgeSpread_of_heightened {h : Nat} {q : PerChannel Channel} (hm : s.effectiveMode.climbs = false)
    (hp : s.ctl.pause = .empty) (hq : s.seq.chans = heightened h q) :
    ∃ cs : List Cond, judgeSpread s = { s with sup.present := cs }
      ∧ ∀ d, d ≠ .jackSpread → cs.contains d = s.isPresent d := by
  have low : decide (s.setup.spreadMax < jackSpread s.seq.chans) = false := by
    refine decide_eq_false (not_lt_jackSpread (h := h) fun ch ha => ?_)
    rw [hq] at ha ⊢
    exact heightened_equal h _ ch ha
  have lapses : judgeSpread s = lapseCond .jackSpread s := by
    show judgeCond .jackSpread _ s = _
    rw [low]
    rfl
  obtain ⟨cs, e⟩ := lapse_of_outside hm hp .jackSpread
  refine ⟨cs, lapses.trans e, fun d k => ?_⟩
  have same : (judgeSpread s).isPresent d = s.isPresent d := judgeCond_isPresent_of_ne k _ s
  exact (congrArg (fun x : State => x.isPresent d) (lapses.trans e) :).symm.trans same

/-- The outcome's part before the join ends (R177, R178). -/
theorem applyOutcome_spec (h : Listens s) (hk : o ≠ .restore → s.join.kind = .afterCommit) :
    Outcome s (applyOutcome o s) ∧ OutcomeOf o s (applyOutcome o s) := by
  have refl_ : Outcome s s := ⟨Aside.refl s, rfl, rfl, rfl, rfl, fun _ => ⟨rfl, rfl⟩, fun _ _ => rfl⟩
  cases o with
  | restore => exact ⟨refl_, rfl, rfl⟩
  | fresh =>
    let x : State := { s with
      seq := { s.seq with
        height := s.setup.programStart, chans := heightened s.setup.programStart s.seq.chans, strokeCount := 0 }
      stack := { s.stack with layers := [] } }
    obtain ⟨cs, e, marks⟩ := judgeSpread_of_heightened (s := x) h.outside h.pause rfl
    have whole : applyOutcome .fresh s = { x with sup.present := cs } := e
    rw [whole]
    exact ⟨⟨⟨rfl, rfl, rfl, rfl, rfl, ⟨_, _, rfl⟩, rfl⟩, rfl, rfl, rfl, rfl, heightened_still _ _, marks⟩, rfl, rfl, rfl, rfl⟩
  | adoption =>
    have bare := (h.bare (hk nofun)).1
    let x : State := { setHeights (adoptedHeight s) s with stack := adoptedStack (adoptedHeight s) s }
    have adopted : adoptStack (adoptedHeight s) (adoptedMaturity s) (setHeights (adoptedHeight s) s) = x :=
      adoptStack_setHeights bare h.shallow
    have kept : removeExited x = x := by
      have above : removeBelow (adoptedHeight s) (adoptedStack (adoptedHeight s) s).layers
          = (adoptedStack (adoptedHeight s) s).layers := by
        unfold adoptedStack
        cases k : s.feed.depth with
        | none =>
          show removeBelow _ s.stack.layers = s.stack.layers
          rw [bare]
          rfl
        | some d =>
          show removeBelow _ (if d < s.setup.formHeight then _ else []) = (if d < s.setup.formHeight then _ else [])
          split
          · rename_i low
            refine List.dropWhile_cons_of_neg (by simp; omega)
          · rfl
      exact congrArg (fun ls => ({ x with stack := { x.stack with layers := ls } } : State)) above
    obtain ⟨cs, e, marks⟩ := judgeSpread_of_heightened (s := x) (h := adoptedHeight s) (q := s.seq.chans) h.outside h.pause rfl
    have whole : applyOutcome .adoption s = requestReport .urgent { x with sup.present := cs } := by
      show requestReport .urgent (judgeSpread (removeExited (adoptStack _ _ _))) = _
      rw [adopted, kept, e]
    rw [whole]
    exact ⟨⟨⟨rfl, rfl, rfl, rfl, rfl, ⟨_, _, rfl⟩, rfl⟩, rfl, rfl, rfl, rfl, heightened_still _ _, marks⟩, rfl, rfl, rfl, rfl⟩

end

end Sys2Proof.Machine
end

section
/-! PROOFS. The arming of the deck supervisions and the mode in which a station leaves its join (R3, R9, R11, R17,
R179, R185). -/

namespace Sys2Proof.Machine

-- In order, so that the proofs waiting on one another do not hold a stack each.
set_option Elab.async false

section
variable {s t u v y : State} {c : Cond} {o : JoinOutcome}

/-! ### The arming -/

/-- Marks of the supervisor and the retained images changed, and nothing else. -/
structure Marked (s t : State) : Prop where
  same : ∃ p a b, t = { s with sup := p, join := { s.join with imageA := a, imageB := b } }
  present : t.sup.present = s.sup.present
  armed : t.sup.armed = s.sup.armed
  entries : ∀ d : Cond, d.isDeck = false → t.isLatched d = s.isLatched d

theorem Marked.refl (s : State) : Marked s s := ⟨⟨s.sup, s.join.imageA, s.join.imageB, rfl⟩, rfl, rfl, fun _ _ => rfl⟩

theorem Marked.trans (h : Marked s t) (k : Marked t u) : Marked s u := by
  obtain ⟨p, a, b, e⟩ := h.same
  obtain ⟨q, x, y, f⟩ := k.same
  exact ⟨⟨q, x, y, by rw [f, e]⟩, k.present.trans h.present, k.armed.trans h.armed,
    fun d q => (k.entries d q).trans (h.entries d q)⟩

theorem Marked.keepChange (h : Marked s t) (b : Bool) : Marked s (keepChange b t) := by
  obtain ⟨p, x, y, e⟩ := h.same
  refine ⟨⟨p, (Machine.keepChange b t).join.imageA, (Machine.keepChange b t).join.imageB, ?_⟩, h.present, h.armed, h.entries⟩
  rw [e]
  rfl

/-- No channel is in EXTEND, and no start is pending. -/
abbrev AllStill (s : State) : Prop := ∀ ch : Ch, (s.chan ch).state ≠ .extend ∧ (s.chan ch).startPending = false

theorem cutExtensions_of_still (h : AllStill s) : cutExtensions s = s := by
  have uncut : ∀ ch : Ch, Channel.cut s.setup s.now (s.chan ch) = s.chan ch := fun ch => by
    obtain ⟨state, pending⟩ := h ch
    rw [cut_of_ne_extend state, ← pending]
  have chans : s.seq.chans.map (Channel.cut s.setup s.now) = s.seq.chans := by
    show (⟨Channel.cut _ _ (s.chan .c1), Channel.cut _ _ (s.chan .c2), Channel.cut _ _ (s.chan .c3),
      Channel.cut _ _ (s.chan .c4)⟩ : PerChannel Channel) = _
    rw [uncut, uncut, uncut, uncut]
    rfl
  show { s with seq.chans := s.seq.chans.map (Channel.cut s.setup s.now) } = s
  rw [chans]

/-- A latch in a station that neither works nor will, with its channels still (R184). -/
theorem latch_of_still (hw : s.effectiveMode.works = false) (h : AllStill s) {c : Cond} (hc : c.isDeck = true) :
    Marked s (latch c s) := by
  rcases latch_cases c s with ⟨-, e⟩ | ⟨-, e⟩
  · rw [e]
    exact Marked.refl s
  · have hw : (joinLatched c s).effectiveMode.works = false := hw
    have stays : latchMode (joinLatched c s) = joinLatched c s := by
      rcases latchMode_cases (joinLatched c s) with ⟨k, -⟩ | ⟨k, kr, -⟩ | ⟨-, -, e⟩
      · rw [effectiveMode_of_ne_reduced (Mode.ne_reduced_of_works k)] at hw
        exact absurd (hw.symm.trans k) nofun
      · rw [effectiveMode_of_reduced k] at hw
        exact absurd (hw.symm.trans kr) nofun
      · exact e
    have uncut : cutExtensions (joinLatched c s) = joinLatched c s := cutExtensions_of_still h
    rw [stays, uncut] at e
    rw [e]
    have joinedEntries : ∀ d : Cond, d.isDeck = false → (joinLatched c s).isLatched d = s.isLatched d := by
      intro d hd
      have other : d ≠ c := by
        rintro rfl
        exact absurd (hd.symm.trans hc) nofun
      simp [State.isLatched, joinLatched, other]
    refine Marked.keepChange ?_ true
    rcases pullForTrip_cases c (joinLatched c s) with ⟨-, k⟩ | ⟨-, k⟩ <;> rw [k] <;>
      exact ⟨⟨_, s.join.imageA, s.join.imageB, rfl⟩, rfl, rfl, joinedEntries⟩

theorem armOne_of_still (hw : s.effectiveMode.works = false) (h : AllStill s) {c : Cond} (hc : c.isDeck = true) :
    Marked s (armOne c s) := by
  by_cases k : (s.isPresent c && s.latching c) = true
  · rw [show armOne c s = latch c s from if_pos k]
    exact latch_of_still hw h hc
  · rw [show armOne c s = s from if_neg k]
    exact Marked.refl s

/-- The join is over and the deck supervisions are armed (R179, R185). -/
theorem armDeck_spec (hw : s.effectiveMode.works = false) (h : AllStill s) :
    let x : State := { s with join.state := .done, join.listenTimer := none, sup.armed := true }
    Marked x (armDeck s) := by
  intro x
  have one : Marked x (armOne .neighbourLost x) := armOne_of_still (s := x) hw h (c := .neighbourLost) rfl
  have next : ∀ (z : State) (c : Cond), c.isDeck = true → Marked x z → Marked x (armOne c z) := by
    intro z c hc hz
    obtain ⟨p, a, b, e⟩ := hz.same
    have works : z.effectiveMode.works = false := by rw [e]; exact hw
    have still : AllStill z := by rw [e]; exact h
    exact hz.trans (armOne_of_still works still hc)
  exact next _ .tilt rfl (next _ .peerSilent rfl one)

/-! ### The mode of the outcome -/

/-- The blocks that the mode of a join's outcome leaves as they stand. -/
structure Handed (s t : State) : Prop where
  aside : Aside s t
  chans : t.seq.chans = s.seq.chans
  height : t.seq.height = s.seq.height
  strokes : t.seq.strokeCount = s.seq.strokeCount
  stack : t.stack = s.stack
  sup : t.sup = s.sup

theorem Handed.refl (s : State) : Handed s s := ⟨Aside.refl s, rfl, rfl, rfl, rfl, rfl⟩

theorem Handed.trans (h : Handed s t) (k : Handed t u) : Handed s u :=
  ⟨h.aside.trans k.aside, k.chans.trans h.chans, k.height.trans h.height, k.strokes.trans h.strokes,
    k.stack.trans h.stack, k.sup.trans h.sup⟩

/-- The entry to a mode from JOINING with the feed in IDLE. -/
theorem enterMode_from_idle {m : Mode} (hm : m.takesCommands = true) (hc : m ≠ .climbing) (hi : s.feed.state = .idle) :
    let w := enterMode m s
    Handed s w ∧ w.ctl = { s.ctl with
        mode := (settle m (entryPause m s) s).1, pause := (settle m (entryPause m s) s).2, returnMode := none }
      ∧ (w.feed.state ≠ .idle → feedAllowed w = true) ∧ w.line.setupRequest ≠ .pending := by
  intro w
  let n := (settle m (entryPause m s) s).1
  let p := (settle m (entryPause m s) s).2
  let v := takeMode n p s
  have entered : w = rejudgeFeed (feedAllowed s) v := by
    show enterMode m s = _
    rw [enterMode_eq, if_neg hc]
  have taken : n.takesCommands = true := by
    have mode : (enterMode m s).ctl.mode = n := enterMode_mode m s
    have effective := enterMode_takesCommands hm s
    by_cases k : (enterMode m s).ctl.mode = .reduced
    · rw [effectiveMode_of_reduced k, enterMode_returnMode] at effective
      cases effective
    · rw [effectiveMode_of_ne_reduced k, mode] at effective
      exact effective
  have slot : v.line.setupRequest ≠ .pending := by
    show (if n = .setup then _ else _) ≠ SetupSlot.pending
    rw [if_neg (by rintro k; rw [k] at taken; cases taken)]
    exact SetupSlot.leaveSetup_ne s.line.setupRequest
  have handed : Handed s v := ⟨aside_takeMode _ _ _, rfl, rfl, rfl, rfl, rfl⟩
  rcases rejudgeFeed_cases (feedAllowed s) v with ⟨ha, -, e⟩ | ⟨ha, -, e⟩ | ⟨-, -, e⟩ | ⟨-, k, -⟩ | ⟨-, k, -⟩
  · rw [entered, e]
    exact ⟨handed, rfl, fun _ => ha, slot⟩
  · obtain ⟨ctl, seq, stack, -, sup, -⟩ := askIfShort_spec v
    have asks : Handed v (askIfShort v) :=
      ⟨aside_askIfShort v, by rw [seq], by rw [seq], by rw [seq], stack, sup⟩
    have allowed : feedAllowed (askIfShort v) = true := by
      have probe : (askIfShort v).feed.probeValid = v.feed.probeValid := by
        rcases askIfShort_cases v with ⟨-, -, -, k⟩ | ⟨-, k⟩ <;> rw [k]
        rfl
      rw [feedAllowed, ctl, probe]
      exact ha
    have line : (askIfShort v).line.setupRequest = v.line.setupRequest := by
      rcases askIfShort_cases v with ⟨-, -, -, k⟩ | ⟨-, k⟩ <;> rw [k]
      rfl
    rw [entered, e]
    exact ⟨handed.trans asks, ctl, fun _ => allowed, by rw [line]; exact slot⟩
  · rw [entered, e]
    exact ⟨handed, rfl, fun k => absurd hi k, slot⟩
  · exact absurd (hi.symm.trans k) nofun
  · exact absurd (hi.symm.trans k) nofun

/-- REJOIN leaves PAUSED at once where every linked neighbour is available (R6, R9). -/
theorem checkRejoin_of_paused (hm : s.ctl.mode = .paused) (hr : s.ctl.pause.rejoin = true) (htop : atTop s = false)
    (hseg : s.ctl.pause.segment = waitingSegment s) (hret : s.ctl.returnMode = none)
    (hg : s.feed.state ≠ .idle → feedAllowed s = true) (hreq : s.line.setupRequest ≠ .pending) :
    let w := checkRejoin s
    let p : PauseSet := { s.ctl.pause with rejoin := !allAvailable s }
    Handed s w ∧ w.ctl = { s.ctl with mode := if p = .empty then .climbing else .paused, pause := p } := by
  intro w p
  rcases checkRejoin_cases s with ⟨-, ha, e⟩ | ⟨k, e⟩
  · have set_ : p = { s.ctl.pause with rejoin := false } := by
      show ({ s.ctl.pause with rejoin := !allAvailable s } : PauseSet) = _
      rw [ha]
      rfl
    rcases dropPause_cases (fun p => { p with rejoin := false }) s with ⟨q, -⟩ | ⟨-, -, q, d⟩ | ⟨-, q, d⟩
    · exact absurd ((congrArg PauseSet.rejoin q).trans hr) nofun
    · have empty : p = .empty := set_.trans (PauseSet.isEmpty_iff.mp q)
      have free : waitingSegment s = none := hseg.symm.trans (congrArg PauseSet.segment empty)
      have whole : w = enterMode .climbing { s with ctl.pause := .empty } :=
        (e.trans d).trans (congrArg (fun x => enterMode .climbing { s with ctl.pause := x })
          (PauseSet.isEmpty_iff.mp q))
      obtain ⟨body, -⟩ := enterMode_climbing_of_emptied (s := { s with ctl.pause := .empty }) hm rfl htop hret hreq hg
      have sup : (enterMode .climbing { s with ctl.pause := .empty }).sup = s.sup := enterMode_sup _ _
      have free' : waitingSegment { s with ctl.pause := .empty } = none := free
      rw [free', if_pos rfl] at body
      rw [whole, if_pos empty, empty]
      have seq : (enterMode .climbing { s with ctl.pause := .empty }).seq = s.seq := SameBody.seq body
      refine ⟨⟨(aside_setPause .empty s).trans (aside_enterMode _ _), by rw [seq], by rw [seq], by rw [seq],
        SameBody.stack body, sup⟩, SameBody.ctl body⟩
    · have whole : w = { s with ctl.pause := p } := (e.trans d).trans (by rw [set_])
      have full : p ≠ .empty := fun k => q ⟨hm, PauseSet.isEmpty_iff.mpr (set_.symm.trans k)⟩
      rw [whole, if_neg full, ← hm]
      exact ⟨⟨aside_setPause p s, rfl, rfl, rfl, rfl, rfl⟩, rfl⟩
  · have lost : allAvailable s = false := k.resolve_left fun q => absurd (q.symm.trans hr) nofun
    have same : p = s.ctl.pause := by
      show ({ s.ctl.pause with rejoin := !allAvailable s } : PauseSet) = s.ctl.pause
      rw [lost]
      exact (congrArg (fun b => ({ s.ctl.pause with rejoin := b } : PauseSet)) hr).symm
    have full : p ≠ .empty := fun k => by
      rw [same] at k
      rw [k] at hr
      cases hr
    rw [show w = s from e, if_neg full, ← hm, same]
    exact ⟨Handed.refl s, rfl⟩

end

end Sys2Proof.Machine
end

section
/-! PROOFS. The end of a join as a whole, and of a join listen (R3, R9, R11, R17, R175 to R179). -/

namespace Sys2Proof.Machine

-- In order, so that the proofs waiting on one another do not hold a stack each.
set_option Elab.async false

section
variable {s t u v y : State} {c : Cond} {o : JoinOutcome}

/-- The four modes in which a join can end (R3). -/
theorem outcomeMode_mem (o : JoinOutcome) (s : State) :
    outcomeMode o s ∈ [Mode.standing, .stopped, .topped, .paused] := by
  have either : ∀ m ∈ [Mode.standing, .paused], (if s.noneLatched = true then m else .stopped)
      ∈ [Mode.standing, .stopped, .topped, .paused] := by
    intro m hm
    split
    · rcases List.mem_cons.mp hm with rfl | hm
      · decide
      · rw [List.mem_singleton.mp hm]; decide
    · decide
  cases o with
  | fresh => exact either .standing (by decide)
  | adoption => exact either .standing (by decide)
  | restore =>
    dsimp only [outcomeMode]
    split
    · decide
    · decide
    · exact either .standing (by decide)
    · exact either .paused (by decide)

/-- The pause-cause set with which a station leaves its join for mode `m` (R3, R9). -/
abbrev leavingPause (m : Mode) : PauseSet := if m = .paused then rejoinPause else .empty

/-- The mode of the outcome becomes the return mode of a station in REDUCED (R17). -/
theorem takeOutcome_reduced (hm : y.ctl.mode = .reduced) :
    let w := takeOutcome o y
    let m := outcomeMode o y
    Handed y w ∧ w.ctl = { y.ctl with
        returnMode := some m
        pause := ⟨false, m == .paused && y.holdPresent, m == .paused && !allAvailable y, none⟩ } := by
  intro w m
  let q : PauseSet := if (m.climbs && y.holdPresent) = true then { leavingPause m with faultHold := true }
    else leavingPause m
  let z : State := keepChange true { y with ctl.returnMode := some m, ctl.pause := q }
  have whole : w = checkRejoin z := by
    show takeOutcome o y = _
    unfold takeOutcome
    rw [hm]
  have handed : Handed y z := ⟨⟨rfl, rfl, rfl, rfl, rfl, ⟨_, _, rfl⟩, rfl⟩, rfl, rfl, rfl, rfl, rfl⟩
  by_cases hp : m = .paused
  · have set_ : q = ⟨false, y.holdPresent, true, none⟩ := by
      show (if (m.climbs && y.holdPresent) = true then _ else _) = _
      rw [leavingPause, if_pos hp, hp]
      cases y.holdPresent <;> rfl
    have paused : (m == .paused) = true := beq_iff_eq.mpr hp
    rw [paused, Bool.true_and, Bool.true_and]
    rcases checkRejoin_cases z with ⟨-, ha, e⟩ | ⟨k, e⟩
    · have ha : allAvailable y = true := ha
      rcases dropPause_cases (fun p => { p with rejoin := false }) z with ⟨k, -⟩ | ⟨-, k, -⟩ | ⟨-, -, d⟩
      · have k : ({ q with rejoin := false } : PauseSet) = q := k
        rw [set_] at k
        exact absurd (congrArg PauseSet.rejoin k) nofun
      · exact absurd (hm.symm.trans k) nofun
      · have left : w = { z with ctl.pause := { q with rejoin := false } } := whole.trans (e.trans d)
        rw [left, set_, ha]
        exact ⟨⟨⟨rfl, rfl, rfl, rfl, rfl, ⟨_, _, rfl⟩, rfl⟩, rfl, rfl, rfl, rfl, rfl⟩, rfl⟩
    · have set' : z.ctl.pause = ⟨false, y.holdPresent, true, none⟩ := set_
      have lost : allAvailable y = false := k.resolve_left fun k => by
        rw [set'] at k
        cases k
      rw [show w = z from whole.trans e, lost]
      exact ⟨handed, congrArg (fun p => ({ y.ctl with returnMode := some m, pause := p } : ModeCtl)) set_⟩
  · have set_ : q = .empty := by
      have dull : m.climbs = false := by
        have mem : m ∈ [Mode.standing, .stopped, .topped, .paused] := outcomeMode_mem o y
        simp only [List.mem_cons, List.not_mem_nil, or_false] at mem
        rcases mem with k | k | k | k
        · rw [k]; rfl
        · rw [k]; rfl
        · rw [k]; rfl
        · exact absurd k hp
      show (if (m.climbs && y.holdPresent) = true then _ else _) = _
      rw [dull, Bool.false_and, if_neg nofun, leavingPause, if_neg hp]
    have still : checkRejoin z = z := by
      rcases checkRejoin_cases z with ⟨k, -⟩ | ⟨-, e⟩
      · have k : q.rejoin = true := k
        rw [set_] at k
        cases k
      · exact e
    have other : (m == .paused) = false := beq_eq_false_iff_ne.mpr hp
    rw [show w = z from whole.trans still, other]
    exact ⟨handed, congrArg (fun p => ({ y.ctl with returnMode := some m, pause := p } : ModeCtl)) set_⟩

/-- The station leaves JOINING for the mode of the outcome, as its entry checks settle it (R3, R9, R11). -/
theorem takeOutcome_joining (hm : y.ctl.mode = .joining) (hi : y.feed.state = .idle) :
    let w := takeOutcome o y
    let m := outcomeMode o y
    let p : PauseSet := ⟨false, y.holdPresent, !allAvailable y, waitingSegment y⟩
    Handed y w ∧ w.ctl = { y.ctl with
        mode := if m.works = true ∧ atTop y = true then .topped
          else if m = .paused then (if p = .empty then .climbing else .paused) else m
        pause := if m = .paused ∧ atTop y = false then p else .empty
        returnMode := none } := by
  intro w m p
  let z : State := { y with ctl.pause := leavingPause m }
  have whole : w = checkRejoin (enterMode m z) := by
    show takeOutcome o y = _
    unfold takeOutcome
    rw [hm]
  have mem : m ∈ [Mode.standing, .stopped, .topped, .paused] := outcomeMode_mem o y
  have taken : m.takesCommands = true := outcomeMode_takesCommands o y
  have notClimbing : m ≠ .climbing := by
    intro k
    rw [k] at mem
    simp at mem
  obtain ⟨handed, ctl, gate, slot⟩ := enterMode_from_idle (s := z) taken notClimbing hi
  have before : Handed y z := ⟨aside_setPause _ y, rfl, rfl, rfl, rfl, rfl⟩
  have through := before.trans handed
  by_cases hp : m = .paused ∧ atTop y = false
  · obtain ⟨hp, low⟩ := hp
    have settles : settle m (entryPause m z) z = (.paused, ⟨false, y.holdPresent, true, waitingSegment y⟩) := by
      have entry : entryPause m z = ⟨false, y.holdPresent, true, none⟩ := by
        rw [hp]
        show (if (!y.ctl.mode.climbs && y.holdPresent) = true then { leavingPause m with faultHold := true }
          else leavingPause m) = _
        rw [leavingPause, if_pos hp, hm]
        cases y.holdPresent <;> rfl
      have joined : addWaiting z ⟨false, y.holdPresent, true, none⟩ = ⟨false, y.holdPresent, true, waitingSegment y⟩ := rfl
      rw [entry, settle, show atTop z = false from low, Bool.and_false, if_neg nofun, hp,
        if_pos (show Mode.paused.climbs = true from rfl), joined]
      dsimp only
      rw [ite_self]
    rw [settles] at ctl
    have mode : (enterMode m z).ctl.mode = .paused := by rw [ctl]
    have pause : (enterMode m z).ctl.pause = ⟨false, y.holdPresent, true, waitingSegment y⟩ := by rw [ctl]
    have top : atTop (enterMode m z) = false := by
      rw [atTop, handed.aside.setup, handed.height]
      exact low
    have waits : waitingSegment (enterMode m z) = waitingSegment y := by
      simp only [waitingSegment, unreleased, handed.aside.setup, handed.height, ctl]
      rfl
    obtain ⟨last, lastCtl⟩ := checkRejoin_of_paused mode (by rw [pause]) top (by rw [pause, waits]) (by rw [ctl]) gate slot
    have avail : allAvailable (enterMode m z) = allAvailable y := through.aside.allAvailable
    rw [avail, pause, ctl] at lastCtl
    have standing : ¬(m.works = true ∧ atTop y = true) := fun k => absurd (low.symm.trans k.2) nofun
    have both : m = .paused ∧ atTop y = false := ⟨hp, low⟩
    rw [whole, if_neg standing, if_pos hp, if_pos both]
    exact ⟨through.trans last, lastCtl⟩
  · have settles : settle m (entryPause m z) z
        = (if m.works = true ∧ atTop y = true then .topped else m, .empty) := by
      by_cases k : m.works = true ∧ atTop y = true
      · have high : (m.works && atTop z) = true := Bool.and_eq_true_iff.mpr k
        rw [if_pos k, settle, if_pos high]
      · have low : ¬(m.works && atTop z) = true := fun q => k (Bool.and_eq_true_iff.mp q)
        have other : m ≠ .paused := by
          rintro q
          rw [q] at k low
          exact hp ⟨q, Bool.eq_false_iff.mpr fun top => k ⟨rfl, top⟩⟩
        simp only [List.mem_cons, List.not_mem_nil, or_false] at mem
        rw [if_neg k, settle, if_neg low]
        rcases mem with q | q | q | q
        · rw [q]; rfl
        · rw [q]; rfl
        · rw [q]; rfl
        · exact absurd q other
    rw [settles] at ctl
    have still : checkRejoin (enterMode m z) = enterMode m z := by
      rcases checkRejoin_cases (enterMode m z) with ⟨k, -⟩ | ⟨-, e⟩
      · rw [ctl] at k
        cases k
      · exact e
    rw [whole, still, if_neg hp, ctl]
    refine ⟨through, ?_⟩
    by_cases k : m.works = true ∧ atTop y = true
    · rw [if_pos k, if_pos k]
    · have other : m ≠ .paused := by
        rintro q
        rw [q] at k
        exact hp ⟨q, Bool.eq_false_iff.mpr fun top => k ⟨rfl, top⟩⟩
      rw [if_neg k, if_neg k, if_neg other]

end

end Sys2Proof.Machine
end

section
/-! PROOFS. The end of a join as a whole, and of a join listen (R3, R17, R65, R174 to R179). -/

namespace Sys2Proof.Machine

-- In order, so that the proofs waiting on one another do not hold a stack each.
set_option Elab.async false

section
variable {s t u v w y : State} {c : Cond} {o : JoinOutcome}

/-- The decision of a join that does not wait (R175). -/
theorem joinDecision_spec (h : Listens s) (he : s.peers.links = [] ∨ availableOf s ≠ []) :
    ∃ o, joinDecision s = some o
      ∧ (s.join.kind = .afterRestore → o = .restore)
      ∧ (s.join.kind ≠ .afterRestore →
        ((s.peers.links = [] ∨ ¬ ∃ p ∈ availableOf s, p.strokeCount ≠ some 0 ∨ p.height ≠ some s.setup.programStart) →
          o = .fresh)
        ∧ (s.peers.links ≠ [] →
          (∃ p ∈ availableOf s, p.strokeCount ≠ some 0 ∨ p.height ≠ some s.setup.programStart) → o = .adoption)) := by
  have perm := availablePeers_perm h.distinct
  have climbed : (availablePeers s).any (hasClimbed s.setup) = true
      ↔ ∃ p ∈ availableOf s, p.strokeCount ≠ some 0 ∨ p.height ≠ some s.setup.programStart := by
    rw [List.any_eq_true]
    refine exists_congr fun p => ?_
    rw [perm.mem_iff]
    refine and_congr_right fun hp => hasClimbed_iff ?_
    simp only [availableOf, List.mem_filter, Bool.and_eq_true, beq_iff_eq] at hp
    exact h.heard p hp.1 hp.2.1.2
  by_cases hl : s.peers.links = []
  · by_cases hk : s.join.kind = .afterRestore
    · refine ⟨.restore, ?_, fun _ => rfl, fun k => absurd hk k⟩
      rw [joinDecision, if_pos hl, if_pos hk]
    · refine ⟨.fresh, ?_, fun k => absurd k hk, fun _ => ⟨fun _ => rfl, fun k => absurd hl k⟩⟩
      rw [joinDecision, if_pos hl, if_neg hk]
  · have some_ : availablePeers s ≠ [] := fun k =>
      (he.resolve_left hl) ((availablePeers_eq_nil h.distinct).mp k)
    by_cases hk : s.join.kind = .afterRestore
    · refine ⟨.restore, ?_, fun _ => rfl, fun k => absurd hk k⟩
      rw [joinDecision, if_neg hl, if_neg some_, if_pos hk]
    · by_cases hc : (availablePeers s).any (hasClimbed s.setup) = true
      · refine ⟨.adoption, ?_, fun k => absurd k hk, fun _ => ⟨fun k => ?_, fun _ _ => rfl⟩⟩
        · rw [joinDecision, if_neg hl, if_neg some_, if_neg hk, if_pos hc]
        · exact absurd (climbed.mp hc) (k.resolve_left hl)
      · refine ⟨.fresh, ?_, fun k => absurd k hk, fun _ => ⟨fun _ => rfl, fun _ k => ?_⟩⟩
        · rw [joinDecision, if_neg hl, if_neg some_, if_neg hk, if_neg hc]
        · exact absurd (climbed.mpr k) hc

/-- A join that waits (R176). -/
theorem decideJoin_waits (h : Distinct s) (hl : s.peers.links ≠ []) (ha : availableOf s = []) :
    decideJoin s = { s with join.state := .waitingForLink, join.listenTimer := none } := by
  have decided : joinDecision s = none := by
    rw [joinDecision, if_neg hl, if_pos ((availablePeers_eq_nil h).mpr ha)]
  unfold decideJoin
  rw [decided]

/-- What of a state tells how a join has ended. -/
structure SeenAs (w t : State) : Prop where
  join : t.join = w.join
  cure : t.cure = w.cure
  seq : t.seq = w.seq
  stack : t.stack = w.stack
  ctl : t.ctl = w.ctl
  peers : t.peers = w.peers
  latched : t.sup.latched = w.sup.latched
  armed : t.sup.armed = w.sup.armed
  hold : t.holdPresent = w.holdPresent

/-- EXTEND TIMEOUT holds no station, so that its end at the close of a command leaves FAULT HOLD as it is. -/
theorem settled_holdPresent (hs : Sound s) (hj : w.setup = s.setup) : (settled s w).holdPresent = w.holdPresent := by
  have sup := settled_sup s w
  have class_ : ∀ d, (settled s w).classOf d = w.classOf d := fun d => by
    rw [State.classOf, settled_setup]
    rfl
  have effective_ : ∀ d, (settled s w).effective d = w.effective d := fun d => by
    rw [State.effective, sup]
    rfl
  unfold State.holdPresent
  rw [sup]
  simp only [class_, effective_, List.any_filter]
  congr 1
  funext d
  cases d with
  | extendTimeout ch =>
    have dull : (w.classOf (.extendTimeout ch) == .hold) = false := by
      rw [beq_eq_false_iff_ne]
      rcases extendTimeout_class hs hj ch with k | k | k <;> rw [k] <;> exact nofun
    rw [dull, Bool.false_and, Bool.and_false]
  | _ => rfl

theorem seenAs_settled (hs : Sound s) (hj : w.setup = s.setup) : SeenAs w (settled s w) :=
  ⟨settled_join s w, settled_cure s w, settled_seq s w, settled_stack s w, settled_ctl s w, settled_peers s w,
    by rw [settled_sup], by rw [settled_sup], settled_holdPresent hs hj⟩

/-- The mode of R3 as the statement writes it. -/
theorem outcomeMode_eq {latched : List Cond} (hl : y.sup.latched = latched)
    (ho : o = .restore ↔ y.join.kind = .afterRestore) :
    outcomeMode o y = (let stands : Mode := if latched = [] then .standing else .stopped
      if y.join.kind = .afterRestore then
        (if y.join.restoredMode = some .topped then .topped
        else if y.join.restoredMode = some .stopped then .stopped
        else if y.join.restoredMode = some .standing then stands
        else if latched = [] then .paused else .stopped)
      else stands) := by
  have none_ : (y.noneLatched = true) = (latched = []) := by
    rw [State.noneLatched, hl]
    exact propext List.isEmpty_iff
  cases o with
  | restore =>
    rw [if_pos (ho.mp rfl)]
    dsimp only [outcomeMode]
    simp only [none_]
    cases y.join.restoredMode with
    | none => rfl
    | some m => cases m <;> rfl
  | fresh =>
    rw [if_neg fun k => absurd (ho.mpr k) nofun]
    simp only [outcomeMode, none_]
  | adoption =>
    rw [if_neg fun k => absurd (ho.mpr k) nofun]
    simp only [outcomeMode, none_]

/-- A join that has ended (R175 to R179). -/
theorem decideJoin_ends (h : Listens s) (hk : s.join.kind = .afterCommit ∨ s.join.kind = .afterRestore)
    (he : s.peers.links = [] ∨ availableOf s ≠ []) (view : SeenAs (decideJoin s) t) : JoinEnded s t := by
  obtain ⟨o, decided, restores, commits⟩ := joinDecision_spec h he
  let x := applyOutcome o s
  let y := armDeck x
  let w := takeOutcome o y
  have whole : decideJoin s = w := by
    unfold decideJoin
    rw [decided]
    rfl
  rw [whole] at view
  have restore_iff : o = .restore ↔ s.join.kind = .afterRestore := by
    refine ⟨fun k => ?_, restores⟩
    by_contra q
    obtain ⟨fresh, adopts⟩ := commits q
    by_cases hl : s.peers.links = []
    · exact absurd (k.symm.trans (fresh (.inl hl))) nofun
    · by_cases hc : ∃ p ∈ availableOf s, p.strokeCount ≠ some 0 ∨ p.height ≠ some s.setup.programStart
      · exact absurd (k.symm.trans (adopts hl hc)) nofun
      · exact absurd (k.symm.trans (fresh (.inr hc))) nofun
  obtain ⟨outcome, made⟩ := applyOutcome_spec (o := o) h fun k => hk.resolve_right fun q => k (restores q)
  have effX : x.effectiveMode = .joining := (effectiveMode_of_ctl outcome.ctl).trans h.effective
  have stillX : AllStill x := fun ch => by
    obtain ⟨state, pending⟩ := outcome.still ch
    rw [state, pending]
    exact h.still ch
  have armed := armDeck_spec (s := x) (by rw [effX]; rfl) stillX
  obtain ⟨p, a, b, armedE⟩ := armed.same
  have yE : y = _ := armedE
  have yCtl : y.ctl = s.ctl := (congrArg State.ctl yE :).trans outcome.ctl
  have yFeed : y.feed.state = .idle := (congrArg (fun z : State => z.feed.state) yE :).trans (by
    show x.feed.state = _
    rw [outcome.feed]
    exact h.idle)
  have yPeers : y.peers = s.peers := (congrArg State.peers yE :).trans outcome.aside.peers
  have ySetup : y.setup = s.setup := (congrArg State.setup yE :).trans outcome.aside.setup
  have yCure : y.cure = s.cure := (congrArg State.cure yE :).trans outcome.aside.cure
  have ySeq : y.seq = x.seq := (congrArg State.seq yE :)
  have yStack : y.stack = x.stack := (congrArg State.stack yE :)
  have yJoin : y.join.state = .done ∧ y.join.listenTimer = none ∧ y.join.kind = s.join.kind
      ∧ y.join.restoredMode = s.join.restoredMode := by
    obtain ⟨i, j, e⟩ := outcome.aside.join
    rw [yE]
    refine ⟨rfl, rfl, ?_, ?_⟩
    · show x.join.kind = _
      rw [e]
    · show x.join.restoredMode = _
      rw [e]
  obtain ⟨yState, yTimer, yKind, yRestored⟩ := yJoin
  have handed : Handed y w := by
    rcases h.mode with k | ⟨k, -⟩
    · exact (takeOutcome_joining (o := o) (by rw [yCtl]; exact k) yFeed).1
    · exact (takeOutcome_reduced (o := o) (by rw [yCtl]; exact k)).1
  have tJoin : t.join.state = .done ∧ t.join.listenTimer = none := by
    obtain ⟨i, j, e⟩ := handed.aside.join
    rw [view.join, e]
    exact ⟨yState, yTimer⟩
  have tPeers : t.peers = s.peers := view.peers.trans (handed.aside.peers.trans yPeers)
  have tAvail : availableOf t = availableOf s := by rw [availableOf, tPeers]; rfl
  have tHeight : t.seq.height = x.seq.height := by rw [view.seq, handed.height, ySeq]
  have tStrokes : t.seq.strokeCount = x.seq.strokeCount := by rw [view.seq, handed.strokes, ySeq]
  have tChan : ∀ ch : Ch, t.chan ch = x.seq.chans.get ch := fun ch => by
    rw [State.chan, view.seq, handed.chans, ySeq]
  have tStack : t.stack = x.stack := by rw [view.stack, handed.stack, yStack]
  have tLatched : y.sup.latched = t.sup.latched := by rw [view.latched, handed.sup]
  have tSetup : t.setup = s.setup := by
    rw [State.setup, view.join]
    exact handed.aside.setup.trans ySetup
  have tHold : t.holdPresent = y.holdPresent := by
    rw [view.hold]
    exact holdPresent_of_same (by rw [handed.sup]) handed.aside.setup (by rw [handed.sup])
  have tAll : allAvailable t = allAvailable y := by
    have near : available t = available y := funext fun n => by simp only [available, peerOf, tPeers, yPeers]
    rw [allAvailable, allAvailable, near, tPeers, yPeers]
  have tTop : atTop t = atTop y := by
    rw [atTop, atTop, tSetup, ySetup, tHeight, ySeq]
  have mode_ := outcomeMode_eq (o := o) (y := y) tLatched (by rw [yKind]; exact restore_iff)
  rw [yKind, yRestored] at mode_
  unfold JoinEnded
  intro r ps climbed mean least activeAt stands outcome_
  have outcomeE : outcomeMode o y = outcome_ := by
    rw [mode_]
    show _ = (if s.join.kind = .afterRestore then _ else _)
    by_cases q : s.join.kind = .afterRestore
    · rw [if_pos q, if_pos q]
      cases s.join.restoredMode with
      | none => rfl
      | some m => cases m <;> rfl
    · rw [if_neg q, if_neg q]
  have heights : ∀ h : Nat, x.seq.height = h → x.seq.chans = heightened h s.seq.chans → activeAt h := fun h hh hq =>
    ⟨tHeight.trans hh, fun ch _ => by
      rw [tChan, hq]
      exact heightened_climbed h s.seq.chans ch⟩
  refine ⟨tJoin.1, tJoin.2, ?_, ?_, fun hc hf => ?_, fun hc hl hf => ?_, fun hr => ?_, fun hm => ?_, fun hm => ?_⟩
  · rw [view.armed, handed.sup]
    exact armed.armed
  · rw [view.cure, handed.aside.cure, yCure]
  · have fresh : o = .fresh := (commits (by rw [hc]; exact nofun)).1 (tAvail ▸ hf)
    obtain ⟨height, chans, strokes, layers⟩ : OutcomeOf .fresh s x := by rw [← fresh]; exact made
    exact ⟨heights _ height chans, tStrokes.trans strokes, by rw [tStack]; exact layers⟩
  · have adopts : o = .adoption := (commits (by rw [hc]; exact nofun)).2 hl (tAvail ▸ hf)
    obtain ⟨height, chans, strokes, stack⟩ : OutcomeOf .adoption s x := by rw [← adopts]; exact made
    have mean_ : adoptedHeight s = mean := by
      rw [adoptedHeight_eq h.distinct, ← tAvail]
    have least_ : adoptedMaturity s = least := by
      rw [adoptedMaturity_eq h.distinct, ← tAvail]
    obtain ⟨bareLayers, bareTop⟩ := h.bare hc
    have adopted : t.stack = adoptedStack mean s := by rw [tStack, ← mean_]; exact stack
    refine ⟨heights mean (height.trans mean_) (by rw [← mean_]; exact chans), tStrokes.trans strokes,
      fun depth hd => ?_, fun hd => ?_⟩
    · rw [adopted]
      unfold adoptedStack
      rw [hd, ← least_]
      exact ⟨rfl, rfl⟩
    · rw [adopted]
      unfold adoptedStack
      rw [hd]
      exact ⟨bareLayers, bareTop⟩
  · have restore : o = .restore := restores hr
    obtain ⟨seq, stack⟩ : OutcomeOf .restore s x := by rw [← restore]; exact made
    refine ⟨tHeight.trans (congrArg Sequencer.height seq), tStack.trans stack, tStrokes.trans (congrArg Sequencer.strokeCount seq),
      fun ch _ => ?_⟩
    rw [tChan]
    exact (congrArg (fun q : Sequencer => (q.chans.get ch).climbed) seq :)
  · obtain ⟨-, ctl⟩ := takeOutcome_reduced (o := o) (y := y) (by rw [yCtl]; exact hm)
    rw [view.ctl, show w.ctl = _ from ctl, outcomeE, ← tHold, ← tAll, yCtl]
    exact ⟨hm, rfl, rfl⟩
  · have joining : y.ctl.mode = .joining := by
      rw [yCtl]
      exact h.mode.resolve_right fun k => hm k.1
    obtain ⟨-, ctl⟩ := takeOutcome_joining (o := o) (y := y) joining yFeed
    have waits : waitingSegment t = waitingSegment y := by
      have released : t.ctl.released = y.ctl.released := by
        rw [view.ctl, show w.ctl = _ from ctl]
      simp only [waitingSegment, unreleased, tSetup, ySetup, tHeight, ySeq, released]
    rw [view.ctl, show w.ctl = _ from ctl, outcomeE, ← tHold, ← tAll, ← tTop, ← waits]
    by_cases both : outcome_ = .paused ∧ atTop t = false
    · have low : ¬(outcome_.works = true ∧ atTop t = true) := fun q => absurd (both.2.symm.trans q.2) nofun
      rw [if_neg low, if_neg low, if_pos both, if_pos both.1, if_pos both.1]
      exact ⟨rfl, rfl, fun _ => ⟨rfl, rfl, rfl, rfl⟩⟩
    · refine ⟨rfl, ?_, fun k => ?_⟩
      · by_cases high : outcome_.works = true ∧ atTop t = true
        · exact (if_pos high).trans (if_pos high).symm
        · have other : outcome_ ≠ .paused := fun q => both ⟨q, Bool.eq_false_iff.mpr fun z => high ⟨by rw [q]; rfl, z⟩⟩
          exact ((if_neg high).trans (if_neg other)).trans ((if_neg high).trans (if_neg other)).symm
      · have mem : outcome_ ∈ [Mode.standing, .stopped, .topped, .paused] := outcomeE ▸ outcomeMode_mem o y
        by_cases high : outcome_.works = true ∧ atTop t = true
        · exact absurd ((congrArg Mode.climbs (if_pos high)).symm.trans k) nofun
        · have other : outcome_ ≠ .paused := fun q => both ⟨q, Bool.eq_false_iff.mpr fun z => high ⟨by rw [q]; rfl, z⟩⟩
          have k : outcome_.climbs = true := (congrArg Mode.climbs ((if_neg high).trans (if_neg other))).symm.trans k
          simp only [List.mem_cons, List.not_mem_nil, or_false] at mem
          rcases mem with q | q | q | q
          · rw [q] at k; cases k
          · rw [q] at k; cases k
          · rw [q] at k; cases k
          · exact absurd q other

/-- The moment, the peer table, the record, every presence but JACK SPREAD's and every entry but the deck
supervisions' through the end of a join. -/
theorem decideJoin_kept (h : Listens s) (hk : s.join.kind = .afterCommit ∨ s.join.kind = .afterRestore) :
    (decideJoin s).now = s.now ∧ (decideJoin s).peers = s.peers ∧ (decideJoin s).setup = s.setup
      ∧ (decideJoin s).cure = s.cure ∧ (∀ d, d ≠ .jackSpread → (decideJoin s).isPresent d = s.isPresent d)
      ∧ ∀ d : Cond, d.isDeck = false → (decideJoin s).isLatched d = s.isLatched d := by
  by_cases he : s.peers.links = [] ∨ availableOf s ≠ []
  · obtain ⟨o, decided, restores, -⟩ := joinDecision_spec h he
    let x := applyOutcome o s
    let y := armDeck x
    have whole : decideJoin s = takeOutcome o y := by
      unfold decideJoin
      rw [decided]
      rfl
    obtain ⟨outcome, -⟩ := applyOutcome_spec (o := o) h fun k => hk.resolve_right fun q => k (restores q)
    have effX : x.effectiveMode = .joining := (effectiveMode_of_ctl outcome.ctl).trans h.effective
    have stillX : AllStill x := fun ch => by
      obtain ⟨state, pending⟩ := outcome.still ch
      rw [state, pending]
      exact h.still ch
    have armed := armDeck_spec (s := x) (by rw [effX]; rfl) stillX
    obtain ⟨p, a, b, e⟩ := armed.same
    have yCtl : y.ctl = s.ctl := (congrArg State.ctl e :).trans outcome.ctl
    have yFeed : y.feed.state = .idle := (congrArg (fun z : State => z.feed.state) e :).trans (by
      show x.feed.state = _
      rw [outcome.feed]
      exact h.idle)
    have handed : Handed y (takeOutcome o y) := by
      rcases h.mode with k | ⟨k, -⟩
      · exact (takeOutcome_joining (o := o) (by rw [yCtl]; exact k) yFeed).1
      · exact (takeOutcome_reduced (o := o) (by rw [yCtl]; exact k)).1
    rw [whole]
    refine ⟨handed.aside.now.trans ((congrArg State.now e :).trans outcome.aside.now),
      handed.aside.peers.trans ((congrArg State.peers e :).trans outcome.aside.peers),
      handed.aside.setup.trans ((congrArg State.setup e :).trans outcome.aside.setup),
      handed.aside.cure.trans ((congrArg State.cure e :).trans outcome.aside.cure), fun d k => ?_, fun d k => ?_⟩
    · rw [State.isPresent, handed.sup]
      exact (congrArg (·.contains d) armed.present :).trans (outcome.marks d k)
    · rw [State.isLatched, handed.sup]
      exact (armed.entries d k).trans (congrArg (·.contains d) outcome.latched)
  · obtain ⟨hl, ha⟩ := not_or.mp he
    rw [decideJoin_waits h.distinct hl (not_not.mp ha)]
    exact ⟨rfl, rfl, rfl, rfl, fun _ _ => rfl, fun _ _ => rfl⟩

/-- What of the state before it the end of a join looks at. -/
theorem JoinEnded.of_same (h : JoinEnded u t) (hjoin : u.join = s.join) (hseq : u.seq = s.seq)
    (hstack : u.stack = s.stack) (hcure : u.cure = s.cure) (hfeed : u.feed = s.feed) (hctl : u.ctl = s.ctl)
    (hlinks : u.peers.links = s.peers.links) : JoinEnded s t := by
  have hsetup : u.setup = s.setup := by rw [State.setup, hjoin]; rfl
  have hchan : ∀ ch, u.chan ch = s.chan ch := fun ch => by rw [State.chan, hseq]; rfl
  unfold JoinEnded at h ⊢
  simp only [hjoin, hseq, hstack, hcure, hfeed, hctl, hlinks, hsetup, hchan] at h ⊢
  exact h

theorem Sound.kind_of_join (hs : Sound s) (hj : s.join.state ≠ .none) :
    s.join.kind = .afterCommit ∨ s.join.kind = .afterRestore := by
  obtain ⟨-, -, kind, state, -⟩ := hs.join
  have committed : (s.join.state != .none) = true := bne_iff_ne.mpr hj
  have known : (s.join.kind != .none) = true := kind.trans (state.symm.trans committed)
  cases hk : s.join.kind with
  | none => rw [hk] at known; cases known
  | afterCommit => exact .inl rfl
  | afterRestore => exact .inr rfl

/-- Settles O52: the decision at the end of a join listen. -/
theorem joinListenEnds : Obligations.JoinListenEnds := by
  intro s d hs hd
  have listening : s.join.state = .listening := by
    obtain ⟨-, -, -, -, -, -, listen, -⟩ := hs.join
    rw [hd] at listen
    exact beq_iff_eq.mp listen.symm
  have h := hs.listens (.inl listening)
  let u : State := { s with now := max s.now d }
  have listens : Listens u :=
    ⟨h.mode, h.pause, h.idle, h.still, h.bare, ⟨h.distinct.records, h.distinct.links⟩, h.heard, h.shallow⟩
  have hk : u.join.kind = .afterCommit ∨ u.join.kind = .afterRestore :=
    hs.kind_of_join (by rw [listening]; exact nofun)
  let w := decideJoin u
  have block : exec .joinListenExpiry s = finish s w := by
    refine congrArg (finish s) ((if_pos ?_).trans ?_)
    · rw [hd]; rfl
    · rw [hd]; rfl
  obtain ⟨now, peers, setup, -⟩ := decideJoin_kept listens hk
  refine ⟨_, block, (settled_now s w).trans now, (settled_peers s w).trans peers, fun hl ha => ?_, fun he => ?_⟩
  · have waits : w = { u with join.state := .waitingForLink, join.listenTimer := none } :=
      decideJoin_waits listens.distinct hl ha
    rw [waits]
    obtain ⟨body, -⟩ := settled_calm hs
      (t := { u with join.state := .waitingForLink, join.listenTimer := none }) rfl fun _ k => k
    exact body
  · have ended : JoinEnded u (settled s w) := decideJoin_ends listens hk he (seenAs_settled hs setup)
    exact ended.of_same rfl rfl rfl rfl rfl rfl rfl

end

end Sys2Proof.Machine
end

section
/-! PROOFS. What arrivals and sweeps bring about beside the records: the conditions of the peer table, TILT, and the
end of a join that waits for a link (R129, R131, R135, R176, R188). -/

namespace Sys2Proof.Machine

-- In order, so that the proofs waiting on one another do not hold a stack each.
set_option Elab.async false

section
variable {s t u v w x : State} {c : Cond}

/-! ### Judgements that change nothing, or a presence mark alone -/

theorem judgeCond_of_same {b : Bool} (h : s.isPresent c = b) : judgeCond c b s = s := by
  cases b with
  | false => exact if_neg (show ¬ s.isPresent c = true from fun k => absurd (h.symm.trans k) nofun)
  | true => exact if_pos h

theorem judgePeers_of_same (hn : s.isPresent .neighbourLost = !allAvailable s)
    (hp : s.isPresent .peerSilent = peerSilent s) : judgePeers s = s := by
  unfold judgePeers
  rw [judgeCond_of_same hn]
  exact judgeCond_of_same hp

/-- A condition without class effect is judged in a station that neither climbs nor pauses. -/
theorem judge_of_outside (hc : s.effectiveMode.climbs = false) (hp : s.ctl.pause = .empty) (hl : s.latching c = false)
    (b : Bool) : ∃ cs : List Cond, judgeCond c b s = { s with sup.present := cs } := by
  cases b with
  | false => exact lapse_of_outside hc hp c
  | true =>
    rcases raiseCond_cases c s with ⟨-, e⟩ | ⟨-, k, -⟩ | ⟨-, -, e⟩
    · exact ⟨s.sup.present, e⟩
    · exact absurd (hl.symm.trans k) nofun
    · exact ⟨_, e.trans (followHold_of_outside (s := { s with sup.present := s.sup.present ++ [c] }) hc hp _)⟩

/-- The peer table judged in a station whose deck supervisions are not armed (R135, R185). -/
theorem judgePeers_of_outside (hc : s.effectiveMode.climbs = false) (hp : s.ctl.pause = .empty)
    (ha : s.sup.armed = false) : ∃ cs : List Cond, judgePeers s = { s with sup.present := cs } := by
  obtain ⟨ns, en⟩ := judge_of_outside (c := .neighbourLost) hc hp (latching_of_unarmed rfl ha) (!allAvailable s)
  obtain ⟨cs, ec⟩ := judge_of_outside (s := { s with sup.present := ns }) (c := .peerSilent) hc hp
    (latching_of_unarmed rfl ha) (peerSilent { s with sup.present := ns })
  refine ⟨cs, ?_⟩
  unfold judgePeers
  rw [en]
  exact ec

theorem checkRejoin_of_clear (h : s.ctl.pause.rejoin = false) : checkRejoin s = s := by
  rcases checkRejoin_cases s with ⟨k, -⟩ | ⟨-, e⟩
  · exact absurd (h.symm.trans k) nofun
  · exact e

theorem Listens.marked (h : Listens s) (cs : List Cond) : Listens { s with sup.present := cs } :=
  ⟨h.mode, h.pause, h.idle, h.still, h.bare, ⟨h.distinct.records, h.distinct.links⟩, h.heard, h.shallow⟩

/-- A station that listens, with other records of the same numbers. -/
theorem Listens.recorded {l : Line} {p : Peers} (h : Listens s) (n : Nat) (hd : Distinct { s with peers := p })
    (hh : ∀ q ∈ p.records, q.liveness = .live → q.strokeCount.isSome = true) :
    Listens { s with now := n, peers := p, line := l } :=
  ⟨h.mode, h.pause, h.idle, h.still, h.bare, ⟨hd.records, hd.links⟩, hh, h.shallow⟩

/-! ### Availability through a change of the records -/

theorem distinct_map {f : Peer → Peer} (h : Distinct s) (hn : ∀ p, (f p).number = p.number)
    (ht : t.peers.records = s.peers.records.map f) (hl : t.peers.links = s.peers.links) : Distinct t := by
  refine ⟨?_, by rw [hl]; exact h.links⟩
  rw [ht, List.map_map, show Peer.number ∘ f = Peer.number from funext hn]
  exact h.records

theorem allAvailable_map {f : Peer → Peer} (h : Distinct s) (hn : ∀ p, (f p).number = p.number)
    (ht : t.peers.records = s.peers.records.map f) (hl : t.peers.links = s.peers.links)
    (hf : ∀ p ∈ s.peers.records, p.number ∈ s.peers.links →
      (((f p).liveness = .live ∧ (f p).height.isSome = true) ↔ (p.liveness = .live ∧ p.height.isSome = true))) :
    allAvailable t = allAvailable s := by
  have known : ∀ m ∈ s.peers.links, available t m = available s m := by
    intro m hm
    rw [Bool.eq_iff_iff, available_iff_of_distinct h, available_iff_of_distinct (distinct_map h hn ht hl), ht]
    constructor
    · rintro ⟨q, hq, e, k⟩
      obtain ⟨p, hp, rfl⟩ := List.mem_map.mp hq
      have e : p.number = m := (hn p).symm.trans e
      exact ⟨p, hp, e, (hf p hp (e.symm ▸ hm)).mp k⟩
    · rintro ⟨p, hp, e, k⟩
      exact ⟨f p, List.mem_map_of_mem hp, (hn p).trans e, (hf p hp (e.symm ▸ hm)).mpr k⟩
  rw [allAvailable, allAvailable, hl, Bool.eq_iff_iff, List.all_eq_true, List.all_eq_true]
  exact forall₂_congr fun m hm => by rw [known m hm]

theorem peerSilent_map {f : Peer → Peer} (hn : ∀ p, (f p).number = p.number)
    (ht : t.peers.records = s.peers.records.map f) (hl : t.peers.links = s.peers.links)
    (hf : ∀ p ∈ s.peers.records, p.number ∉ s.peers.links → ((f p).liveness = .silent ↔ p.liveness = .silent)) :
    peerSilent t = peerSilent s := by
  rw [peerSilent, peerSilent, ht, hl, List.any_map, Bool.eq_iff_iff, List.any_eq_true, List.any_eq_true]
  refine exists_congr fun p => and_congr_right fun hp => ?_
  simp only [Function.comp, hn, Bool.and_eq_true, beq_iff_eq, Bool.not_eq_true', List.contains_eq_mem,
    decide_eq_false_iff_not]
  exact and_congr_left fun k => hf p hp k

/-! ### TILT -/

theorem tilted_congr (h : Aside s t) (hh : t.seq.height = s.seq.height) : tilted t = tilted s := by
  have heightSet : t.heightSet = s.heightSet := by rw [State.heightSet, h.join_kind, h.join_state]; rfl
  rw [tilted, tilted, heightSet, linkedFloor, linkedFloor, linkedCeiling, linkedCeiling, h.linkedHeights, hh, h.setup]

theorem tilted_eq_true_iff : tilted s = true ↔ s.heightSet = true ∧ ∃ x ∈ linkedHeights s,
    s.setup.tiltMax < s.seq.height - x ∨ s.setup.tiltMax < x - s.seq.height := by
  cases h : s.heightSet with
  | true => exact (tilted_iff h).trans (and_iff_right rfl).symm
  | false =>
    rw [tilted, h, Bool.false_and]
    exact ⟨nofun, fun k => nomatch k.1⟩

/-- TILT after an arrival of station `n`: judged where that is linked (R188). -/
theorem arrived_tilt (h : Ready s) (n : Nat) :
    (arrived n s).isPresent .tilt = if n ∈ s.peers.links then tilted s else s.isPresent .tilt := by
  obtain ⟨ready, aside, -, seq, sup, -⟩ := feedArrival_spec h
  obtain ⟨judged, ready, -⟩ := ready.judgePeers
  let v := judgePeers (feedArrival s)
  let u := if v.peers.links.contains n then judgeTilt v else v
  have through : Aside s v := aside.trans judged.aside
  have links : v.peers.links = s.peers.links := by rw [through.peers]
  have last : (checkRejoin u).sup = u.sup := by
    have readyU : Ready u := by
      by_cases k : v.peers.links.contains n = true
      · rw [show u = judgeTilt v from if_pos k]
        exact (ready.judge .tilt _).2
      · rw [show u = v from if_neg k]
        exact ready
    exact readyU.checkRejoin.2.2.1
  have same : (arrived n s).isPresent .tilt = u.isPresent .tilt := (congrArg (·.present.contains .tilt) last :)
  rw [same]
  by_cases k : n ∈ s.peers.links
  · have here : v.peers.links.contains n = true := by rw [links]; exact List.contains_iff_mem.mpr k
    rw [if_pos k, show u = judgeTilt v from if_pos here]
    refine (judgeCond_isPresent .tilt (tilted v) v).trans (tilted_congr through ?_)
    exact judged.height.trans (by rw [seq])
  · have absent : ¬ v.peers.links.contains n = true := by
      rw [links]
      exact fun q => k (List.contains_iff_mem.mp q)
    rw [if_neg k, show u = v from if_neg absent]
    refine (judgeCond_isPresent_of_ne (c := .peerSilent) (d := .tilt) nofun _ _).trans ?_
    refine (judgeCond_isPresent_of_ne (c := .neighbourLost) (d := .tilt) nofun _ _).trans ?_
    exact (congrArg (·.present.contains .tilt) sup :)

/-- TILT that an arrival makes present is latched (R184). -/
theorem arrived_enters (h : Ready s) (n : Nat) (harm : s.sup.armed = true)
    (hc : s.classOf .tilt = .latch ∨ s.classOf .tilt = .trip) (hp : s.isPresent .tilt = false)
    (ht : (arrived n s).isPresent .tilt = true) : (arrived n s).isLatched .tilt = true := by
  obtain ⟨ready, aside, -, -, sup, -⟩ := feedArrival_spec h
  obtain ⟨judged, ready, -⟩ := ready.judgePeers
  let v := judgePeers (feedArrival s)
  have links : v.peers.links = s.peers.links := by rw [(aside.trans judged.aside).peers]
  have tilt := arrived_tilt h n
  by_cases k : n ∈ s.peers.links
  · have here : v.peers.links.contains n = true := by rw [links]; exact List.contains_iff_mem.mpr k
    have whole : arrived n s = checkRejoin (judgeTilt v) := congrArg checkRejoin (if_pos here)
    have last : (arrived n s).sup = (judgeTilt v).sup := by
      rw [whole]
      exact (ready.judge .tilt _).2.checkRejoin.2.2.1
    have absent : v.isPresent .tilt = false := by
      refine (judgeCond_isPresent_of_ne (c := .peerSilent) (d := .tilt) nofun _ _).trans ?_
      refine (judgeCond_isPresent_of_ne (c := .neighbourLost) (d := .tilt) nofun _ _).trans ?_
      exact (congrArg (·.present.contains .tilt) sup :).trans hp
    have armed : v.sup.armed = true := by
      refine (judgeCond_armed .peerSilent _ _).trans ((judgeCond_armed .neighbourLost _ _).trans ?_)
      rw [sup]
      exact harm
    have latching : v.latching .tilt = true := by
      rw [State.latching, (aside.trans judged.aside).classOf .tilt, State.effective, armed, Bool.or_true, Bool.and_true]
      rcases hc with k | k <;> rw [k] <;> rfl
    have shown : (judgeTilt v).isPresent .tilt = true := (congrArg (·.present.contains .tilt) last :).symm.trans ht
    exact (congrArg (·.latched.contains .tilt) last :).trans (judgeCond_enters absent latching shown)
  · rw [if_neg k, hp] at tilt
    exact absurd (tilt.symm.trans ht) nofun

/-! ### A join that waits for a link -/

/-- What an arrival or a sweep leaves of a state that may end its join there. -/
theorem joinIfWaiting_kept (h : x.join.state = .waitingForLink →
      Listens x ∧ (x.join.kind = .afterCommit ∨ x.join.kind = .afterRestore)) :
    (joinIfWaiting x).now = x.now ∧ (joinIfWaiting x).peers = x.peers ∧ (joinIfWaiting x).setup = x.setup
      ∧ (joinIfWaiting x).cure = x.cure ∧ (∀ d, d ≠ .jackSpread → (joinIfWaiting x).isPresent d = x.isPresent d)
      ∧ ∀ d : Cond, d.isDeck = false → (joinIfWaiting x).isLatched d = x.isLatched d := by
  by_cases k : x.join.state = .waitingForLink
  · obtain ⟨listens, kind⟩ := h k
    rw [show joinIfWaiting x = decideJoin x from if_pos k]
    exact decideJoin_kept listens kind
  · rw [joinIfWaiting_of_ne k]
    exact ⟨rfl, rfl, rfl, rfl, fun _ _ => rfl, fun _ _ => rfl⟩

/-- A join that waits for a link tests again (R176). -/
theorem waitEnds_of (hs : Sound s) (hx : s.join.state = .waitingForLink → Listens x) (hjoin : x.join = s.join)
    (hseq : x.seq = s.seq) (hstack : x.stack = s.stack) (hcure : x.cure = s.cure) (hfeed : x.feed = s.feed)
    (hctl : x.ctl = s.ctl) (hlinks : x.peers.links = s.peers.links) : WaitEnds s (settled s (joinIfWaiting x)) := by
  intro waits
  have listens := hx waits
  have kind : x.join.kind = .afterCommit ∨ x.join.kind = .afterRestore := by
    rw [hjoin]
    exact hs.kind_of_join (by rw [waits]; exact nofun)
  have tests : joinIfWaiting x = decideJoin x := if_pos (by rw [hjoin]; exact waits)
  rw [tests]
  obtain ⟨-, peers, setup, -⟩ := decideJoin_kept listens kind
  have record : x.setup = s.setup := by rw [State.setup, hjoin]; rfl
  have avail : availableOf (settled s (decideJoin x)) = availableOf x := by
    rw [availableOf, settled_peers, peers]
    rfl
  rw [avail, ← hlinks]
  refine ⟨fun hl ha => ?_, fun he => ?_⟩
  · rw [decideJoin_waits listens.distinct hl ha, settled_join, settled_ctl]
    exact ⟨rfl, hctl⟩
  · exact (decideJoin_ends listens kind he (seenAs_settled hs (setup.trans record))).of_same hjoin hseq hstack hcure hfeed
      hctl hlinks

/-- A station that waits for a link feeds nothing, is not armed and waits for no neighbour. -/
theorem Sound.waiting (hs : Sound s) (hj : s.join.state = .waitingForLink) :
    s.sup.armed = false ∧ s.feed.state = .idle ∧ s.ctl.pause = .empty ∧ s.effectiveMode.climbs = false := by
  obtain ⟨-, -, -, -, -, -, -, -, -, -, -, armed, -⟩ := hs.join
  have listens := hs.listens (.inr hj)
  exact ⟨by rw [armed, hj]; rfl, listens.idle, listens.pause, listens.outside⟩

end

end Sys2Proof.Machine
end

section
/-! PROOFS. A report is entered and handed on (R126 to R129, R188, R203). -/

namespace Sys2Proof.Machine

-- In order, so that the proofs waiting on one another do not hold a stack each.
set_option Elab.async false

section
variable {s t u v w x : State} {c : Cond}

/-- A receiver finds no height in the report of a station in SETUP, LOCKED or JOINING (R126). -/
theorem decodeReport_height {n : Nat} {r : Report} (h : decodeReport n = some r)
    (hm : r.mode ∈ [Mode.setup, .locked, .joining]) : r.height = none := by
  have dull : r.mode.reportsHeight = false := by
    simp only [List.mem_cons, List.not_mem_nil, or_false] at hm
    rcases hm with k | k | k <;> rw [k] <;> rfl
  unfold decodeReport at h
  dsimp only at h
  split at h
  · generalize unpackFields reportWidths n = codes at h
    unfold reportOfCodes at h
    split at h
    · simp only [Option.bind_eq_bind, Option.bind_eq_some_iff, Option.pure_def, Option.some.injEq] at h
      obtain ⟨m, -, f, -, x, -, l, -, ca, -, cb, -, cc, -, cd, -, rfl⟩ := h
      exact if_pos (.inl dull)
    · cases h
  · cases h

/-- An arrival in a station that waits for a link (R129, R185). -/
theorem arrived_of_listens (h : Listens s) (ha : s.sup.armed = false) (n : Nat) :
    ∃ cs : List Cond, arrived n s = { s with sup.present := cs } := by
  have fed : feedArrival s = s := by rw [feedArrival, h.idle]
  obtain ⟨cs, e⟩ := judgePeers_of_outside h.outside h.pause ha
  obtain ⟨ds, d⟩ := judge_of_outside (s := { s with sup.present := cs }) (c := .tilt) h.outside h.pause
    (latching_of_unarmed rfl ha) (tilted { s with sup.present := cs })
  have clear : s.ctl.pause.rejoin = false := by rw [h.pause]; rfl
  unfold arrived
  rw [fed, e]
  by_cases k : s.peers.links.contains n = true
  · refine ⟨ds, (congrArg checkRejoin ((if_pos k).trans d)).trans ?_⟩
    exact checkRejoin_of_clear (s := { s with sup.present := ds }) clear
  · refine ⟨cs, (congrArg checkRejoin (if_neg k)).trans ?_⟩
    exact checkRejoin_of_clear (s := { s with sup.present := cs }) clear

/-- A report that is not entered changes nothing (R127, R203). -/
theorem exec_report_of_ignored (hs : Sound s) {sender : BitVec 6} {payload : BitVec 224}
    (ho : sender.toNat = 0 ∨ sender.toNat ≠ s.join.ownNumber)
    (hn : decodeReport payload.toNat = none ∨ sender.toNat ∉ s.peers.records.map Peer.number) :
    ∃ t, exec (.report sender payload) s = .next t ∧ t.body = s.body ∧ t.line.report = s.line.report := by
  have other : ¬(sender.toNat ≠ 0 ∧ sender.toNat = s.join.ownNumber) := fun k => ho.elim k.1 fun q => q k.2
  refine ⟨settled s s, congrArg (finish s) ((if_neg other).trans ?_), settled_of_same hs rfl rfl⟩
  rcases hn with k | k
  · rw [k]
  · cases decodeReport payload.toNat with
    | none => rfl
    | some r =>
      refine if_neg fun q => k ?_
      obtain ⟨p, hp, e⟩ := List.any_eq_true.mp q
      exact List.mem_map.mpr ⟨p, hp, beq_iff_eq.mp e⟩

/-- An arrival that finds its sender neither linked nor SILENT, and nothing that waits for it. -/
theorem arrived_of_dull (hs : Sound s) {n : Nat} {r : Report} (hf : s.feed.state = .idle)
    (hr : s.ctl.pause.rejoin = false) (hl : n ∉ s.peers.links)
    (hq : ∀ p ∈ s.peers.records, p.number = n → p.liveness ≠ .silent) :
    arrived n (entered n r s) = entered n r s := by
  obtain ⟨lost, silent⟩ := hs.availability
  let f (p : Peer) : Peer := if p.number = n then p.enter r else p
  have numbers : ∀ p, (f p).number = p.number := fun p => by
    show Peer.number (if p.number = n then p.enter r else p) = p.number
    split <;> rfl
  have others : ∀ p : Peer, p.number ≠ n → f p = p := fun p k => if_neg k
  have all : allAvailable (entered n r s) = allAvailable s :=
    allAvailable_map (f := f) hs.distinct numbers rfl rfl fun p _ hp => by
      rw [others p fun k => hl (k ▸ hp)]
  have quiet : peerSilent (entered n r s) = peerSilent s :=
    peerSilent_map (f := f) numbers rfl rfl fun p hp _ => by
      by_cases k : p.number = n
      · rw [show f p = p.enter r from if_pos k]
        exact ⟨nofun, fun q => absurd q (hq p hp k)⟩
      · rw [others p k]
  have fed : feedArrival (entered n r s) = entered n r s := by
    rw [feedArrival, show (entered n r s).feed.state = .idle from hf]
  have judged : judgePeers (entered n r s) = entered n r s :=
    judgePeers_of_same (lost.trans (by rw [all])) (silent.trans quiet.symm)
  have unlinked : ¬ (entered n r s).peers.links.contains n = true := fun k => hl (List.contains_iff_mem.mp k)
  unfold arrived
  rw [fed, judged]
  exact (congrArg checkRejoin (if_neg unlinked)).trans (checkRejoin_of_clear hr)

/-- Settles O37: the report enters the record, the arrival is handed on, and a join that waits tests again. -/
theorem reportEntersRecord : Obligations.ReportEntersRecord := by
  intro s sender payload hs n nothing numbers
  refine ⟨fun hr ho => exec_report_of_ignored hs ho (.inl hr), fun hn ho => exec_report_of_ignored hs ho (.inr hn),
    ?_⟩
  intro r hr hn entered_
  let v := entered n r s
  let x := arrived n v
  let w := joinIfWaiting x
  have ready : Ready v := hs.ready.entered n r
  obtain ⟨fedReady, fedAside, fedCtl, fedSeq, fedSup, fedFeed, -⟩ := feedArrival_spec ready
  obtain ⟨onward, -, rejoins⟩ := arrived_spec n ready
  have aside : Aside v x := fedAside.trans onward.aside
  have waits : s.join.state = .waitingForLink → Listens v ∧ ∃ cs : List Cond, x = { v with sup.present := cs } := by
    intro k
    have listens := hs.listens (.inr k)
    have distinct : Distinct v := by
      refine distinct_map (f := fun p => if p.number = n then p.enter r else p) listens.distinct (fun p => ?_) rfl rfl
      split <;> rfl
    have here : Listens v := listens.recorded s.now distinct fun q hq live => by
      obtain ⟨p, hp, rfl⟩ := List.mem_map.mp hq
      by_cases e : p.number = n
      · rw [if_pos e]; rfl
      · rw [if_neg e] at live ⊢
        exact listens.heard p hp live
    exact ⟨here, arrived_of_listens here (hs.waiting k).1 n⟩
  have joins : x.join.state = .waitingForLink →
      Listens x ∧ (x.join.kind = .afterCommit ∨ x.join.kind = .afterRestore) := by
    intro k
    have k : s.join.state = .waitingForLink := aside.join_state.symm.trans k
    obtain ⟨here, cs, e⟩ := waits k
    rw [e]
    exact ⟨here.marked cs, hs.kind_of_join (by rw [k]; exact nofun)⟩
  obtain ⟨now, peers, -, cure, marks, -⟩ := joinIfWaiting_kept joins
  have block : exec (.report sender payload) s = finish s w := exec_report_of_entered hs hr hn
  have records : s.peers.records.map entered_ = v.peers.records := by
    refine List.map_congr_left fun p _ => ?_
    show (if p.number = n then _ else p) = if p.number = n then p.enter r else p
    split
    · rename_i k
      rw [← k]
      rfl
    · rfl
  have tPeers : (settled s w).peers = v.peers := (settled_peers s w).trans (peers.trans aside.peers)
  have tTilt : (settled s w).isPresent .tilt = if n ∈ s.peers.links then tilted v else s.isPresent .tilt :=
    (settled_isPresent s w (c := .tilt) fun _ => nofun).trans ((marks .tilt nofun).trans (arrived_tilt ready n))
  have linked : linkedHeights (settled s w) = linkedHeights v := by
    have near : available (settled s w) = available v := funext fun m => by simp only [available, peerOf, tPeers]
    have peer : peerOf (settled s w) = peerOf v := funext fun m => by simp only [peerOf, tPeers]
    simp only [linkedHeights, availablePeers, near, peer, tPeers]
  have still : s.join.state ≠ .waitingForLink → w = x := fun k =>
    joinIfWaiting_of_ne (by rw [aside.join_state]; exact k)
  refine ⟨settled s w, block, ?_, fun hm p hp e => ?_, (settled_now s w).trans (now.trans aside.now),
    (settled_cure s w).trans (cure.trans aside.cure), fun hl => ?_, fun hl => ?_, fun harm hp ht => ?_,
    fun ha hset hw => ?_, fun hrej => ?_, ?_, fun hf hj hrej hl hq => ?_⟩
  · rw [tPeers, records]
    rfl
  · rw [tPeers, ← records] at hp
    obtain ⟨q, -, rfl⟩ := List.mem_map.mp hp
    show Peer.height (if q.number = n then _ else q) = none
    have own : q.number = n := by
      by_contra k
      rw [show entered_ q = q from if_neg k] at e
      exact k e
    rw [if_pos own]
    exact decodeReport_height hr hm
  · rw [tTilt, if_pos hl, linked]
    exact tilted_eq_true_iff
  · rw [tTilt, if_neg hl]
  · have unwaiting : s.join.state ≠ .waitingForLink := fun k =>
      absurd ((hs.waiting k).1.symm.trans harm) nofun
    have whole := still unwaiting
    have shown : x.isPresent .tilt = true := by
      rw [settled_isPresent s w (c := .tilt) fun _ => nofun, whole] at ht
      exact ht
    obtain ⟨lo, hi⟩ := item_bounds hs.setup.inRange (i := 80) (by decide)
    have class_ : v.classOf .tilt = .latch ∨ v.classOf .tilt = .trip :=
      class_of_code (s := v) (c := .tilt) (v := s.setup.item 81) rfl lo hi
    have latched : x.isLatched .tilt = true := arrived_enters ready n harm class_ hp shown
    refine ⟨?_, fun hw => ?_⟩
    · rw [State.isLatched, settled_sup, whole]
      exact latched
    · have none_ : s.sup.latched = [] := hs.none_of_works hw
      have worked : (feedArrival v).ctl.mode.works = true := by rw [fedCtl]; exact hw
      have stopped : x.ctl.mode.works = false := by
        by_contra k
        have same : x.sup.latched = [] := (onward.works (Bool.not_eq_false _ ▸ k)).2.trans (by rw [fedSup]; exact none_)
        rw [State.isLatched, same] at latched
        cases latched
      rw [settled_ctl, whole]
      exact onward.stops worked stopped
  · have unwaiting : s.join.state ≠ .waitingForLink := fun k =>
      absurd ((hs.waiting k).2.1.symm.trans ha) nofun
    have whole := still unwaiting
    have hw : x.ctl.mode.works = true := by rw [settled_ctl, whole] at hw; exact hw
    obtain ⟨same, chans⟩ := onward.feed_of_works hw
    have feed : (settled s w).feed = arrivedFeed v := by
      rw [settled_feed_of_chans (by rw [whole, chans, fedSeq]; rfl), whole, same, fedFeed]
    have depth : (settled s w).feed.depth = v.feed.depth := by
      rw [feed, arrivedFeed]
      split
      · rfl
      · split <;> rfl
    have own : (settled s w).join.ownNumber = v.join.ownNumber := by
      rw [settled_join, whole]
      exact aside.ownNumber
    have opens : openPeers (settled s w) = openPeers v := by rw [openPeers, tPeers]; rfl
    have asks : askersAbove (settled s w) = askersAbove v := by rw [askersAbove, tPeers, depth, own]; rfl
    rw [feed, opens, asks, arrivedFeed]
    have closed : ¬(v.feed.state = .opened ∧ v.setup.gateMax ≤ lowerOpenPeers v) :=
      fun q => absurd (ha.symm.trans q.1) nofun
    by_cases k : openPeers v + askersAbove v < v.setup.gateMax
    · rw [if_pos ⟨ha, hset, k⟩]
      exact (if_pos k).symm
    · rw [if_neg fun q => k q.2.2, if_neg closed]
      exact ha.trans (if_neg k).symm
  · have unwaiting : s.join.state ≠ .waitingForLink := fun k => by
      rw [(hs.waiting k).2.2.1] at hrej
      cases hrej
    have whole := still unwaiting
    have all : allAvailable (settled s w) = allAvailable x := by
      have near : available (settled s w) = available x := funext fun m => by
        simp only [available, peerOf, tPeers, aside.peers]
      rw [allAvailable, allAvailable, near, tPeers, aside.peers]
    rw [settled_ctl, effectiveMode_of_ctl (settled_ctl s w), all, whole]
    exact rejoins hrej
  · intro k
    obtain ⟨here, cs, e⟩ := waits k
    have ends := waitEnds_of (x := x) hs (fun k => by rw [e]; exact here.marked cs) (by rw [e]; rfl) (by rw [e]; rfl)
      (by rw [e]; rfl) (by rw [e]; rfl) (by rw [e]; rfl) (by rw [e]; rfl) (by rw [e]; rfl)
    exact ends k
  · have whole : w = v := (still hj).trans (arrived_of_dull hs hf hrej hl hq)
    rw [whole, records]
    obtain ⟨body, -, -, report⟩ := settled_calm hs (t := v) rfl fun _ k => k
    exact ⟨body, report.trans (if_pos rfl)⟩

end

end Sys2Proof.Machine
end

section
/-! PROOFS. The age sweep and the periodic report (R130, R131, R156). -/

namespace Sys2Proof.Machine

-- In order, so that the proofs waiting on one another do not hold a stack each.
set_option Elab.async false

section
variable {s t u v w x : State} {c : Cond}

theorem allAvailable_of_peers (h : t.peers = s.peers) : allAvailable t = allAvailable s := by
  have near : available t = available s := funext fun n => by simp only [available, peerOf, h]
  rw [allAvailable, allAvailable, near, h]

/-- A judgement of one condition latches and unlatches no other. -/
theorem judgeCond_isLatched_of_ne {d : Cond} (h : d ≠ c) (b : Bool) (s : State) :
    (judgeCond c b s).isLatched d = s.isLatched d := by
  cases b with
  | false => exact (congrArg (·.contains d) (lapseCond_latched c s) :)
  | true =>
    refine (congrArg (·.contains d) (raiseCond_latched c s) :).trans ?_
    split
    · simp [State.isLatched, h]
    · rfl

/-! ### The records -/

theorem Peer.age_strokeCount (limit : Nat) (p : Peer) : (p.age limit).strokeCount = p.strokeCount := by
  unfold Peer.age
  split
  · split <;> rfl
  · rfl

theorem Peer.age_height (limit : Nat) (p : Peer) : (p.age limit).height = p.height := by
  unfold Peer.age
  split
  · split <;> rfl
  · rfl

theorem Peer.live_of_age {limit : Nat} {p : Peer} (h : (p.age limit).liveness = .live) : p.liveness = .live := by
  unfold Peer.age at h
  split at h
  · assumption
  · exact h

/-- A record that the sweep does not find wanting. -/
theorem Peer.age_liveness {limit : Nat} {p : Peer} (h : p.liveness = .live → p.heard = true ∨ p.miss + 1 < limit) :
    (p.age limit).liveness = p.liveness := by
  unfold Peer.age
  split
  · rename_i live
    split
    · rfl
    · rename_i unheard
      have low := (h live).resolve_left unheard
      exact (if_neg (Nat.not_le.mpr low)).trans live.symm
  · rfl

/-! ### The report timer -/

/-- A sweep leaves the report timer as it runs. -/
theorem ageSweep_reportTimer (s : State) : (ageSweep s).line.reportTimer = s.line.reportTimer := by
  let P : State → Prop := fun u => u.line.reportTimer = s.line.reportTimer
  have F : FeedParts P := {}
  have enter : ∀ (m : Mode) (u : State), P u → P (enterMode m u) := fun m u h => F.enter (by
    split <;> exact h)
  have L : LatchParts P := { enter := fun m u h _ _ => enter m u h }
  have M := L.moves
  have J : JoinParts P :=
    { adopt := fun u h => by unfold adoptStack; split <;> exact h
      leave := fun m u h _ _ => enter m u h }
  have start : P s := rfl
  exact M.ageSweep (M.ageDuplicate start) (fun _ => F.admitIfSettled) fun _ k _ => J.decide M k

/-! ### DUPLICATE NUMBER -/

/-- DUPLICATE NUMBER at a sweep (R130). -/
theorem ageDuplicate_cases (s : State) :
    (s.isPresent .duplicateNumber = false ∧ ageDuplicate s = s)
      ∨ (s.isPresent .duplicateNumber = true ∧ s.peers.dupHeard = true
        ∧ ageDuplicate s = { s with peers.dupHeard := false })
      ∨ (s.isPresent .duplicateNumber = true ∧ s.peers.dupHeard = false ∧ s.peers.dupMiss + 1 < s.setup.missLimit
        ∧ ageDuplicate s = { s with peers.dupMiss := s.peers.dupMiss + 1 })
      ∨ (s.isPresent .duplicateNumber = true ∧ s.peers.dupHeard = false ∧ s.setup.missLimit ≤ s.peers.dupMiss + 1
        ∧ ageDuplicate s = { s with
            peers.dupMiss := s.peers.dupMiss + 1
            sup.present := s.sup.present.filter (· != .duplicateNumber) }) := by
  by_cases hp : s.isPresent .duplicateNumber = true
  · refine .inr ?_
    by_cases hh : s.peers.dupHeard = true
    · exact .inl ⟨hp, hh, (if_pos hp).trans (if_pos hh)⟩
    · refine .inr ?_
      by_cases hl : s.setup.missLimit ≤ s.peers.dupMiss + 1
      · refine .inr ⟨hp, Bool.eq_false_iff.mpr hh, hl, ((if_pos hp).trans (if_neg hh)).trans ((if_pos hl).trans ?_)⟩
        exact lapseCond_of_ne_hold (s := { s with peers.dupMiss := s.peers.dupMiss + 1 }) (c := .duplicateNumber) nofun
      · exact .inl ⟨hp, Bool.eq_false_iff.mpr hh, Nat.lt_of_not_le hl,
          ((if_pos hp).trans (if_neg hh)).trans (if_neg hl)⟩
  · exact .inl ⟨Bool.eq_false_iff.mpr hp, if_neg hp⟩

/-- The count and the mark of the duplicate, and presence marks, changed and nothing else. -/
theorem ageDuplicate_same (s : State) : ∃ (h : Bool) (m : Nat) (cs : List Cond),
    ageDuplicate s = { s with peers.dupHeard := h, peers.dupMiss := m, sup.present := cs }
      ∧ ∀ d, d ≠ .duplicateNumber → cs.contains d = s.isPresent d := by
  rcases ageDuplicate_cases s with ⟨-, e⟩ | ⟨-, -, e⟩ | ⟨-, -, -, e⟩ | ⟨-, -, -, e⟩
  · exact ⟨_, _, _, e, fun _ _ => rfl⟩
  · exact ⟨_, _, _, e, fun _ _ => rfl⟩
  · exact ⟨_, _, _, e, fun _ _ => rfl⟩
  · refine ⟨_, _, _, e, fun d k => ?_⟩
    rw [State.isPresent, Bool.eq_iff_iff]
    simp [k]

theorem Ready.ageDuplicate (h : Ready s) : Ready (ageDuplicate s) := by
  have peered : ∀ p : Peers, Ready { s with peers := p } := fun p =>
    ⟨h.poised.refed (t := { s with peers := p }) h.poised.steady.gate, h.shape⟩
  rcases ageDuplicate_cases s with ⟨-, e⟩ | ⟨-, -, e⟩ | ⟨-, -, -, e⟩ | ⟨-, -, -, e⟩
  · rw [e]
    exact h
  · rw [e]
    exact peered _
  · rw [e]
    exact peered _
  · have lapsed := lapseCond_of_ne_hold (s := { s with peers.dupMiss := s.peers.dupMiss + 1 }) (c := .duplicateNumber)
      nofun
    rw [e, ← lapsed]
    exact ((peered _).lapse .duplicateNumber).2

/-! ### The sweep -/

/-- What a sweep hands on before the join unit (R131). -/
def swept (s : State) : State := checkRejoin (admitIfSettled (judgePeers s))

/-- A sweep's hand-on in a ready station (R9, R115, R131). -/
theorem swept_spec (h : Ready s) :
    Aside s (swept s) ∧ (∀ d, d ≠ .neighbourLost → d ≠ .peerSilent → (swept s).isPresent d = s.isPresent d
        ∧ (swept s).isLatched d = s.isLatched d)
      ∧ (s.feed.state = .asking → s.feed.settled = true → (swept s).ctl.mode.works = true →
        (swept s).feed.depth = s.feed.depth ∧ (swept s).feed.state
          = if openPeers s + askersAbove s < s.setup.gateMax then .opened else .asking)
      ∧ (s.ctl.pause.rejoin = true →
        (swept s).ctl.pause.rejoin = ((swept s).effectiveMode.climbs && !allAvailable (swept s))) := by
  obtain ⟨judged, ready, kept⟩ := h.judgePeers
  let v := judgePeers s
  obtain ⟨readyU, asideU, ctlU, -, supU, -, admits, stays⟩ := admitIfSettled_spec ready
  let u := admitIfSettled v
  obtain ⟨last, -, supW, still, leaves⟩ := readyU.checkRejoin
  have whole : swept s = checkRejoin u := rfl
  have sup : (swept s).sup = v.sup := supW.trans supU
  refine ⟨(judged.aside.trans asideU).trans last.aside, fun d dn dp => ⟨?_, ?_⟩, fun ha hset hw => ?_, fun hr => ?_⟩
  · refine (congrArg (·.present.contains d) sup :).trans ?_
    exact (judgeCond_isPresent_of_ne dp _ _).trans (judgeCond_isPresent_of_ne dn _ _)
  · refine (congrArg (·.latched.contains d) sup :).trans ?_
    exact (judgeCond_isLatched_of_ne dp _ _).trans (judgeCond_isLatched_of_ne dn _ _)
  · have lastFeed : (swept s).feed = u.feed := (last.feed_of_works hw).1
    have vWorks : v.ctl.mode.works = true := by
      rw [← ctlU]
      exact (last.works hw).1
    obtain ⟨vFeed, -⟩ := judged.feed_of_works vWorks
    have vPeers : v.peers = s.peers := judged.aside.peers
    have opens : openPeers v = openPeers s := by rw [openPeers, vPeers]; rfl
    have asks : askersAbove v = askersAbove s := by
      rw [askersAbove, vPeers, judged.aside.ownNumber, vFeed]
      rfl
    have asking : v.feed.state = .asking := by rw [vFeed]; exact ha
    have settled_ : v.feed.settled = true := by rw [vFeed]; exact hset
    have record : v.setup = s.setup := judged.aside.setup
    by_cases k : openPeers s + askersAbove s < s.setup.gateMax
    · have opened : u = openGate v := admits ⟨asking, settled_, by rw [opens, asks, record]; exact k⟩
      rw [lastFeed, opened, if_pos k]
      exact ⟨(congrArg Feed.depth vFeed :), rfl⟩
    · have waits : u = v := stays fun q => k (by rw [← opens, ← asks, ← record]; exact q.2.2)
      rw [lastFeed, waits, show v.feed = s.feed from vFeed, if_neg k]
      exact ⟨rfl, ha⟩
  · have avail : allAvailable (swept s) = allAvailable u := last.aside.allAvailable
    rw [avail]
    by_cases hu : u.ctl.pause.rejoin = true
    · exact leaves hu
    · have same : swept s = u := still (Bool.eq_false_iff.mpr hu)
      rw [same]
      cases hc : u.effectiveMode.climbs with
      | false => rw [Bool.eq_false_iff.mpr hu]; rfl
      | true =>
        obtain ⟨-, rejoin⟩ := (kept.trans (RejoinKept.of_ctl ctlU)) hc
        exact absurd (rejoin.trans hr) hu

/-- A sweep's hand-on in a station that waits for a link (R131, R185). -/
theorem swept_of_listens (h : Listens s) (ha : s.sup.armed = false) :
    ∃ cs : List Cond, swept s = { s with sup.present := cs } := by
  obtain ⟨cs, e⟩ := judgePeers_of_outside h.outside h.pause ha
  have unasked : admitIfSettled { s with sup.present := cs } = { s with sup.present := cs } :=
    if_neg fun k => nomatch (h.idle.symm.trans k.1 : FeedState.idle = .asking)
  refine ⟨cs, ?_⟩
  unfold swept
  rw [e, unasked]
  exact checkRejoin_of_clear (by show s.ctl.pause.rejoin = false; rw [h.pause]; rfl)

theorem ageSweep_eq (s : State) : ageSweep s = joinIfWaiting (swept (ageDuplicate
    { s with peers.records := s.peers.records.map (Peer.age s.setup.missLimit) })) := rfl

/-- A sweep that finds nothing to hand on. -/
theorem swept_of_dull (hn : s.isPresent .neighbourLost = !allAvailable s) (hp : s.isPresent .peerSilent = peerSilent s)
    (hset : s.feed.settled = false) (hr : s.ctl.pause.rejoin = false) : swept s = s := by
  have unasked : admitIfSettled s = s := if_neg fun k => nomatch (hset.symm.trans k.2 : false = true)
  unfold swept
  rw [judgePeers_of_same hn hp, unasked]
  exact checkRejoin_of_clear hr

/-- Settles O39: the report timer restarts, the records age, and the sweep is handed on. -/
theorem ageSweepByTable : Obligations.AgeSweepByTable := by
  intro s d hs hd now limit aged
  let x0 : State := requestReport .periodic
    { s with now := now, line.reportTimer := some (now + s.setup.reportPeriod) }
  let v : State := { x0 with peers.records := s.peers.records.map (Peer.age limit) }
  let y := ageDuplicate v
  let x := swept y
  let w := joinIfWaiting x
  have block : exec .reportTimerExpiry s = finish s w := by
    have expired : expireAt s.line.reportTimer s = { s with now := now } := by rw [hd]; rfl
    show finish s (ageSweep (requestReport .periodic { expireAt s.line.reportTimer s with
      line.reportTimer := some ((expireAt s.line.reportTimer s).now + (expireAt s.line.reportTimer s).setup.reportPeriod) })) = _
    rw [expired]
    rfl
  obtain ⟨h, m, cs, yE, yMarks⟩ := ageDuplicate_same v
  have yE : y = _ := yE
  have readyV : Ready v :=
    ⟨hs.ready.poised.refed (t := v) hs.ready.poised.steady.gate, hs.ready.shape⟩
  have ready : Ready y := readyV.ageDuplicate
  obtain ⟨aside, sides, admits, rejoins⟩ := swept_spec ready
  have agedE : s.peers.records.map aged = s.peers.records.map (Peer.age limit) := by
    refine List.map_congr_left fun p _ => ?_
    show (if p.liveness = .live then _ else p) = Peer.age limit p
    unfold Peer.age
    obtain ⟨number, liveness, miss, heard, height, strokes, feed, deficit, top⟩ := p
    cases liveness with
    | live =>
      rw [if_pos rfl]
      by_cases q : heard = true
      · rw [if_pos q]
        exact (if_pos q).symm
      · refine (if_neg q).trans (Eq.trans ?_ (if_neg q).symm)
        split <;> rfl
    | _ => exact if_neg nofun
  have numbers : ∀ p, (Peer.age limit p).number = p.number := Peer.age_number limit
  have waits : s.join.state = .waitingForLink → Listens y ∧ ∃ cs : List Cond, x = { y with sup.present := cs } := by
    intro k
    have listens := hs.listens (.inr k)
    have distinct : Distinct v := distinct_map listens.distinct numbers rfl rfl
    have here : Listens v := listens.recorded now ⟨distinct.records, distinct.links⟩ fun q hq live => by
      obtain ⟨p, hp, rfl⟩ := List.mem_map.mp hq
      rw [Peer.age_strokeCount]
      exact listens.heard p hp (Peer.live_of_age live)
    have there : Listens y := by
      rw [yE]
      exact (here.recorded v.now (p := { v.peers with dupHeard := h, dupMiss := m })
        ⟨distinct.records, distinct.links⟩ here.heard).marked cs
    have unarmed : y.sup.armed = false := by rw [yE]; exact (hs.waiting k).1
    exact ⟨there, swept_of_listens there unarmed⟩
  have joins : x.join.state = .waitingForLink →
      Listens x ∧ (x.join.kind = .afterCommit ∨ x.join.kind = .afterRestore) := by
    intro k
    have k : s.join.state = .waitingForLink := by
      rw [aside.join_state, yE] at k
      exact k
    obtain ⟨here, ds, e⟩ := waits k
    rw [e]
    refine ⟨here.marked ds, ?_⟩
    rw [yE]
    exact hs.kind_of_join (by rw [k]; exact nofun)
  obtain ⟨nowW, peersW, -, cureW, marks, entries⟩ := joinIfWaiting_kept joins
  have tPeers : (settled s w).peers = y.peers := (settled_peers s w).trans (peersW.trans aside.peers)
  have records : (settled s w).peers.records = s.peers.records.map (Peer.age limit) := by
    rw [tPeers, yE]
  have shown : ∀ e : Cond, (∀ ch, e ≠ .extendTimeout ch) → e ≠ .jackSpread → e ≠ .neighbourLost → e ≠ .peerSilent →
      (settled s w).isPresent e = y.isPresent e := fun e k₁ k₂ k₃ k₄ =>
    (settled_isPresent s w k₁).trans ((marks e k₂).trans (sides e k₃ k₄).1)
  have still : s.join.state ≠ .waitingForLink → w = x := fun k => joinIfWaiting_of_ne (by
    rw [aside.join_state, yE]
    exact k)
  have dupE : y.isPresent .duplicateNumber = (settled s w).isPresent .duplicateNumber :=
    (shown .duplicateNumber (fun _ => nofun) nofun nofun nofun).symm
  refine ⟨settled s w, block, (settled_now s w).trans (nowW.trans (aside.now.trans (by rw [yE]; rfl))), ?_, ?_, ?_,
    (settled_cure s w).trans (cureW.trans (aside.cure.trans (by rw [yE]; rfl))), ?_, fun ha hset hw => ?_,
    fun hrej => ?_, ?_, fun hp => ⟨fun hh => ?_, fun hh => ?_⟩, fun hp hq hset hrej hj => ?_⟩
  · rw [settled_reportTimer]
    exact ageSweep_reportTimer x0
  · rw [records, agedE]
  · rw [tPeers, yE]
    rfl
  · rw [shown .tilt (fun _ => nofun) nofun nofun nofun, yE]
    exact yMarks .tilt nofun
  · have unwaiting : s.join.state ≠ .waitingForLink := fun k =>
      absurd ((hs.waiting k).2.1.symm.trans ha) nofun
    have whole := still unwaiting
    have hw : x.ctl.mode.works = true := by rw [settled_ctl, whole] at hw; exact hw
    obtain ⟨depth, state⟩ := admits (by rw [yE]; exact ha) (by rw [yE]; exact hset) hw
    have opens : openPeers (settled s w) = openPeers y := by rw [openPeers, tPeers]; rfl
    have asks : askersAbove (settled s w) = askersAbove y := by
      rw [askersAbove, tPeers, settled_join, settled_feed, whole]
      show List.countP (Peer.ranksAbove x.join.ownNumber (x.feed.depth.getD 0)) y.peers.records = _
      rw [aside.ownNumber, depth]
      rfl
    have record : y.setup = s.setup := by rw [yE]; rfl
    have fed : (settled s w).feed.state = x.feed.state := by rw [settled_feed, whole]
    rw [fed, state, opens, asks, record]
  · have unwaiting : s.join.state ≠ .waitingForLink := fun k => by
      rw [(hs.waiting k).2.2.1] at hrej
      cases hrej
    have whole := still unwaiting
    have all : allAvailable (settled s w) = allAvailable x := allAvailable_of_peers (tPeers.trans aside.peers.symm)
    rw [settled_ctl, effectiveMode_of_ctl (settled_ctl s w), all, whole]
    exact rejoins (by rw [yE]; exact hrej)
  · intro k
    obtain ⟨here, ds, e⟩ := waits k
    have ends := waitEnds_of (x := x) hs (fun _ => by rw [e]; exact here.marked ds) (by rw [e, yE]; rfl)
      (by rw [e, yE]; rfl) (by rw [e, yE]; rfl) (by rw [e, yE]; rfl) (by rw [e, yE]; rfl) (by rw [e, yE]; rfl)
      (by rw [e, yE]; rfl)
    exact ends k
  · rw [tPeers, ← dupE]
    rcases ageDuplicate_cases v with ⟨k, -⟩ | ⟨k, -, e⟩ | ⟨-, k, -⟩ | ⟨-, k, -⟩
    · exact absurd (hp.symm.trans k) nofun
    · rw [show y = _ from e]
      exact ⟨rfl, rfl, hp⟩
    · exact absurd (hh.symm.trans k) nofun
    · exact absurd (hh.symm.trans k) nofun
  · have entry : (settled s w).sup.latched.contains .duplicateNumber = s.sup.latched.contains .duplicateNumber := by
      rw [settled_sup]
      refine (entries .duplicateNumber rfl).trans ((sides .duplicateNumber nofun nofun).2.trans ?_)
      rw [yE]
      rfl
    rw [tPeers, ← dupE]
    rcases ageDuplicate_cases v with ⟨k, -⟩ | ⟨-, k, -⟩ | ⟨k, -, low, e⟩ | ⟨-, -, high, e⟩
    · exact absurd (hp.symm.trans k) nofun
    · exact absurd (hh.symm.trans k) nofun
    · rw [show y = _ from e]
      exact ⟨rfl, k.trans (decide_eq_true (p := s.peers.dupMiss + 1 < limit) low).symm, entry⟩
    · rw [show y = _ from e]
      refine ⟨rfl, ?_, entry⟩
      rw [decide_eq_false (p := s.peers.dupMiss + 1 < limit) (Nat.not_lt.mpr high)]
      simp [State.isPresent]
  · obtain ⟨lost, silent⟩ := hs.availability
    have unaged : y = v := by
      rcases ageDuplicate_cases v with ⟨-, e⟩ | ⟨k, -⟩ | ⟨k, -⟩ | ⟨k, -⟩
      · exact e
      · exact absurd (hp.symm.trans k) nofun
      · exact absurd (hp.symm.trans k) nofun
      · exact absurd (hp.symm.trans k) nofun
    have lively : ∀ p ∈ s.peers.records, (Peer.age limit p).liveness = p.liveness := fun p hm =>
      Peer.age_liveness (hq p hm)
    have all : allAvailable v = allAvailable s := allAvailable_map hs.distinct numbers rfl rfl fun p hm _ => by
      rw [lively p hm, Peer.age_height]
    have quiet : peerSilent v = peerSilent s := peerSilent_map numbers rfl rfl fun p hm _ => by rw [lively p hm]
    have dull : swept v = v := swept_of_dull (lost.trans (by rw [all])) (silent.trans quiet.symm) hset hrej
    have whole : w = v := (still hj).trans (by show swept y = v; rw [unaged, dull])
    obtain ⟨body, -, -, report⟩ := settled_calm hs (t := v) rfl fun _ k => k
    rw [whole, agedE]
    refine ⟨body, (report.trans (if_pos rfl)).trans ?_⟩
    show s.line.report.request .periodic = _
    cases s.line.report with
    | empty => rfl
    | pending p => cases p <;> rfl
    | sending p f =>
      cases f with
      | none => rfl
      | some q => cases q <;> rfl

end

end Sys2Proof.Machine
end

section
/-! PROOFS. Strokes credited one after another (R11, R15, R56, R93 to R95, R99, R101). -/

namespace Sys2Proof.Machine

-- In order, so that the proofs waiting on one another do not hold a stack each.
set_option Elab.async false

section
variable {s t u v w x : State} {c : Cond} {before : State}

/-! ### What onsets and ends do to the mode -/

/-- The modes after onsets and ends: the kind of mode as before, or, where something latched, a station that no longer
works (R8, R15, R17, R184). -/
def Weighed (s t : State) : Prop :=
  (t.sup.latched = s.sup.latched ∧ t.ctl.mode.works = s.ctl.mode.works ∧ t.ctl.mode.climbs = s.ctl.mode.climbs
      ∧ (s.ctl.mode.works = false → t.ctl.mode = s.ctl.mode) ∧ t.ctl.returnMode = s.ctl.returnMode)
    ∨ (s.sup.latched.length < t.sup.latched.length
      ∧ t.ctl.mode = (if s.ctl.mode.works = true then .stopped else s.ctl.mode)
      ∧ t.ctl.returnMode = if s.ctl.mode = .reduced ∧ s.effectiveMode.works = true then some .stopped
          else s.ctl.returnMode)

theorem Weighed.refl (s : State) : Weighed s s := .inl ⟨rfl, rfl, rfl, fun _ => rfl, rfl⟩

theorem effectiveMode_of_same (hm : t.ctl.mode = s.ctl.mode) (hr : t.ctl.returnMode = s.ctl.returnMode) :
    t.effectiveMode = s.effectiveMode := by
  rw [State.effectiveMode, hm, hr]
  rfl

theorem Mode.not_works_stopped (m : Mode) : (if m.works = true then Mode.stopped else m).works = false := by
  cases m <;> rfl

theorem Weighed.trans (h : Weighed s t) (k : Weighed t u) : Weighed s u := by
  rcases h with ⟨hl, hw, hc, hi, hr⟩ | ⟨hl, hm, hr⟩
  · have reduced : s.ctl.mode = .reduced ↔ t.ctl.mode = .reduced := by
      by_cases q : s.ctl.mode.works = true
      · exact ⟨fun e => absurd e (Mode.ne_reduced_of_works q),
          fun e => absurd e (Mode.ne_reduced_of_works (hw.trans q))⟩
      · rw [hi (Bool.eq_false_iff.mpr q)]
    rcases k with ⟨kl, kw, kc, ki, kr⟩ | ⟨kl, km, kr⟩
    · exact .inl ⟨kl.trans hl, kw.trans hw, kc.trans hc,
        fun e => (ki (hw.trans e)).trans (hi e), kr.trans hr⟩
    · refine .inr ⟨hl ▸ kl, ?_, ?_⟩
      · rw [km, hw]
        split
        · rfl
        · rename_i q
          exact hi (Bool.eq_false_iff.mpr q)
      · rw [kr, hr]
        refine if_congr ⟨fun ⟨e, f⟩ => ?_, fun ⟨e, f⟩ => ?_⟩ rfl rfl
        · have e' := reduced.mpr e
          rw [effectiveMode_of_same (e.trans e'.symm) hr] at f
          exact ⟨e', f⟩
        · have e' := reduced.mp e
          rw [← effectiveMode_of_same (e'.trans e.symm) hr] at f
          exact ⟨e', f⟩
  · have off : t.ctl.mode.works = false := by rw [hm]; exact Mode.not_works_stopped _
    rcases k with ⟨kl, -, -, ki, kr⟩ | ⟨kl, km, kr⟩
    · exact .inr ⟨kl ▸ hl, (ki off).trans hm, kr.trans hr⟩
    · have km : u.ctl.mode = t.ctl.mode := km.trans (if_neg (by rw [off]; exact nofun))
      refine .inr ⟨hl.trans kl, km.trans hm, ?_⟩
      rw [kr]
      by_cases q : s.ctl.mode = .reduced
      · have dull : ¬ s.ctl.mode.works = true := by rw [q]; exact nofun
        rw [if_neg dull] at hm
        by_cases e : s.effectiveMode.works = true
        · rw [if_pos ⟨q, e⟩] at hr
          rw [hr, ite_self]
          exact (if_pos ⟨q, e⟩).symm
        · rw [if_neg fun z => e z.2] at hr
          rw [effectiveMode_of_same hm hr, hm, hr]
      · have other : t.ctl.mode ≠ .reduced := by
          rw [hm]
          split
          · exact nofun
          · exact q
        rw [if_neg fun z => other z.1, hr]

theorem Weighed.alike (h : Alike t (holdFollowed { s with sup.present := cs })) : Weighed s t := by
  have ctl : t.ctl = (holdFollowed { s with sup.present := cs }).ctl := SameBody.ctl h.body
  have mode : t.ctl.mode = heldMode { s with sup.present := cs } := SameBody.mode h.body
  have sup : t.sup = (holdFollowed { s with sup.present := cs }).sup := SameBody.sup h.body
  refine .inl ⟨by rw [sup]; rfl, ?_, ?_, fun k => ?_, by rw [ctl]; rfl⟩
  · rw [mode]
    exact heldMode_works _
  · rw [mode]
    exact heldMode_climbs _
  · rw [mode]
    refine heldMode_of_not_climbs ?_
    show s.ctl.mode.climbs = false
    rw [← Bool.not_eq_true]
    exact fun q => absurd (k.symm.trans (Mode.works_of_climbs q)) nofun

theorem Ready.judge_weighed (h : Ready s) (c : Cond) (b : Bool) : Weighed s (judgeCond c b s) := by
  cases b with
  | false => exact Weighed.alike (h.poised.lapse c).1
  | true =>
    show Weighed s (raiseCond c s)
    by_cases hl : s.latching c = true
    · rcases raiseCond_cases c s with ⟨-, e⟩ | ⟨hp, -, -⟩ | ⟨-, k, -⟩
      · rw [e]
        exact Weighed.refl s
      · by_cases hn : s.isLatched c = true
        · rw [raise_of_latched h hp hl hn]
          exact .inl ⟨rfl, rfl, rfl, fun _ => rfl, rfl⟩
        · obtain ⟨sup, mode, returns, -⟩ := raise_latch_spec h hp hl (Bool.eq_false_iff.mpr hn)
          refine .inr ⟨?_, mode, returns⟩
          rw [sup]
          simp
      · exact absurd (hl.symm.trans k) nofun
    · exact Weighed.alike (h.poised.raise (Bool.eq_false_iff.mpr hl)).1

/-! ### Heights that rise -/

theorem meanOf_mono {p q : PerChannel Channel}
    (ha : ∀ ch : Ch, (q.get ch).isActive = (p.get ch).isActive)
    (hc : ∀ ch : Ch, (p.get ch).climbed ≤ (q.get ch).climbed) :
    meanOf (activeHeights p) ≤ meanOf (activeHeights q) := by
  have active : (fun ch => (q.get ch).isActive) = fun ch => (p.get ch).isActive := funext ha
  rw [activeHeights_eq, activeHeights_eq, active, meanOf, meanOf, List.length_map, List.length_map]
  exact Nat.div_le_div_right (List.sum_le_sum fun ch _ => hc ch)

theorem removeBelow_removeBelow {a b : Nat} (h : a ≤ b) (ls : List Layer) :
    removeBelow b (removeBelow a ls) = removeBelow b ls := by
  unfold removeBelow
  induction ls with
  | nil => rfl
  | cons l ls ih =>
    by_cases k : l.top ≤ a
    · have first : (l :: ls).dropWhile (fun l => decide (l.top ≤ a)) = ls.dropWhile fun l => decide (l.top ≤ a) :=
        List.dropWhile_cons_of_pos (p := fun l : Layer => decide (l.top ≤ a)) (decide_eq_true k)
      have second : (l :: ls).dropWhile (fun l => decide (l.top ≤ b)) = ls.dropWhile fun l => decide (l.top ≤ b) :=
        List.dropWhile_cons_of_pos (p := fun l : Layer => decide (l.top ≤ b)) (decide_eq_true (k.trans h))
      rw [first, second, ih]
    · have first : (l :: ls).dropWhile (fun l => decide (l.top ≤ a)) = l :: ls :=
        List.dropWhile_cons_of_neg (p := fun l : Layer => decide (l.top ≤ a)) (by simpa using k)
      rw [first]

theorem Channel.credited_climbed_le {r : SetupRecord} {d : Channel} (h : d.climbed ≤ Config.heightMax) :
    d.climbed ≤ (d.credited r).climbed := by
  show d.climbed ≤ min Config.heightMax (d.climbed + (d.xPeak - r.jawLoss))
  omega

/-! ### A credit where no channel moves up -/

/-- What credits leave, and what they bring about, in a station whose channels are still. -/
structure Struck (s t : State) : Prop where
  aside : Aside s t
  rise : s.seq.height ≤ t.seq.height
  strokes : t.seq.strokeCount = s.seq.strokeCount
  layers : t.stack.layers = removeBelow t.seq.height s.stack.layers
  top : t.stack.concreteTop = s.stack.concreteTop
  marks : ∀ d, d ≠ .tilt → d ≠ .jackSpread → t.isPresent d = s.isPresent d
  entries : t.sup.latched = s.sup.latched ∨ s.sup.latched.length < t.sup.latched.length
  works : t.ctl.mode.works = true →
    s.ctl.mode.works = true ∧ t.ctl.mode.climbs = s.ctl.mode.climbs ∧ t.sup.latched = s.sup.latched
  topped : s.ctl.mode.works = true → t.ctl.mode.works = false → t.sup.latched = s.sup.latched →
    t.ctl.mode = .topped ∧ s.setup.programTop ≤ t.seq.height
  idle : s.ctl.mode.works = false → Weighed s t
  feed : t.feed = s.feed ∨ t.feed = (feedWithdrawn s).feed

/-- A station whose strokes may be credited: ready, its channels still, its height their mean. -/
structure Creditable (s : State) : Prop where
  ready : Ready s
  still : AllStill s
  climbed : ∀ ch : Ch, (s.chan ch).climbed ≤ Config.heightMax
  mean : s.seq.height = meanOf (activeHeights s.seq.chans)

theorem Channel.credited_still {r : SetupRecord} {d : Channel} (h : d.state ≠ .extend ∧ d.startPending = false) :
    (d.credited r).state ≠ .extend ∧ (d.credited r).startPending = false := h

theorem credit_chan (h : Creditable s) (ch x : Ch) :
    (credit ch s).chan x = if x = ch then (s.chan ch).credited s.setup else s.chan x := by
  let q := s.seq.chans.set ch ((s.chan ch).credited s.setup)
  have get : q.get x = if x = ch then (s.chan ch).credited s.setup else s.chan x := PerChannel.get_set _ _ _ _
  rcases credit_chans h.ready ch with e | e
  · rw [State.chan, e, PerChannel.get_map, get]
    split
    · obtain ⟨state, pending⟩ := Channel.credited_still (r := s.setup) (h.still ch)
      rw [cut_of_ne_extend state, ← pending]
    · obtain ⟨state, pending⟩ := h.still x
      rw [cut_of_ne_extend state, ← pending]
  · rw [State.chan, e, get]

/-- No entry check is made of a station that does not work (R11). -/
theorem creditChecked_of_idle (h : s.ctl.mode.works = false) (ch : Ch) :
    creditChecked ch s = keepChange true (creditHeight ch s) := by
  have dull : s.ctl.mode.climbs = false := by
    rw [← Bool.not_eq_true]
    exact fun k => absurd (h.symm.trans (Mode.works_of_climbs k)) nofun
  rcases creditChecks_cases (keepChange true (creditHeight ch s)) with ⟨k, -⟩ | ⟨-, e⟩
  · exact absurd (h.symm.trans k) nofun
  · rcases segmentCheck_cases (keepChange true (creditHeight ch s)) with ⟨k, -⟩ | ⟨-, e'⟩
    · exact absurd (dull.symm.trans k) nofun
    · exact e.trans e'

/-- One stroke credited. -/
theorem credit_struck (h : Creditable s) (ch : Ch) : Struck s (credit ch s) ∧ Creditable (credit ch s) := by
  obtain ⟨ready, still, climbed, mean⟩ := h
  have chan := credit_chan ⟨ready, still, climbed, mean⟩ ch
  obtain ⟨readyV, supV, chansV, heightV, -, -, -, -, toppedV, lowV, idleV⟩ := creditChecked_spec ready ch
  obtain ⟨onward, readyT⟩ := credit_onward ready ch
  obtain ⟨layers, top, strokes⟩ := credit_layers ready ch
  have aside := aside_creditChecked ch s
  let v := creditChecked ch s
  let t := credit ch s
  have height : t.seq.height = creditedHeight ch s := credit_height ready ch
  have firm : ∀ x : Ch, (t.chan x).isActive = (s.chan x).isActive ∧ (s.chan x).climbed ≤ (t.chan x).climbed := by
    intro x
    rw [chan]
    split
    · rename_i e
      subst e
      exact ⟨rfl, Channel.credited_climbed_le (climbed x)⟩
    · exact ⟨rfl, Nat.le_refl _⟩
  have rise : s.seq.height ≤ t.seq.height := by
    rw [mean, credit_mean ready ch]
    exact meanOf_mono (fun x => (firm x).1) fun x => (firm x).2
  have weighed : Weighed v t := by
    obtain ⟨-, ready'⟩ := readyV.judge .tilt (tilted v)
    have last := (readyV.judge_weighed .tilt (tilted v)).trans (ready'.judge_weighed .jackSpread
      (decide ((judgeTilt v).setup.spreadMax < jackSpread (judgeTilt v).seq.chans)))
    rw [show t = _ from credit_eq ch s]
    exact last
  refine ⟨⟨aside.trans onward.aside, rise, strokes, by rw [height]; exact layers, top, fun d k₁ k₂ => ?_,
    ?_, fun k => ?_, fun k k' hl => ?_, fun k => ?_, credit_feed ready ch⟩,
    ⟨readyT, fun x => ?_, fun x => ?_, credit_mean ready ch⟩⟩
  · have seen : t.isPresent d = v.isPresent d := by
      rw [show t = _ from credit_eq ch s]
      exact (judgeCond_isPresent_of_ne k₂ _ _).trans (judgeCond_isPresent_of_ne k₁ _ _)
    exact seen.trans (congrArg (·.present.contains d) supV :)
  · have same : v.sup.latched = s.sup.latched := congrArg Supervisor.latched supV
    rw [← same]
    exact onward.chans.imp (·.1) (·.1)
  · obtain ⟨vWorks, latched⟩ := onward.works k
    have works : s.ctl.mode.works = true := by
      by_contra q
      rw [idleV (Bool.eq_false_iff.mpr q)] at vWorks
      exact q vWorks
    have low : decide (s.setup.programTop ≤ creditedHeight ch s) = false := by
      rw [← Bool.not_eq_true]
      intro q
      rw [toppedV works q] at vWorks
      cases vWorks
    refine ⟨works, ?_, latched.trans (congrArg Supervisor.latched supV)⟩
    rcases weighed with ⟨-, -, climbs, -⟩ | ⟨-, mode, -⟩
    · exact climbs.trans (lowV low).2.1
    · rw [if_pos vWorks] at mode
      rw [mode] at k
      cases k
  · rcases weighed with ⟨-, works, -, same, -⟩ | ⟨grown, -⟩
    · have vOff : v.ctl.mode.works = false := works.symm.trans k'
      have high : decide (s.setup.programTop ≤ creditedHeight ch s) = true := by
        by_contra q
        exact absurd ((lowV (Bool.eq_false_iff.mpr q)).1.symm.trans vOff) (by rw [k]; exact nofun)
      exact ⟨(same vOff).trans (toppedV k high), by rw [height]; exact of_decide_eq_true high⟩
    · rw [hl, supV] at grown
      exact absurd grown (Nat.lt_irrefl _)
  · have mode := idleV k
    refine Weighed.trans (.inl ⟨congrArg Supervisor.latched supV, by rw [mode], by rw [mode], fun _ => mode, ?_⟩) weighed
    rw [creditChecked_of_idle k]
    rfl
  · rw [chan]
    split
    · exact Channel.credited_still (still ch)
    · exact still x
  · rw [chan]
    split
    · exact Nat.min_le_left _ _
    · exact climbed x

theorem feedWithdrawn_feed_twice (h : t.feed = (feedWithdrawn s).feed) :
    (feedWithdrawn t).feed = (feedWithdrawn s).feed := by
  unfold feedWithdrawn
  dsimp only
  rw [h]
  rfl

theorem Struck.trans (h : Struck s t) (k : Struck t u) : Struck s u := by
  refine ⟨h.aside.trans k.aside, h.rise.trans k.rise, k.strokes.trans h.strokes, ?_, k.top.trans h.top,
    fun d a b => (k.marks d a b).trans (h.marks d a b), ?_, fun e => ?_,
    fun e e' hl => ?_, fun e => ?_, ?_⟩
  · rw [k.layers, h.layers, removeBelow_removeBelow k.rise]
  · rcases h.entries with a | a
    · rw [← a]
      exact k.entries
    · rcases k.entries with b | b
      · exact .inr (by rw [b]; exact a)
      · exact .inr (a.trans b)
  · obtain ⟨tw, tc, tl⟩ := k.works e
    obtain ⟨sw, sc, sl⟩ := h.works tw
    exact ⟨sw, tc.trans sc, tl.trans sl⟩
  · have same : t.sup.latched = s.sup.latched := h.entries.resolve_right fun a => by
      rcases k.entries with b | b
      · rw [← hl, b] at a
        exact absurd a (Nat.lt_irrefl _)
      · rw [hl] at b
        exact absurd (a.trans b) (Nat.lt_irrefl _)
    by_cases q : t.ctl.mode.works = true
    · rw [← h.aside.setup]
      exact k.topped q e' (hl.trans same.symm)
    · obtain ⟨mode, high⟩ := h.topped e (Bool.eq_false_iff.mpr q) same
      rcases k.idle (Bool.eq_false_iff.mpr q) with ⟨-, -, -, stays, -⟩ | ⟨grown, -⟩
      · exact ⟨(stays (Bool.eq_false_iff.mpr q)).trans mode, high.trans k.rise⟩
      · rw [hl, same] at grown
        exact absurd grown (Nat.lt_irrefl _)
  · have off : t.ctl.mode.works = false := by
      rw [← Bool.not_eq_true]
      exact fun q => absurd (e.symm.trans (h.works q).1) nofun
    exact (h.idle e).trans (k.idle off)
  · rcases k.feed with a | a
    · rcases h.feed with b | b
      · exact .inl (a.trans b)
      · exact .inr (a.trans b)
    · rcases h.feed with b | b
      · exact .inr (a.trans (feedWithdrawn_feed_of_same b h.aside.now h.aside.setup))
      · exact .inr (a.trans (feedWithdrawn_feed_twice b))

theorem Struck.refl (hl : ∀ l ∈ s.stack.layers, s.seq.height < l.top) : Struck s s := by
  have kept : removeBelow s.seq.height s.stack.layers = s.stack.layers :=
    List.dropWhile_eq_self_iff.mpr fun k => by
      have := hl _ (List.getElem_mem k)
      simpa using this
  exact ⟨Aside.refl s, Nat.le_refl _, rfl, kept.symm, rfl, fun _ _ _ => rfl, .inl rfl, fun k => ⟨k, rfl, rfl⟩,
    fun k k' => absurd (k.symm.trans k') nofun, fun _ => Weighed.refl s, .inl rfl⟩

/-- The strokes under way in `before` are credited, channel after channel (R93, R99, R101). -/
theorem creditStrokes_struck (h : Creditable s) (hl : ∀ l ∈ s.stack.layers, s.seq.height < l.top) :
    Struck s (creditStrokes before s) ∧ Creditable (creditStrokes before s)
      ∧ ∀ ch : Ch, (creditStrokes before s).chan ch
        = if (before.chan ch).inStroke = true then (s.chan ch).credited s.setup else s.chan ch := by
  have start : Struck s s := Struck.refl hl
  have fold : ∀ (cs : List Ch) (t : State), cs.Nodup → Struck s t → Creditable t →
      (∀ ch ∈ cs, t.chan ch = s.chan ch) →
      let w := cs.foldl (fun t c => if (before.chan c).inStroke then credit c t else t) t
      Struck s w ∧ Creditable w ∧ ∀ ch : Ch, w.chan ch
        = if ch ∈ cs ∧ (before.chan ch).inStroke = true then (s.chan ch).credited s.setup else t.chan ch := by
    intro cs
    induction cs with
    | nil => exact fun t _ st cr _ => ⟨st, cr, fun ch => (if_neg fun k => nomatch k.1).symm⟩
    | cons c cs ih =>
      intro t hn st cr same
      obtain ⟨fresh, hn⟩ := List.nodup_cons.mp hn
      by_cases k : (before.chan c).inStroke = true
      · obtain ⟨one, cr'⟩ := credit_struck cr c
        have chan := credit_chan cr c
        obtain ⟨st', cr', chans⟩ := ih (credit c t) hn (st.trans one) cr' fun ch hc => by
          rw [chan, if_neg (by rintro rfl; exact fresh hc)]
          exact same ch (List.mem_cons_of_mem _ hc)
        have step : (c :: cs).foldl (fun t c => if (before.chan c).inStroke then credit c t else t) t
            = cs.foldl (fun t c => if (before.chan c).inStroke then credit c t else t) (credit c t) := by
          rw [List.foldl_cons, if_pos k]
        rw [step]
        refine ⟨st', cr', fun ch => ?_⟩
        rw [chans, chan]
        by_cases e : ch = c
        · subst e
          rw [if_neg fun z => fresh z.1, if_pos rfl, if_pos ⟨List.mem_cons_self, k⟩, same ch List.mem_cons_self,
            st.aside.setup]
        · rw [if_neg e]
          refine if_congr ?_ rfl rfl
          rw [List.mem_cons, or_iff_right e]
      · have step : (c :: cs).foldl (fun t c => if (before.chan c).inStroke then credit c t else t) t
            = cs.foldl (fun t c => if (before.chan c).inStroke then credit c t else t) t := by
          rw [List.foldl_cons, if_neg k]
        obtain ⟨st', cr', chans⟩ := ih t hn st cr fun ch hc => same ch (List.mem_cons_of_mem _ hc)
        rw [step]
        refine ⟨st', cr', fun ch => ?_⟩
        rw [chans]
        refine if_congr ?_ rfl rfl
        rw [List.mem_cons]
        exact ⟨fun z => ⟨.inr z.1, z.2⟩, fun z => ⟨z.1.resolve_left fun e => k (e ▸ z.2), z.2⟩⟩
  obtain ⟨st, cr, chans⟩ := fold Ch.all s (by decide) start h fun _ _ => rfl
  refine ⟨st, cr, fun ch => (chans ch).trans (if_congr ?_ rfl rfl)⟩
  exact and_iff_right (Ch.mem_all ch)

theorem creditStrokes_of_none (h : ∀ ch : Ch, (before.chan ch).inStroke = false) (s : State) :
    creditStrokes before s = s := by
  have none_ : ∀ (cs : List Ch) (t : State),
      cs.foldl (fun t c => if (before.chan c).inStroke then credit c t else t) t = t := by
    intro cs
    induction cs with
    | nil => exact fun _ => rfl
    | cons c cs ih => exact fun t => by rw [List.foldl_cons, h c, if_neg nofun, ih]
  exact none_ Ch.all s

end

end Sys2Proof.Machine
end

section
/-! PROOFS. The inhibit input (R95, R99, R100, R107, R189). -/

namespace Sys2Proof.Machine

-- In order, so that the proofs waiting on one another do not hold a stack each.
set_option Elab.async false

section
variable {s t u v w x : State} {c : Cond} {before : State}

/-! ### The strokes that a cut ends -/

theorem Channel.inStroke_iff {d : Channel} : d.inStroke = true ↔ d.state = .extend ∨ d.state = .hold := by
  simp [Channel.inStroke]

/-- The climbed height of a channel whose stroke, if any, is credited as it is cut (R93). -/
theorem climbed_of_cut {r : SetupRecord} {d e : Channel} (hp : e.xPeak = d.xPeak) (hc : e.climbed = d.climbed) :
    (((if d.inStroke = true then e.credited r else e).climbed : Nat) : Int)
      = if d.state = .extend ∨ d.state = .hold then
          min 2000000 ((d.climbed : Int) + max 0 ((d.xPeak : Int) - r.jawLoss))
        else d.climbed := by
  by_cases k : d.inStroke = true
  · rw [if_pos k, if_pos (Channel.inStroke_iff.mp k)]
    show ((min Config.heightMax (e.climbed + (e.xPeak - r.jawLoss)) : Nat) : Int) = _
    rw [hp, hc]
    simp only [Config.heightMax]
    omega
  · rw [if_neg k, if_neg (fun q => k (Channel.inStroke_iff.mpr q)), hc]

/-- A stroke is made only once the height is set (R3, R93). -/
theorem Sound.heightSet_of_inStroke (hs : Sound s) {ch : Ch} (h : (s.chan ch).inStroke = true) : s.heightSet = true := by
  obtain ⟨-, -, early, -⟩ := hs.channels ch (Ch.mem_all ch)
  have done : s.join.state = .done := by
    by_contra k
    obtain ⟨extends_, holds, -⟩ := early k
    exact (Channel.inStroke_iff.mp h).elim extends_ holds
  rw [State.heightSet, done]
  exact Bool.or_true _

/-- The strokes of a sound station credited once its channels have been cut. -/
theorem creditStrokes_of_sound (hs : Sound s) (ready : Ready u) (still : AllStill u)
    (firm : ∀ ch : Ch, (u.chan ch).isActive = (s.chan ch).isActive ∧ (u.chan ch).climbed = (s.chan ch).climbed)
    (hh : u.seq.height = s.seq.height) (hl : u.stack.layers = s.stack.layers) :
    let y := creditStrokes s u
    Struck u y ∧ Ready y ∧ AllStill y
      ∧ (∀ ch : Ch, y.chan ch = if (s.chan ch).inStroke = true then (u.chan ch).credited u.setup else u.chan ch)
      ∧ (s.heightSet = true → y.seq.height = meanOf (activeHeights y.seq.chans)) := by
  obtain ⟨mean, -, -, -⟩ := hs.height
  obtain ⟨-, above, -⟩ := hs.stack
  have layers : ∀ l ∈ u.stack.layers, u.seq.height < l.top := by
    rw [hl, hh]
    exact above
  have heights : activeHeights u.seq.chans = activeHeights s.seq.chans := activeHeights_congr firm
  by_cases k : ∃ ch : Ch, (s.chan ch).inStroke = true
  · obtain ⟨ch, k⟩ := k
    have creditable : Creditable u := by
      refine ⟨ready, still, fun x => ?_, ?_⟩
      · obtain ⟨-, ⟨climbed, -⟩, -⟩ := hs.channels x (Ch.mem_all x)
        rw [(firm x).2]
        exact climbed
      · rw [hh, heights]
        exact mean (hs.heightSet_of_inStroke k)
    obtain ⟨struck, after, chans⟩ := creditStrokes_struck (before := s) creditable layers
    exact ⟨struck, after.ready, after.still, chans, fun _ => after.mean⟩
  · have none_ : ∀ ch : Ch, (s.chan ch).inStroke = false := fun ch => Bool.eq_false_iff.mpr fun q => k ⟨ch, q⟩
    have same : creditStrokes s u = u := creditStrokes_of_none none_ u
    intro y
    rw [show y = u from same]
    refine ⟨Struck.refl layers, ready, still, fun ch => ?_, fun q => ?_⟩
    · rw [none_ ch, if_neg nofun]
    · rw [hh, heights]
      exact mean q

/-! ### INHIBIT -/

theorem Channel.stand_shut (st : ChState) (now : Nat) (d : Channel) : StandsShut st (d.stand st now) := by
  rw [Channel.stand_eq, Channel.shut_eq]
  exact ⟨rfl, rfl, rfl, rfl, rfl⟩

/-- The onset of INHIBIT, which is of class HOLD: the station pauses, and nothing else (R8, R183, R189). -/
theorem raise_inhibit (h : Ready s) :
    let t := raiseCond .inhibit s
    t.seq = s.seq ∧ t.stack = s.stack ∧ t.feed = s.feed ∧ t.sup.latched = s.sup.latched
      ∧ t.ctl.mode = (if s.ctl.mode = .climbing then .paused else s.ctl.mode)
      ∧ (s.ctl.mode.climbs = true → t.ctl.pause.faultHold = true) := by
  intro t
  obtain ⟨alike, poised⟩ := h.poised.raise (c := .inhibit) rfl
  have shown : t.isPresent .inhibit = true := judgeCond_isPresent .inhibit true s
  have body := alike.body
  have hold : t.holdPresent = true :=
    List.any_eq_true.mpr ⟨.inhibit, List.contains_iff_mem.mp shown, rfl⟩
  have sup : t.sup = _ := SameBody.sup body
  have mode : t.ctl.mode = heldMode { s with sup.present := presentWith .inhibit s } := SameBody.mode body
  have climbs : t.ctl.mode.climbs = s.ctl.mode.climbs := by
    rw [mode]
    exact heldMode_climbs _
  have held : s.ctl.mode.climbs = true → t.ctl.pause.faultHold = true := by
    intro k
    have here : t.ctl.mode.climbs = true := climbs.trans k
    have effective : t.effectiveMode = t.ctl.mode :=
      effectiveMode_of_ne_reduced (Mode.ne_reduced_of_works (Mode.works_of_climbs here))
    rw [poised.held, effective, here, hold]
    rfl
  refine ⟨SameBody.seq body, SameBody.stack body, SameBody.feed body, by rw [sup]; rfl, ?_, held⟩
  by_cases k : s.ctl.mode.climbs = true
  · have other : t.ctl.mode ≠ .climbing := fun q => by
      have empty := poised.steady.climbing q
      have set_ : t.ctl.pause.faultHold = true := held k
      rw [empty] at set_
      cases set_
    have paused : t.ctl.mode = .paused := by
      have here : t.ctl.mode.climbs = true := climbs.trans k
      cases q : t.ctl.mode with
      | climbing => exact absurd q other
      | paused => rfl
      | _ => rw [q] at here; cases here
    rw [paused]
    cases q : s.ctl.mode with
    | climbing => rfl
    | paused => rfl
    | _ => rw [q] at k; cases k
  · have same : t.ctl.mode = s.ctl.mode := by
      rw [mode]
      exact heldMode_of_not_climbs (Bool.eq_false_iff.mpr k)
    rw [same, if_neg (fun q => k (by rw [q]; rfl))]

theorem Channel.inhibit_of_other {now : Nat} {d : Channel} (h : d.state = .off ∨ d.state = .fault) :
    d.inhibit now = d := if_pos (h.imp_right .inl)

theorem Channel.inhibit_of_live {now : Nat} {d : Channel} (h₁ : d.state ≠ .off) (h₂ : d.state ≠ .fault)
    (h₃ : d.state ≠ .inhibited) : d.inhibit now = d.halt .inhibited now :=
  if_neg fun k => k.elim h₁ fun k => k.elim h₂ h₃

theorem Channel.inhibit_kept (now : Nat) (d : Channel) :
    (d.inhibit now).isActive = d.isActive ∧ (d.inhibit now).climbed = d.climbed ∧ (d.inhibit now).xPeak = d.xPeak := by
  by_cases k : d.state = .off ∨ d.state = .fault ∨ d.state = .inhibited
  · rw [show d.inhibit now = d from if_pos k]
    exact ⟨rfl, rfl, rfl⟩
  · have data := Channel.sameData_halt (now := now) (c := d) .inhibited
    rw [show d.inhibit now = d.halt .inhibited now from if_neg k]
    refine ⟨?_, data.climbed, by rw [Channel.halt_eq, Channel.stand_eq, Channel.shut_eq]⟩
    have active : d.isActive = true := bne_iff_ne.mpr fun q => k (.inl q)
    rw [active]
    rfl

/-- The station at the assertion of the input, before the credits. -/
abbrev inhibited (s : State) : State := updateAll (Channel.inhibit s.now) { s with inhibitInput := true }

theorem inhibited_chan (s : State) (ch : Ch) : (inhibited s).chan ch = (s.chan ch).inhibit s.now :=
  PerChannel.get_map _ _ _

theorem Sound.ready_inhibited (hs : Sound s) : Ready (inhibited s) :=
  ⟨hs.ready.poised.refed (t := inhibited s) hs.ready.poised.steady.gate, hs.ready.shape⟩

theorem Sound.still_inhibited (hs : Sound s) : AllStill (inhibited s) := fun ch => by
  rw [inhibited_chan]
  by_cases k : (s.chan ch).state = .off ∨ (s.chan ch).state = .fault ∨ (s.chan ch).state = .inhibited
  · obtain ⟨-, ⟨-, -, -, -, -, pending⟩, -⟩ := hs.channels ch (Ch.mem_all ch)
    rw [show (s.chan ch).inhibit s.now = s.chan ch from if_pos k]
    refine ⟨fun q => ?_, Bool.eq_false_iff.mpr fun q => ?_⟩
    · rcases k with k | k | k <;> exact absurd (k.symm.trans q) nofun
    · rcases (pending q).1 with q | q <;> rcases k with k | k | k <;> exact absurd (k.symm.trans q) nofun
  · obtain ⟨⟨state, -⟩, pending⟩ := Channel.halt_shut .inhibited s.now (s.chan ch)
    rw [show (s.chan ch).inhibit s.now = _ from if_neg k]
    exact ⟨by rw [state]; exact nofun, pending⟩

/-- A mode that works, once FAULT HOLD has joined. -/
theorem Mode.held_eq {m : Mode} (h : m.works = true) :
    (if m = .climbing then Mode.paused else m) = if m.climbs = true then .paused else .standing := by
  cases m with
  | standing => rfl
  | climbing => rfl
  | paused => rfl
  | _ => cases h

theorem Channel.decideHome_spec (r : SetupRecord) (now : Nat) (d : Channel) :
    if d.readingValid = false then RetractionBegun r now true (d.decideHome r now)
    else if r.home < d.x.getD 0 then RetractionBegun r now false (d.decideHome r now)
    else StandsShut .rest (d.decideHome r now) := by
  by_cases k : d.readingValid = false
  · have blind : d.decideHome r now = d.toRetract r now true := if_pos (by rw [k]; rfl)
    rw [if_pos k, blind]
    exact Channel.toRetract_begun _ _ _ _
  · have read : d.readingValid = true := Bool.not_eq_false _ ▸ k
    have seen : d.decideHome r now = if d.aboveHome r = true then d.toRetract r now false else d.stand .rest now :=
      if_neg (by rw [read]; exact nofun)
    rw [if_neg k, seen]
    by_cases q : r.home < d.x.getD 0
    · rw [if_pos q, if_pos (show d.aboveHome r = true from decide_eq_true q)]
      exact Channel.toRetract_begun _ _ _ _
    · rw [if_neg q, if_neg (show ¬ d.aboveHome r = true from fun z => q (of_decide_eq_true z))]
      exact Channel.stand_shut _ _ _

/-- The channel that a release leads on (R100). -/
theorem Channel.release_spec (r : SetupRecord) (now : Nat) (reduced : Bool) {d : Channel} (h : d.state = .inhibited) :
    let e := d.release r now reduced
    e.climbed = d.climbed
      ∧ (if reduced = true then StandsShut .rest e
        else if d.readingValid = false then RetractionBegun r now true e
        else if r.home < d.x.getD 0 then RetractionBegun r now false e
        else StandsShut .rest e) := by
  intro e
  have led : e = if reduced = true then d.stand .rest now else d.decideHome r now := if_pos h
  have decided := Channel.decideHome_climbed r now d
  by_cases k : reduced = true
  · rw [if_pos k] at led
    rw [led, if_pos k]
    exact ⟨Channel.stand_climbed _ _ _, Channel.stand_shut _ _ _⟩
  · rw [if_neg k] at led
    rw [led, if_neg k]
    exact ⟨decided, d.decideHome_spec r now⟩

/-- Settles O30: the channels are cut and credited before INHIBIT pauses the station, and the release leads them on. -/
theorem inhibitStopsAndReleases : Obligations.InhibitStopsAndReleases := by
  intro s hs
  refine ⟨fun hi => ?_, fun hi => ?_⟩
  · let u := inhibited s
    let x := creditStrokes s u
    let w := raiseCond .inhibit x
    have block : exec .inhibitAsserted s = finish s w :=
      congrArg (finish s) (if_neg (show ¬ s.inhibitInput = true by rw [hi]; exact nofun))
    obtain ⟨struck, ready, still, chans, mean⟩ := creditStrokes_of_sound (u := u) hs hs.ready_inhibited
      hs.still_inhibited (fun ch => by
        obtain ⟨active, climbed, -⟩ := Channel.inhibit_kept s.now (s.chan ch)
        rw [inhibited_chan]
        exact ⟨active, climbed⟩) rfl rfl
    obtain ⟨seq, stack, feed, latched, mode, holds⟩ := raise_inhibit ready
    have aside : Aside u w := struck.aside.trans (aside_raiseCond _ _)
    have chan : ∀ ch : Ch, (settled s w).chan ch
        = if (s.chan ch).inStroke = true then ((s.chan ch).inhibit s.now).credited s.setup
          else (s.chan ch).inhibit s.now := fun ch => by
      rw [settled_chan, chan_of_same (congrArg Sequencer.chans seq), chans, inhibited_chan]
      rfl
    have fed : w.feed = s.feed ∨ w.feed = (feedWithdrawn s).feed := by
      rw [feed]
      exact struck.feed.imp id fun k => k.trans (feedWithdrawn_feed_of_same rfl rfl rfl)
    have tHeight : (settled s w).seq.height = x.seq.height := by rw [settled_seq, seq]
    have tMode : (settled s w).ctl.mode = if x.ctl.mode = .climbing then .paused else x.ctl.mode := by
      rw [settled_ctl]
      exact mode
    refine ⟨settled s w, block, (settled_inhibitInput s w).trans aside.inhibitInput, ?_,
      (settled_now s w).trans aside.now, fun ch _ => ⟨fun k => ?_, fun k₁ k₂ => ?_, ?_⟩, fun k => ?_, ?_, ?_, ?_,
      (settled_cure s w).trans aside.cure, (settled_peers s w).trans aside.peers,
      blankFollows_settled aside.now aside.setup (blank_of_kept hs.gate.shape fed aside.now aside.setup),
      fun hw hl => ?_, fun hn => ?_⟩
    · exact (settled_isPresent s w (c := .inhibit) fun _ => nofun).trans (judgeCond_isPresent .inhibit true x)
    · have dull : ¬(s.chan ch).inStroke = true := fun q => by
        rcases Channel.inStroke_iff.mp q with q | q <;> rcases k with k | k <;> exact absurd (k.symm.trans q) nofun
      rw [chan, if_neg dull, Channel.inhibit_of_other k]
    · obtain ⟨-, -, -, -, -, live⟩ := hs.channels ch (Ch.mem_all ch)
      have halt := Channel.halt_shut .inhibited s.now (s.chan ch)
      rw [chan, Channel.inhibit_of_live k₁ k₂ (live hi)]
      split
      · exact halt
      · exact halt
    · obtain ⟨-, climbed, peak⟩ := Channel.inhibit_kept s.now (s.chan ch)
      rw [chan]
      exact climbed_of_cut peak climbed
    · rw [tHeight, mean k, settled_seq, seq]
    · rw [settled_stack, stack, struck.layers, tHeight]
      rfl
    · rw [settled_stack, stack]
      exact struck.top
    · rw [settled_seq, seq]
      exact struck.strokes
    · have bare : x.sup.latched = u.sup.latched := by
        rw [settled_sup, latched] at hl
        exact hl.trans (hs.none_of_works hw).symm
      rw [tMode, tHeight]
      by_cases k : x.ctl.mode.works = true
      · have low : ¬ s.setup.programTop ≤ x.seq.height := by
          have top := ready.poised.steady.top k
          rw [atTop, struck.aside.setup] at top
          exact of_decide_eq_false top
        obtain ⟨-, climbs, -⟩ := struck.works k
        have climbs : x.ctl.mode.climbs = s.ctl.mode.climbs := climbs
        rw [if_neg low]
        rw [Mode.held_eq k, Mode.held_eq hw, climbs]
      · obtain ⟨topped, high⟩ := struck.topped hw (Bool.eq_false_iff.mpr k) bare
        have high : s.setup.programTop ≤ x.seq.height := high
        rw [if_pos high, topped, if_neg nofun]
    · have same : x = u := creditStrokes_of_none (fun ch => hn ch (Ch.mem_all ch)) u
      refine ⟨?_, ?_, ?_, fun k => ?_⟩
      · rw [settled_stack, stack]
        exact (congrArg State.stack same :)
      · exact tHeight.trans (congrArg (fun z : State => z.seq.height) same :)
      · exact tMode.trans (congrArg (fun z : State => if z.ctl.mode = .climbing then Mode.paused else z.ctl.mode) same :)
      · rw [settled_ctl]
        exact holds ((congrArg (fun z : State => z.ctl.mode.climbs) same).trans k)
  · let q := s.seq.chans.map (Channel.release s.setup s.now (s.ctl.mode == .reduced))
    let u : State := { s with inhibitInput := false, seq.chans := q }
    let w := lapseCond .inhibit u
    have block : exec .inhibitReleased s = finish s w := congrArg (finish s) (if_pos hi)
    have ready : Ready u := ⟨hs.ready.poised.refed (t := u) hs.ready.poised.steady.gate, hs.ready.shape⟩
    have body := (ready.poised.lapse .inhibit).1.body
    have aside : Aside u w := aside_lapseCond _ _
    have seq : w.seq = u.seq := SameBody.seq body
    have chan : ∀ ch : Ch, (settled s w).chan ch
        = (s.chan ch).release s.setup s.now (s.ctl.mode == .reduced) := fun ch => by
      rw [settled_chan, chan_of_same (congrArg Sequencer.chans seq)]
      exact PerChannel.get_map _ _ _
    have feed : w.feed = s.feed := SameBody.feed body
    refine ⟨settled s w, block, (settled_inhibitInput s w).trans aside.inhibitInput, ?_,
      (settled_now s w).trans aside.now, ?_, ?_, blankFollows_settled aside.now aside.setup (blank_of_same feed),
      fun ch _ => ⟨fun k => ?_, fun k => ?_⟩⟩
    · exact (settled_isPresent s w (c := .inhibit) fun _ => nofun).trans (judgeCond_isPresent .inhibit false u)
    · rw [settled_stack]
      exact (congrArg Stack.layers (SameBody.stack body) :)
    · rw [settled_seq, seq]
    · rw [chan]
      exact if_neg k
    · obtain ⟨climbed, led⟩ := Channel.release_spec s.setup s.now (s.ctl.mode == .reduced) k
      rw [chan]
      refine ⟨climbed, ?_⟩
      simp only [beq_iff_eq] at led
      exact led

end

end Sys2Proof.Machine
end

section
/-! PROOFS. The entry to REDUCED (R17, R22, R85, R101, R107, R120, R159, R194). -/

namespace Sys2Proof.Machine

-- In order, so that the proofs waiting on one another do not hold a stack each.
set_option Elab.async false

section
variable {s t u v w x : State} {c : Cond} {before : State}

/-- An onset that neither latches nor holds the station: a presence mark (R181). -/
theorem raise_of_dull (hp : s.isPresent c = false) (hl : s.latching c = false)
    (hc : s.classOf c ≠ .hold) : raiseCond c s = { s with sup.present := s.sup.present ++ [c] } := by
  rcases raiseCond_cases c s with ⟨k, -⟩ | ⟨-, k, -⟩ | ⟨-, -, e⟩
  · exact absurd (hp.symm.trans k) nofun
  · exact absurd (hl.symm.trans k) nofun
  · have with_ : presentWith c s = s.sup.present ++ [c] := if_neg (by rw [hp]; exact nofun)
    have hold := holdPresent_presentWith (s := s) hc
    rw [with_] at hold
    exact e.trans (followHold_of_same _ hold.symm)

/-- The station once SUPPLY LOW has its onset (R194). -/
abbrev suppliedLow (s : State) : State :=
  { s with sup.supplyLow := true, sup.present := s.sup.present ++ [.supplyLow] }

theorem raise_supplyLow (hs : Sound s) (hl : s.sup.supplyLow = false) :
    raiseCond .supplyLow { s with sup.supplyLow := true } = suppliedLow s := by
  obtain ⟨-, shown, -⟩ := hs.presence
  exact raise_of_dull (s := { s with sup.supplyLow := true }) (shown.trans hl) rfl nofun

/-- The feed controller and the mode at the entry to REDUCED, before the attempt is cut. -/
abbrev fallen (s : State) : State := feedWithdrawn (toReduced s)

theorem enterReduced_of_shape (h : GateShape s) : enterReduced s = cutAttempt s.ctl.mode (fallen s) := by
  have shape : GateShape (toReduced s) := h
  rw [enterReduced_eq, rejudgeFeed_withdrawn shape rfl]

/-- The station in REDUCED before the credits (R17, R101). -/
abbrev reduced (s : State) : State :=
  updateAll (Channel.reduce s.now) (cutAttempt s.ctl.mode (fallen (suppliedLow s)))

theorem reduced_chan (s : State) (ch : Ch) : (reduced s).chan ch = (s.chan ch).reduce s.now := PerChannel.get_map _ _ _

theorem Sound.ready_reduced (hs : Sound s) (hm : s.ctl.mode ≠ .reduced) : Ready (reduced s) := by
  have steady := hs.steady
  have effective : s.effectiveMode = s.ctl.mode := effectiveMode_of_ne_reduced hm
  have held : s.ctl.pause.faultHold = (s.ctl.mode.climbs && s.holdPresent) := effective ▸ hs.held
  have hold : (reduced s).holdPresent = s.holdPresent := by
    have dull : ({ s with sup.present := s.sup.present ++ [.supplyLow] } : State).holdPresent = s.holdPresent := by
      show (s.sup.present ++ [Cond.supplyLow]).any _ = s.sup.present.any _
      rw [List.any_append]
      exact Bool.or_false _
    exact dull
  refine ⟨⟨⟨nofun, nofun, fun k => absurd rfl k, nofun, fun k => ?_, nofun, nofun⟩, ?_⟩, rfl, nofun, rfl, rfl⟩
  · have k : s.ctl.mode.climbs = false := k
    exact steady.outside (by rw [effective]; exact k)
  · rw [hold]
    exact held

theorem Channel.reduce_of_other {now : Nat} {d : Channel} (h : d.state = .off ∨ d.state = .fault ∨ d.state = .inhibited) :
    d.reduce now = d := if_pos h

theorem Channel.reduce_of_live {now : Nat} {d : Channel} (h : ¬(d.state = .off ∨ d.state = .fault ∨ d.state = .inhibited)) :
    StandsShut .rest (d.reduce now) ∧ (d.reduce now).startPending = false := by
  rw [show d.reduce now = _ from if_neg h, Channel.shut_eq]
  exact ⟨⟨rfl, rfl, rfl, rfl, rfl⟩, rfl⟩

theorem Channel.reduce_kept (now : Nat) (d : Channel) :
    (d.reduce now).isActive = d.isActive ∧ (d.reduce now).climbed = d.climbed ∧ (d.reduce now).xPeak = d.xPeak := by
  by_cases k : d.state = .off ∨ d.state = .fault ∨ d.state = .inhibited
  · rw [Channel.reduce_of_other k]
    exact ⟨rfl, rfl, rfl⟩
  · have active : d.isActive = true := bne_iff_ne.mpr fun q => k (.inl q)
    rw [show d.reduce now = _ from if_neg k, Channel.shut_eq, active]
    exact ⟨rfl, rfl, rfl⟩

theorem Sound.still_reduced (hs : Sound s) : AllStill (reduced s) := fun ch => by
  rw [reduced_chan]
  by_cases k : (s.chan ch).state = .off ∨ (s.chan ch).state = .fault ∨ (s.chan ch).state = .inhibited
  · obtain ⟨-, ⟨-, -, -, -, -, pending⟩, -⟩ := hs.channels ch (Ch.mem_all ch)
    rw [Channel.reduce_of_other k]
    refine ⟨fun q => ?_, Bool.eq_false_iff.mpr fun q => ?_⟩
    · rcases k with k | k | k <;> exact absurd (k.symm.trans q) nofun
    · rcases (pending q).1 with q | q <;> rcases k with k | k | k <;> exact absurd (k.symm.trans q) nofun
  · obtain ⟨⟨state, -⟩, pending⟩ := Channel.reduce_of_live (now := s.now) k
    exact ⟨by rw [state]; exact nofun, pending⟩

/-! ### What stands fast in REDUCED through the credits -/

/-- The items that the entry to REDUCED sets and no credit there changes. -/
abbrev Fallen (s : State) : Prop :=
  s.ctl.mode = .reduced ∧ s.plan.last = .blank ∧ s.seq.cycleTimer = none ∧ s.seq.expiryHeld = false
    ∧ s.line.frame = none ∧ s.line.report.isPending = true ∧ s.line.setupRequest ≠ .sending ∧ s.sup.supplyLow = true

theorem latchParts_fallen : LatchParts Fallen where
  enter m s h ht _ := by
    obtain ⟨mode, -⟩ := h
    rw [mode] at ht
    cases ht

theorem fallen_creditStrokes (h : Fallen s) : Fallen (creditStrokes before s) :=
  creditStrokes_keeps (P := Fallen) (fun _ _ _ k => latchParts_fallen.moves.credit k) h

theorem ReportSlot.isPending_retry_request (r : ReportSlot) (p q : Prio) :
    ((r.request p).request q).retry.isPending = true ∧ (r.request p).retry.isPending = true := by
  cases r with
  | empty => exact ⟨rfl, rfl⟩
  | pending _ => exact ⟨rfl, rfl⟩
  | sending _ f => cases f <;> exact ⟨rfl, rfl⟩

theorem cutAttempt_setupRequest_ne (m : Mode) (s : State) : (cutAttempt m s).line.setupRequest ≠ .sending := by
  unfold cutAttempt
  dsimp only
  cases s.line.setupRequest with
  | sending =>
    dsimp only
    split <;> exact nofun
  | _ => exact nofun

theorem fallen_reduced (s : State) : Fallen (reduced s) := by
  refine ⟨rfl, rfl, rfl, rfl, rfl, ?_, ?_, rfl⟩
  · show (ReportSlot.retry (if s.feed.state = .idle then s.line.report.request .urgent
      else (s.line.report.request .urgent).request .urgent)).isPending = true
    obtain ⟨twice, once⟩ := ReportSlot.isPending_retry_request s.line.report .urgent .urgent
    split
    · exact once
    · exact twice
  · exact cutAttempt_setupRequest_ne s.ctl.mode (fallen (suppliedLow s))

theorem ReportSlot.isPending_request {r : ReportSlot} (h : r.isPending = true) (p : Prio) :
    (r.request p).isPending = true := by
  cases r with
  | pending _ => rfl
  | _ => cases h

/-- The fall of the supply: the station in REDUCED, its strokes credited (R17, R101, R194). -/
theorem exec_supplyLow (hs : Sound s) (hl : s.sup.supplyLow = false) :
    exec .supplyLow s = finish s (creditStrokes s (reduced s)) := by
  obtain ⟨-, -, low, -⟩ := hs.mode
  have mode : ¬(suppliedLow s).ctl.mode = .reduced := fun k => by
    have k : (s.ctl.mode == .reduced) = true := beq_iff_eq.mpr k
    rw [← low, hl] at k
    cases k
  have shape : GateShape (suppliedLow s) := hs.gate.shape
  refine congrArg (finish s) ((if_neg (by rw [hl]; exact nofun)).trans ?_)
  show (if (raiseCond .supplyLow { s with sup.supplyLow := true }).ctl.mode = .reduced then _ else creditStrokes _ _) = _
  rw [raise_supplyLow hs hl, if_neg mode, enterReduced_of_shape shape]
  rfl

theorem settled_report_pending (h : t.line.report.isPending = true) : (settled s t).line.report.isPending = true := by
  rw [settled_report]
  split
  · exact h
  · exact ReportSlot.isPending_request h .urgent

end

end Sys2Proof.Machine
end

section
/-! PROOFS. The return from REDUCED (R17, R85, R102, R194), and the entry and the return together. -/

namespace Sys2Proof.Machine

-- In order, so that the proofs waiting on one another do not hold a stack each.
set_option Elab.async false

section
variable {s t u v w x : State} {c : Cond} {before : State}

/-! ### The return -/

/-- A permission judged again with the feed in IDLE: an ask at most. -/
theorem rejudgeFeed_of_idle (h : s.feed.state = .idle) (was : Bool) :
    ∃ (f : Feed) (r : ReportSlot), rejudgeFeed was s = { s with feed := f, line.report := r }
      ∧ (r = s.line.report ∨ r = s.line.report.request .urgent) := by
  rcases rejudgeFeed_cases was s with ⟨-, -, e⟩ | ⟨-, -, e⟩ | ⟨-, -, e⟩ | ⟨-, k, -⟩ | ⟨-, k, -⟩
  · exact ⟨_, _, e, .inl rfl⟩
  · rcases askIfShort_cases s with ⟨-, -, -, a⟩ | ⟨-, a⟩
    · exact ⟨_, _, e.trans a, .inr rfl⟩
    · exact ⟨_, _, e.trans a, .inl rfl⟩
  · exact ⟨_, _, e, .inl rfl⟩
  · exact absurd (h.symm.trans k) nofun
  · exact absurd (h.symm.trans k) nofun

/-- An end that holds no station: a presence mark (R181). -/
abbrev suppliedAgain (s : State) : State :=
  { s with sup.supplyLow := false, sup.present := s.sup.present.filter (· != .supplyLow) }

theorem lapse_supplyLow (s : State) : lapseCond .supplyLow { s with sup.supplyLow := false } = suppliedAgain s :=
  lapseCond_of_ne_hold (s := { s with sup.supplyLow := false }) nofun

/-- The station at its recovery, before the mode is taken on (R102). -/
abbrev recovered (s : State) : State :=
  updateAll (Channel.recover s.setup s.now) { suppliedAgain s with plan.ramp := 0 }

theorem recovered_chan (s : State) (ch : Ch) : (recovered s).chan ch = (s.chan ch).recover s.setup s.now :=
  PerChannel.get_map _ _ _

theorem exec_supplyRecovery (hl : s.sup.supplyLow = true) (hm : s.ctl.mode = .reduced) :
    exec .supplyRecovery s = finish s (enterMode (returnTo s) (recovered s)) := by
  refine congrArg (finish s) ((if_pos hl).trans ?_)
  show (if (lapseCond .supplyLow { s with sup.supplyLow := false }).ctl.mode = .reduced then _ else _) = _
  rw [lapse_supplyLow]
  exact if_pos hm

theorem PauseSet.empty_of_addWaiting {p : PauseSet} (h : addWaiting s p = .empty) : p = .empty := by
  unfold addWaiting at h
  split at h
  · rename_i k
    obtain ⟨operator, hold, rejoin, segment⟩ := p
    have none_ : segment = none := Option.isNone_iff_eq_none.mp k
    have o : operator = false := congrArg PauseSet.operator h
    have f : hold = false := congrArg PauseSet.faultHold h
    have r : rejoin = false := congrArg PauseSet.rejoin h
    rw [none_, o, f, r]
    rfl
  · exact h

/-- The mode and the pause-cause set in which a station settles on its return (R11, R17). -/
theorem settle_returnTo (hs : Sound s) (hm : s.ctl.mode = .reduced) :
    let e := s.effectiveMode
    let q := addWaiting s s.ctl.pause
    let taken := settle (returnTo s) (entryPause (returnTo s) (recovered s)) (recovered s)
    taken.1 = (if e.works = true ∧ atTop s = true then .topped
        else if e.climbs = true then (if q = .empty then .climbing else .paused) else e)
      ∧ (e.climbs = true → atTop s = false → taken.2 = q) := by
  intro e q taken
  obtain ⟨returns, -⟩ := hs.mode
  obtain ⟨-, -, -, held, -⟩ := hs.pause
  obtain ⟨r, hr⟩ : ∃ r, s.ctl.returnMode = some r := Option.isSome_iff_exists.mp (by rw [returns, hm]; rfl)
  have eff : e = r := by
    show s.effectiveMode = r
    rw [effectiveMode_of_reduced hm, hr]
    rfl
  have back : returnTo s = if r.climbs = true then (if s.ctl.pause.isEmpty = true then .climbing else .paused) else r := by
    rw [returnTo, hr]
    rfl
  by_cases k : r.climbs = true
  · have climbs : (returnTo s).climbs = true := by
      rw [back, if_pos k]
      split <;> rfl
    have works : (returnTo s).works = true := Mode.works_of_climbs climbs
    have hold : (recovered s).holdPresent = s.holdPresent := holdPresent_without (s := s) (c := .supplyLow) nofun
    have entry : entryPause (returnTo s) (recovered s) = s.ctl.pause := by
      have same : (if (!s.ctl.mode.climbs && (recovered s).holdPresent) = true then
          { s.ctl.pause with faultHold := true } else s.ctl.pause) = s.ctl.pause := by
        rw [hold, ← held (by rw [show s.effectiveMode = r from eff]; exact k)]
        split
        · rename_i z
          exact congrArg (fun b => ({ s.ctl.pause with faultHold := b } : PauseSet)) (Bool.and_eq_true_iff.mp z).2.symm
        · rfl
      cases z : returnTo s with
      | climbing => exact same
      | paused => exact same
      | _ => rw [z] at climbs; cases climbs
    have settled_ : taken = if atTop s = true then (.topped, .empty)
        else (if q.isEmpty = true then returnTo s else .paused, q) := by
      show settle (returnTo s) (entryPause (returnTo s) (recovered s)) (recovered s) = _
      rw [entry, settle, works, climbs]
      rfl
    rw [settled_, eff, k, Mode.works_of_climbs k]
    by_cases top : atTop s = true
    · rw [if_pos top, if_pos ⟨rfl, top⟩]
      exact ⟨rfl, fun _ z => absurd (z.symm.trans top) nofun⟩
    · have no : ¬(true = true ∧ atTop s = true) := fun z => top z.2
      rw [if_neg top, if_neg no, if_pos rfl]
      refine ⟨?_, fun _ _ => rfl⟩
      by_cases z : q = .empty
      · have none_ : s.ctl.pause.isEmpty = true := PauseSet.isEmpty_iff.mpr (PauseSet.empty_of_addWaiting z)
        rw [if_pos k, if_pos none_] at back
        rw [if_pos z]
        exact (if_pos (PauseSet.isEmpty_iff.mpr z)).trans back
      · rw [if_neg z]
        exact if_neg fun y => z (PauseSet.isEmpty_iff.mp y)
  · have same : returnTo s = r := back.trans (if_neg k)
    rw [eff, if_neg k]
    refine ⟨?_, fun z => absurd z k⟩
    show (settle (returnTo s) (entryPause (returnTo s) (recovered s)) (recovered s)).1 = _
    rw [same, settle]
    by_cases top : r.works = true ∧ atTop s = true
    · rw [if_pos top]
      exact congrArg Prod.fst (if_pos (Bool.and_eq_true_iff.mpr top))
    · rw [if_neg top]
      exact congrArg Prod.fst ((if_neg fun z => top (Bool.and_eq_true_iff.mp z)).trans (if_neg k))

/-- The return as a whole: the mode is taken on, and the feed is judged. -/
theorem enterMode_recovered (hs : Sound s) (hm : s.ctl.mode = .reduced) :
    let m := returnTo s
    let taken := settle m (entryPause m (recovered s)) (recovered s)
    ∃ (f : Feed) (r : ReportSlot), enterMode m (recovered s)
        = { takeMode taken.1 taken.2 (recovered s) with feed := f, line.report := r }
      ∧ r.isPending = true := by
  intro m taken
  obtain ⟨-, attempts, calm, -⟩ := hs.line
  have idle : s.feed.state = .idle := hs.idle_of_not_works (by rw [hm]; rfl)
  have ramp : (if m = .climbing then { recovered s with plan.ramp := 0 } else recovered s) = recovered s := by
    split <;> rfl
  have entered : enterMode m (recovered s)
      = rejudgeFeed (feedAllowed (recovered s)) (takeMode taken.1 taken.2 (recovered s)) := by
    rw [enterMode_eq, ramp]
  have quiet : s.line.report.isSending = false := by
    rw [← Bool.not_eq_true]
    intro k
    exact (calm (by rw [attempting, k]; rfl)).2 hm
  have pending : (s.line.report.request .urgent).isPending = true := by
    cases k : s.line.report with
    | sending _ _ => rw [k] at quiet; cases quiet
    | _ => rfl
  obtain ⟨f, r, e, k⟩ := rejudgeFeed_of_idle (s := takeMode taken.1 taken.2 (recovered s)) idle
    (feedAllowed (recovered s))
  refine ⟨f, r, entered.trans e, ?_⟩
  rcases k with k | k
  · rw [k]
    exact pending
  · rw [k]
    exact ReportSlot.isPending_request pending .urgent

theorem Channel.recover_spec (r : SetupRecord) (now : Nat) (d : Channel) :
    (d.recover r now).climbed = d.climbed
      ∧ (d.state ≠ .rest → d.recover r now = d)
      ∧ (d.state = .rest →
        if d.readingValid = false then RetractionBegun r now true (d.recover r now)
        else if r.home < d.x.getD 0 then RetractionBegun r now false (d.recover r now)
        else StandsShut .rest (d.recover r now)) := by
  by_cases k : d.state = .rest
  · rw [show d.recover r now = d.decideHome r now from if_pos k]
    exact ⟨Channel.decideHome_climbed r now d, fun q => absurd k q, fun _ => d.decideHome_spec r now⟩
  · rw [show d.recover r now = d from if_neg k]
    exact ⟨rfl, fun _ => rfl, fun q => absurd q k⟩

/-- Settles O59: the entry to REDUCED with its credits, and the return by the pause-cause set. -/
theorem supplyFallsAndReturns : Obligations.SupplyFallsAndReturns := by
  intro s hs
  obtain ⟨returns, -, low, -⟩ := hs.mode
  refine ⟨fun hl => ?_, fun hl => ?_⟩
  · have mode : s.ctl.mode ≠ .reduced := fun k => by
      rw [hl, k] at low
      cases low
    have effective : s.effectiveMode = s.ctl.mode := effectiveMode_of_ne_reduced mode
    let u := reduced s
    let x := creditStrokes s u
    obtain ⟨struck, ready, -, chans, mean⟩ := creditStrokes_of_sound (u := u) hs (hs.ready_reduced mode)
      hs.still_reduced (fun ch => by
        obtain ⟨active, climbed, -⟩ := Channel.reduce_kept s.now (s.chan ch)
        rw [reduced_chan]
        exact ⟨active, climbed⟩) rfl rfl
    obtain ⟨reducedX, plan, timer, held, frame, report, request, supply⟩ : Fallen x :=
      fallen_creditStrokes (fallen_reduced s)
    have chan : ∀ ch : Ch, (settled s x).chan ch
        = if (s.chan ch).inStroke = true then ((s.chan ch).reduce s.now).credited s.setup
          else (s.chan ch).reduce s.now := fun ch => by
      rw [settled_chan, chans, reduced_chan]
      rfl
    have fed : x.feed = (feedWithdrawn s).feed := by
      have before : u.feed = (feedWithdrawn s).feed := rfl
      rcases struck.feed with k | k
      · exact k.trans before
      · exact k.trans (feedWithdrawn_feed_twice before)
    have latched : (settled s x).sup.latched = x.sup.latched := by rw [settled_sup]
    have weighed : Weighed u x := struck.idle rfl
    have uReturns : u.ctl.returnMode = some s.ctl.mode := rfl
    have uEffective : u.effectiveMode = s.ctl.mode := rfl
    have dull : ∀ ch : Ch, (s.chan ch).state ∈ [ChState.off, .inhibited, .fault] → ¬(s.chan ch).inStroke = true := by
      intro ch k q
      simp only [List.mem_cons, List.not_mem_nil, or_false] at k
      rcases Channel.inStroke_iff.mp q with q | q <;> rcases k with k | k | k <;> exact absurd (k.symm.trans q) nofun
    refine ⟨settled s x, exec_supplyLow hs hl, (congrArg ModeCtl.mode (settled_ctl s x)).trans reducedX, ?_, ?_,
      (settled_now s x).trans struck.aside.now, ?_, ?_, ?_, ?_, ?_, ?_, settled_report_pending report, ?_,
      (settled_cure s x).trans struck.aside.cure, (settled_peers s x).trans struck.aside.peers,
      blankFollows_settled struck.aside.now struck.aside.setup
        (blank_of_kept hs.gate.shape (.inr fed) struck.aside.now struck.aside.setup),
      fun ch _ => ⟨?_, fun k => ?_, fun k => ?_⟩, fun k => ?_, ?_, ?_, ?_, fun k => ?_, fun k => ?_, fun hn => ?_⟩
    · refine (settled_isPresent s x (c := .supplyLow) fun _ => nofun).trans 
        ((struck.marks .supplyLow nofun nofun).trans ?_)
      exact List.contains_iff_mem.mpr (List.mem_append_right s.sup.present List.mem_cons_self)
    · rw [settled_sup]
      exact supply
    · rw [settled_plan]
      exact plan
    · rw [settled_seq]
      exact timer
    · rw [settled_seq]
      exact held
    · rw [settled_feed, fed]
      rfl
    · rw [settled_feed, fed]
      rfl
    · rw [settled_frame]
      exact frame
    · obtain ⟨busy, e⟩ := settled_line s x
      rw [e]
      exact request
    · obtain ⟨-, climbed, peak⟩ := Channel.reduce_kept s.now (s.chan ch)
      rw [chan]
      exact climbed_of_cut peak climbed
    · have live : ¬((s.chan ch).state = .off ∨ (s.chan ch).state = .fault ∨ (s.chan ch).state = .inhibited) := by
        simp only [List.mem_cons, List.not_mem_nil, or_false] at k
        rintro (q | q | q) <;> rcases k with k | k | k | k <;> exact absurd (k.symm.trans q) nofun
      have rests := Channel.reduce_of_live (now := s.now) live
      rw [chan]
      split
      · exact rests
      · exact rests
    · rw [chan, if_neg (dull ch k)]
      simp only [List.mem_cons, List.not_mem_nil, or_false] at k
      refine Channel.reduce_of_other ?_
      rcases k with k | k | k
      · exact .inl k
      · exact .inr (.inr k)
      · exact .inr (.inl k)
    · rw [settled_seq]
      exact mean k
    · rw [settled_stack, settled_seq]
      exact struck.layers
    · rw [settled_stack]
      exact struck.top
    · rw [settled_seq]
      exact struck.strokes
    · rw [latched] at k
      rw [settled_ctl]
      rcases weighed with ⟨-, -, -, -, same⟩ | ⟨grown, -⟩
      · exact same.trans uReturns
      · rw [k] at grown
        exact absurd grown (Nat.lt_irrefl _)
    · rw [latched] at k
      rw [settled_ctl]
      rcases weighed with ⟨same, -⟩ | ⟨-, -, returns_⟩
      · exact absurd same k
      · refine returns_.trans ?_
        rw [uEffective]
        by_cases q : s.ctl.mode.works = true
        · rw [if_pos q]
          exact if_pos ⟨rfl, q⟩
        · rw [if_neg q]
          exact if_neg fun z => q z.2
    · have same : x = u := creditStrokes_of_none (fun ch => hn ch (Ch.mem_all ch)) u
      rw [settled_ctl, settled_stack, settled_seq, settled_sup]
      exact ⟨(congrArg State.ctl same :), (congrArg (fun z : State => z.stack.layers) same :),
        (congrArg (fun z : State => z.seq.height) same :), (congrArg (fun z : State => z.sup.latched) same :)⟩
  · have mode : s.ctl.mode = .reduced := by
      rw [hl] at low
      exact beq_iff_eq.mp low.symm
    let m := returnTo s
    let w := enterMode m (recovered s)
    let q := addWaiting s s.ctl.pause
    obtain ⟨settles, pauses⟩ := settle_returnTo hs mode
    obtain ⟨f, r, whole, pending⟩ := enterMode_recovered hs mode
    have whole : w = _ := whole
    obtain ⟨climbsOut, -⟩ := hs.pause
    have tMode : (settled s w).ctl.mode = _ := (congrArg ModeCtl.mode (settled_ctl s w)).trans
      ((congrArg (fun z : State => z.ctl.mode) whole :).trans settles)
    have tPause : (settled s w).ctl.pause = _ := (congrArg ModeCtl.pause (settled_ctl s w)).trans
      (congrArg (fun z : State => z.ctl.pause) whole :)
    refine ⟨settled s w, exec_supplyRecovery hl mode, ?_, ?_, ?_, ?_, ?_, ?_, ?_, ?_, ?_, ?_,
      settled_report_pending (by rw [whole]; exact pending), fun hw => ?_, fun hw ht => ?_, fun he ht => ?_,
      fun hc ht => ?_, fun ch _ => ?_⟩
    · refine (settled_isPresent s w (c := .supplyLow) fun _ => nofun).trans ?_
      rw [whole]
      simp [State.isPresent]
    · rw [settled_sup, whole]
      rfl
    · rw [settled_plan, whole]
      rfl
    · rw [settled_ctl, whole]
      rfl
    · rw [settled_now, whole]
      rfl
    · rw [settled_cure, whole]
      rfl
    · rw [settled_peers, whole]
      rfl
    · rw [settled_stack, whole]
      rfl
    · rw [settled_seq, whole]
      rfl
    · rw [settled_sup, whole]
      rfl
    · have off : ¬ s.effectiveMode.climbs = true := fun k => absurd (hw.symm.trans (Mode.works_of_climbs k)) nofun
      rw [tMode, if_neg (by rw [hw]; exact fun k => nomatch k.1), if_neg off]
    · rw [tMode, if_pos ⟨hw, ht⟩]
    · rw [tMode, if_neg (by rw [ht]; exact fun k => nomatch k.2), he]
      rfl
    · have joined : q = { s.ctl.pause with
          segment := if s.ctl.pause.segment = none then waitingSegment s else s.ctl.pause.segment } := by
        show addWaiting s s.ctl.pause = _
        unfold addWaiting
        cases k : s.ctl.pause.segment with
        | none => rfl
        | some n =>
          rw [if_neg nofun, if_neg nofun]
          exact congrArg (fun g => ({ s.ctl.pause with segment := g } : PauseSet)) k
      have paused : (settled s w).ctl.pause = q := tPause.trans (pauses hc ht)
      refine ⟨paused.trans joined, ?_, ?_⟩
      · rw [paused, tMode, if_neg (by rw [ht]; exact fun k => nomatch k.2), if_pos hc]
        rfl
      · have climbs : (settle m (entryPause m (recovered s)) (recovered s)).1.climbs = true := by
          rw [settles, if_neg (by rw [ht]; exact fun k => nomatch k.2), if_pos hc]
          split <;> rfl
        rw [settled_seq, whole]
        show (if (settle m (entryPause m (recovered s)) (recovered s)).1.climbs = true then
          (if ((settle m (entryPause m (recovered s)) (recovered s)).1.climbs && !s.ctl.mode.climbs) = true then
            some s.now else s.seq.cycleTimer) else none) = _
        rw [climbs, mode]
        rfl
    · obtain ⟨climbed, other, rests⟩ := Channel.recover_spec s.setup s.now (s.chan ch)
      have led : (settled s w).chan ch = (s.chan ch).recover s.setup s.now := by
        rw [settled_chan, whole]
        exact recovered_chan s ch
      rw [led]
      exact ⟨climbed, other, rests⟩

end

end Sys2Proof.Machine
end

section
/-! PROOFS. The pause-cause set and the entry checks (R6 to R11): what an entry to a mode, a member that joins or
leaves, an onset, an end, a latch and a credit keep of them. -/

namespace Sys2Proof.Machine

-- In order, so that the proofs waiting on one another do not hold a stack each.
set_option Elab.async false

section
variable {s t u : State} {c : Cond} {m : Mode} {b : Bool}

/-! ### The law in two halves -/

/-- The pause-cause set by mode, FAULT HOLD and the segment's entry check apart (R6, R10, R17). -/
abbrev PauseShape (s : State) : Prop :=
  (s.effectiveMode.climbs = false → s.ctl.pause = .empty)
    ∧ (s.ctl.mode = .climbing → s.ctl.pause = .empty)
    ∧ (s.ctl.mode = .paused → s.ctl.pause.isEmpty = false)
    ∧ (∀ k ∈ s.ctl.pause.segment, 2 ≤ k ∧ k ≤ 8)

/-- FAULT HOLD is a member exactly where `b` (R8). -/
abbrev HeldAs (b : Bool) (s : State) : Prop := s.effectiveMode.climbs = true → s.ctl.pause.faultHold = b

/-- A working station stands below its program top (R11). -/
abbrev BelowTop (s : State) : Prop := s.ctl.mode.works = true → atTop s = false

/-- No segment is waited at without its SEGMENT ENTRY (R10). -/
abbrev SegmentJoined (s : State) : Prop :=
  s.ctl.mode.climbs = true → s.ctl.pause.segment.isSome = true ∨ waitingSegment s = none

/-- The pause-cause set with FAULT HOLD as `b` says, and the entry checks made: where a condition comes or goes,
before the set follows. -/
abbrev Unfollowed (b : Bool) (s : State) : Prop := PauseShape s ∧ HeldAs b s ∧ EntryLaw s

/-- The pause-cause set and the entry checks, the waiting segment's apart. -/
abbrev Unjoined (s : State) : Prop := PauseShape s ∧ HeldAs s.holdPresent s ∧ BelowTop s

/-- The laws of the pause-cause set and of the entry checks. -/
abbrev Lawful (s : State) : Prop := PauseShape s ∧ HeldAs s.holdPresent s ∧ EntryLaw s

theorem lawful_iff : Lawful s ↔ PauseLaw s ∧ EntryLaw s := by
  constructor
  · rintro ⟨⟨idle, climbing, paused, range⟩, held, entry⟩
    exact ⟨⟨idle, climbing, paused, held, range⟩, entry⟩
  · rintro ⟨⟨idle, climbing, paused, held, range⟩, entry⟩
    exact ⟨⟨idle, climbing, paused, range⟩, held, entry⟩

theorem Unjoined.lawful (h : Unjoined s) (k : SegmentJoined s) : Lawful s := by
  obtain ⟨shape, held, below⟩ := h
  exact ⟨shape, held, below, k⟩

theorem Lawful.unjoined (h : Lawful s) : Unjoined s := by
  obtain ⟨shape, held, below, -⟩ := h
  exact ⟨shape, held, below⟩

/-! ### Modes -/

theorem climbs_of_effective (h : s.ctl.mode.climbs = true) : s.effectiveMode.climbs = true := by
  rw [effectiveMode_of_ne_reduced (Mode.ne_reduced_of_works (Mode.works_of_climbs h))]
  exact h

theorem not_climbs_of_effective (h : s.effectiveMode.climbs = false) : s.ctl.mode.climbs = false := by
  rw [← Bool.not_eq_true]
  exact fun k => absurd (h.symm.trans (climbs_of_effective k)) nofun

theorem Mode.climbs_iff {m : Mode} : m.climbs = true ↔ m = .climbing ∨ m = .paused := by
  cases m <;> simp [Mode.climbs]

/-- A set that waits for nothing in a mode that does not climb. -/
theorem unfollowed_of_idle (b : Bool) (he : s.effectiveMode.climbs = false) (hp : s.ctl.pause = .empty)
    (ht : BelowTop s) : Unfollowed b s := by
  have off := not_climbs_of_effective he
  refine ⟨⟨fun _ => hp, fun _ => hp, fun k => ?_, ?_⟩, fun k => ?_, ht, fun k => ?_⟩
  · rw [k] at off
    cases off
  · rw [hp]
    exact nofun
  · exact absurd (he.symm.trans k) nofun
  · exact absurd (off.symm.trans k) nofun

theorem lawful_of_idle (he : s.effectiveMode.climbs = false) (hp : s.ctl.pause = .empty) (ht : BelowTop s) :
    Lawful s :=
  unfollowed_of_idle s.holdPresent he hp ht

/-! ### The waiting segment -/

theorem waitingSegment_range {k : Nat} (h : waitingSegment s = some k) : 2 ≤ k ∧ k ≤ 8 := by
  have listed := (List.mem_filter.mp (List.mem_of_find?_eq_some h)).1
  simp only [List.mem_cons, List.not_mem_nil, or_false] at listed
  omega

theorem addWaiting_range {p : PauseSet} (h : ∀ k ∈ p.segment, 2 ≤ k ∧ k ≤ 8) :
    ∀ k ∈ (addWaiting s p).segment, 2 ≤ k ∧ k ≤ 8 := by
  unfold addWaiting
  split
  · exact fun _ hk => waitingSegment_range hk
  · exact h

theorem addWaiting_joined (p : PauseSet) : (addWaiting s p).segment.isSome = true ∨ waitingSegment s = none := by
  unfold addWaiting
  split
  · cases waitingSegment s
    · exact .inr rfl
    · exact .inl rfl
  · rename_i k
    exact .inl (by cases q : p.segment <;> simp_all)

theorem addWaiting_faultHold (p : PauseSet) : (addWaiting s p).faultHold = p.faultHold := by
  unfold addWaiting
  split <;> rfl

theorem addWaiting_full {p : PauseSet} (h : p.isEmpty = false) : (addWaiting s p).isEmpty = false := by
  rw [← Bool.not_eq_true] at h ⊢
  exact fun k => h (PauseSet.isEmpty_iff.mpr (PauseSet.empty_of_addWaiting (PauseSet.isEmpty_iff.mp k)))

/-! ### Entries -/

theorem enterMode_upright (hm : m ≠ .reduced) : (enterMode m s).ctl.mode ≠ .reduced := by
  rw [enterMode_mode]
  rcases settle_cases m (entryPause m s) s with ⟨-, -, e⟩ | ⟨-, -, -, e⟩ | ⟨-, -, -, e⟩ | ⟨-, -, e⟩ <;> rw [e]
  · exact nofun
  · exact hm
  · exact nofun
  · exact hm

theorem holdPresent_enterMode : (enterMode m s).holdPresent = s.holdPresent :=
  holdPresent_of_same (by rw [enterMode_sup]) (aside_enterMode m s).setup (by rw [enterMode_sup])

theorem atTop_enterMode : atTop (enterMode m s) = atTop s := by
  rw [atTop, (aside_enterMode m s).setup, enterMode_height]
  rfl

theorem waitingSegment_of_same (hj : t.setup = s.setup) (hr : t.ctl.released = s.ctl.released)
    (hh : t.seq.height = s.seq.height) : waitingSegment t = waitingSegment s := by
  simp only [waitingSegment, unreleased, hj, hr, hh]

theorem waitingSegment_enterMode : waitingSegment (enterMode m s) = waitingSegment s :=
  waitingSegment_of_same (aside_enterMode m s).setup (enterMode_released m s) (enterMode_height m s)

/-- An entry makes the entry checks itself, and takes the set that it is made with (R6, R8, R11). -/
theorem lawful_enterMode (hm : m ≠ .reduced) (range : ∀ k ∈ (entryPause m s).segment, 2 ≤ k ∧ k ≤ 8)
    (full : m = .paused → (entryPause m s).isEmpty = false)
    (idle : m.climbs = false → entryPause m s = .empty)
    (held : m.climbs = true → (entryPause m s).faultHold = s.holdPresent) : Lawful (enterMode m s) := by
  have eff : (enterMode m s).effectiveMode = (settle m (entryPause m s) s).1 :=
    (effectiveMode_of_ne_reduced (enterMode_upright hm)).trans (enterMode_mode m s)
  have mode := enterMode_mode m s
  have pause := enterMode_pause m s
  rcases settle_cases m (entryPause m s) s with
    ⟨-, -, e⟩ | ⟨climbs, top, none_, e⟩ | ⟨climbs, top, some_, e⟩ | ⟨off, top, e⟩ <;>
    rw [e] at eff mode pause
  · exact lawful_of_idle (by rw [eff]; rfl) pause (by rw [BelowTop, mode]; exact nofun)
  · have gone := PauseSet.isEmpty_iff.mp none_
    refine ⟨⟨fun _ => pause.trans gone, fun _ => pause.trans gone, fun k => ?_, ?_⟩, fun _ => ?_, fun _ => ?_, fun _ => ?_⟩
    · have paused : m = .paused := mode.symm.trans k
      exact absurd (none_.symm.trans (addWaiting_full (full paused))) nofun
    · rw [pause]
      exact addWaiting_range range
    · rw [pause, addWaiting_faultHold, holdPresent_enterMode]
      exact held climbs
    · rw [atTop_enterMode]
      exact top
    · rw [pause, waitingSegment_enterMode]
      exact addWaiting_joined _
  · refine ⟨⟨fun k => ?_, fun k => ?_, fun _ => ?_, ?_⟩, fun _ => ?_, fun _ => ?_, fun _ => ?_⟩
    · rw [eff] at k
      cases k
    · exact absurd (mode.symm.trans k) nofun
    · rw [pause]
      exact some_
    · rw [pause]
      exact addWaiting_range range
    · rw [pause, addWaiting_faultHold, holdPresent_enterMode]
      exact held climbs
    · rw [atTop_enterMode]
      exact top
    · rw [pause, waitingSegment_enterMode]
      exact addWaiting_joined _
  · refine lawful_of_idle (by rw [eff]; exact off) (pause.trans (idle off)) fun k => ?_
    rw [mode] at k
    rw [atTop_enterMode]
    exact top.resolve_left fun q => absurd (q.symm.trans k) nofun

/-- An entry that empties the set (R6). -/
theorem lawful_enterMode_still (hm : m = .standing ∨ m = .stopped ∨ m = .topped) : Lawful (enterMode m s) := by
  have off : m ≠ .reduced ∧ m ≠ .paused ∧ m.climbs = false ∧ entryPause m s = .empty := by
    rcases hm with rfl | rfl | rfl <;> exact ⟨nofun, nofun, rfl, rfl⟩
  obtain ⟨upright, still, idle, empty⟩ := off
  refine lawful_enterMode upright ?_ (fun k => absurd k still) (fun _ => empty) fun k => absurd (idle.symm.trans k) nofun
  rw [empty]
  exact nofun

/-- An entry from one of CLIMBING and PAUSED to one of them takes the set as it stands (R8). -/
theorem entryPause_climbs (hm : m.climbs = true) (hs : s.ctl.mode.climbs = true) : entryPause m s = s.ctl.pause := by
  rcases Mode.climbs_iff.mp hm with rfl | rfl <;> simp [entryPause, hs]

/-- An entry to CLIMBING or PAUSED from another mode brings FAULT HOLD where a HOLD-class condition is present
(R8). -/
theorem entryPause_fresh (hm : m.climbs = true) (hs : s.ctl.mode.climbs = false) :
    entryPause m s = { s.ctl.pause with faultHold := s.holdPresent || s.ctl.pause.faultHold } := by
  obtain ⟨p, hp⟩ : ∃ p, s.ctl.pause = p := ⟨_, rfl⟩
  rcases Mode.climbs_iff.mp hm with rfl | rfl <;> cases k : s.holdPresent <;> simp [entryPause, hs, k]

/-! ### Members of the set -/

/-- A member leaves the set: the station climbs again where it was the last (R6). -/
theorem unjoined_dropPause (f : PauseSet → PauseSet) (h : PauseShape s) (ht : BelowTop s)
    (hf : f .empty = .empty) (hs : ∀ k ∈ (f s.ctl.pause).segment, k ∈ s.ctl.pause.segment)
    (hold : s.effectiveMode.climbs = true → (f s.ctl.pause).faultHold = s.holdPresent) :
    Unjoined (dropPause f s)
      ∧ ((f s.ctl.pause).segment = s.ctl.pause.segment → SegmentJoined s → SegmentJoined (dropPause f s)) := by
  obtain ⟨idle, climbing, paused, range⟩ := h
  have ranges : ∀ k ∈ (f s.ctl.pause).segment, 2 ≤ k ∧ k ≤ 8 := fun k hk => range k (hs k hk)
  rcases dropPause_cases f s with ⟨same, e⟩ | ⟨-, mode, last, e⟩ | ⟨changed, left, e⟩ <;> rw [e]
  · rw [same] at hold
    exact ⟨⟨⟨idle, climbing, paused, range⟩, hold, ht⟩, fun _ k => k⟩
  · have climbs : s.ctl.mode.climbs = true := by rw [mode]; rfl
    have entry : entryPause .climbing { s with ctl.pause := f s.ctl.pause } = f s.ctl.pause :=
      entryPause_climbs rfl climbs
    have lawful : Lawful (enterMode .climbing { s with ctl.pause := f s.ctl.pause }) :=
      lawful_enterMode nofun (entry.symm ▸ ranges) nofun nofun
        fun _ => (congrArg PauseSet.faultHold entry).trans (hold (climbs_of_effective climbs))
    exact ⟨lawful.unjoined, fun _ _ => lawful.2.2.2⟩
  · refine ⟨⟨⟨fun k => ?_, fun k => ?_, fun k => ?_, ranges⟩, hold, ht⟩, fun q k hc => ?_⟩
    · exact (congrArg f (idle k)).trans hf
    · exact (congrArg f (climbing k)).trans hf
    · rw [← Bool.not_eq_true]
      exact fun q => left ⟨k, q⟩
    · have joined := k hc
      rw [← q] at joined
      exact joined

/-- A member joins the set: a climbing station pauses (R6). -/
theorem lawful_addPause (f : PauseSet → PauseSet) (h : PauseShape s) (ht : BelowTop s)
    (full : (f s.ctl.pause).isEmpty = false) (range : ∀ k ∈ (f s.ctl.pause).segment, 2 ≤ k ∧ k ≤ 8)
    (hold : s.effectiveMode.climbs = true → (f s.ctl.pause).faultHold = s.holdPresent)
    (joined : s.ctl.mode.climbs = true → (f s.ctl.pause).segment.isSome = true ∨ waitingSegment s = none) :
    Lawful (addPause f s) := by
  obtain ⟨idle, climbing, paused, -⟩ := h
  rcases addPause_cases f s with ⟨mode, e⟩ | ⟨mode, e⟩ | ⟨off, away, e⟩ <;> rw [e]
  · have climbs : s.ctl.mode.climbs = true := by rw [mode]; rfl
    have entry : entryPause .paused { s with ctl.pause := f s.ctl.pause } = f s.ctl.pause :=
      entryPause_climbs rfl climbs
    exact lawful_enterMode nofun (entry.symm ▸ range) (fun _ => entry.symm ▸ full) nofun
      fun _ => (congrArg PauseSet.faultHold entry).trans (hold (climbs_of_effective climbs))
  · have climbs : s.effectiveMode.climbs = true := by
      rcases mode with k | ⟨k, q⟩
      · exact climbs_of_effective (by rw [k]; rfl)
      · rw [effectiveMode_of_reduced k]
        exact q
    have still : s.ctl.mode ≠ .climbing := by
      rcases mode with k | ⟨k, -⟩ <;> rw [k] <;> exact nofun
    exact ⟨⟨fun k => absurd (climbs.symm.trans k) nofun, fun k => absurd k still, fun _ => full, range⟩, hold, ht,
      joined⟩
  · have eff : s.effectiveMode.climbs = false := by
      by_cases k : s.ctl.mode = .reduced
      · rw [effectiveMode_of_reduced k]
        exact away.resolve_left fun q => q k
      · rw [effectiveMode_of_ne_reduced k]
        exact off
    exact lawful_of_idle eff (idle eff) ht

/-- FAULT HOLD follows the HOLD-class conditions (R8, R183). -/
theorem lawful_followHold (h : Unfollowed b s) : Lawful (followHold b s) := by
  obtain ⟨shape, held, below, joined⟩ := h
  have range := shape.2.2.2
  rcases followHold_cases b s with ⟨same, e⟩ | ⟨hb, hold, e⟩ | ⟨hb, hold, e⟩ <;> rw [e]
  · exact ⟨shape, same ▸ held, below, joined⟩
  · obtain ⟨unjoined, kept⟩ := unjoined_dropPause (fun p => { p with faultHold := false }) shape below rfl
      (fun _ k => k) fun _ => hold.symm
    exact unjoined.lawful (kept rfl joined)
  · refine lawful_addPause (fun p => { p with faultHold := true }) shape below ?_ range (fun _ => hold.symm) joined
    simp [PauseSet.isEmpty]

/-- REJOIN leaves where it can (R9). -/
theorem lawful_checkRejoin (h : Lawful s) : Lawful (checkRejoin s) := by
  obtain ⟨shape, held, below, joined⟩ := h
  rcases checkRejoin_cases s with ⟨-, -, e⟩ | ⟨-, e⟩ <;> rw [e]
  · obtain ⟨unjoined, kept⟩ := unjoined_dropPause (fun p => { p with rejoin := false }) shape below rfl
      (fun _ k => k) held
    exact unjoined.lawful (kept rfl joined)
  · exact ⟨shape, held, below, joined⟩

/-- The segment's entry check joins the segment that waits (R10). -/
theorem lawful_segmentCheck (h : Unjoined s) : Lawful (segmentCheck s) := by
  have ⟨shape, held, below⟩ := h
  rcases segmentCheck_cases s with ⟨-, free, waits, e⟩ | ⟨done, e⟩ <;> rw [e]
  · have added : (addWaiting s s.ctl.pause).segment = waitingSegment s := by
      rw [addWaiting, free]
      rfl
    refine lawful_addPause (addWaiting s) shape below ?_ (addWaiting_range shape.2.2.2) (fun k => ?_)
      fun _ => addWaiting_joined _
    · rw [← Bool.not_eq_true]
      intro k
      have none_ : waitingSegment s = none := added.symm.trans (congrArg PauseSet.segment (PauseSet.isEmpty_iff.mp k))
      rw [none_] at waits
      cases waits
    · rw [addWaiting_faultHold]
      exact held k
  · refine h.lawful fun k => ?_
    rcases done with q | q | q
    · exact absurd (q.symm.trans k) nofun
    · exact .inl (Option.isSome_iff_ne_none.mpr q)
    · exact .inr q

/-- The entry checks after a credit, which may have raised the station to its program top (R11). -/
theorem lawful_creditChecks (h : PauseShape s) (k : HeldAs s.holdPresent s) : Lawful (creditChecks s) := by
  rcases creditChecks_cases s with ⟨-, -, e⟩ | ⟨below, e⟩ <;> rw [e]
  · exact lawful_enterMode_still (.inr (.inr rfl))
  · exact lawful_segmentCheck ⟨h, k, fun q => below.resolve_left fun z => absurd (z.symm.trans q) nofun⟩

/-! ### Conditions -/

theorem effectiveMode_enterMode_stopped (s : State) : (enterMode .stopped s).effectiveMode = .stopped :=
  have stops : (settle .stopped (entryPause .stopped s) s).1 = .stopped := rfl
  (effectiveMode_of_ne_reduced (enterMode_upright (m := .stopped) nofun)).trans ((enterMode_mode .stopped s).trans stops)

/-- The mode controller stops the station with its set emptied, before the set follows the condition (R15, R17). -/
theorem unfollowed_latchMode (h : Unfollowed b s) : Unfollowed b (latchMode s) := by
  rcases latchMode_cases s with ⟨-, e⟩ | ⟨hm, hr, e⟩ | ⟨-, -, e⟩ <;> rw [e]
  · have mode := effectiveMode_enterMode_stopped s
    have pause : (enterMode .stopped s).ctl.pause = .empty := enterMode_pause .stopped s
    refine unfollowed_of_idle b (by rw [mode]; rfl) pause fun k => ?_
    exact absurd ((congrArg Mode.works mode).symm.trans
      ((congrArg Mode.works (effectiveMode_of_ne_reduced (enterMode_upright (m := .stopped) nofun))).trans k)) nofun
  · let u : State := { s with ctl.returnMode := some .stopped, ctl.pause := .empty }
    have mode : u.effectiveMode = .stopped := effectiveMode_of_reduced hm
    have still : Unfollowed b u :=
      unfollowed_of_idle b (by rw [mode]; rfl) rfl fun k => absurd hm (Mode.ne_reduced_of_works k)
    exact still
  · exact h

theorem unfollowed_latch (h : Unfollowed b s) : Unfollowed b (latch c s) := by
  rcases latch_cases c s with ⟨-, e⟩ | ⟨-, e⟩ <;> rw [e]
  · exact h
  · have stopped : Unfollowed b (latchMode (joinLatched c s)) := unfollowed_latchMode (s := joinLatched c s) h
    rcases pullForTrip_cases c (cutExtensions (latchMode (joinLatched c s))) with ⟨-, e⟩ | ⟨-, e⟩ <;>
      rw [e] <;> exact stopped

theorem lawful_raise (c : Cond) (h : Lawful s) : Lawful (raiseCond c s) := by
  have shown : Unfollowed s.holdPresent { s with sup.present := s.sup.present ++ [c] } := h
  rcases raiseCond_cases c s with ⟨-, e⟩ | ⟨-, -, e⟩ | ⟨-, -, e⟩ <;> rw [e]
  · exact h
  · exact lawful_followHold (unfollowed_latch shown)
  · exact lawful_followHold shown

theorem lawful_lapse (c : Cond) (h : Lawful s) : Lawful (lapseCond c s) := by
  have gone : Unfollowed s.holdPresent { s with sup.present := s.sup.present.filter (· != c) } := h
  rcases lapseCond_cases c s with ⟨-, e⟩ | ⟨-, e⟩ <;> rw [e]
  · exact h
  · exact lawful_followHold gone

theorem lawful_judge (c : Cond) (b : Bool) (h : Lawful s) : Lawful (judgeCond c b s) := by
  cases b
  · exact lawful_lapse c h
  · exact lawful_raise c h

theorem lawful_judgePeers (h : Lawful s) : Lawful (judgePeers s) := lawful_judge _ _ (lawful_judge _ _ h)

/-- A credit makes the entry checks before the conditions are judged (R95). -/
theorem lawful_credit (ch : Ch) (h : Lawful s) : Lawful (credit ch s) := by
  obtain ⟨shape, held, -⟩ := h
  exact lawful_judge _ _ (lawful_judge _ _
    (lawful_creditChecks (s := keepChange true (creditHeight ch s)) shape held))

end

end Sys2Proof.Machine
end

section
/-! PROOFS. Every step keeps the modes, the pause-cause set and the entry checks in order (R6 to R11, R17, R18,
R194). -/

namespace Sys2Proof.Machine

-- In order, so that the proofs waiting on one another do not hold a stack each.
set_option Elab.async false

section
variable {s t u : State} {c : Cond} {m : Mode}

/-! ### The rate scale, the release set and the supply -/

/-- The supply is low in REDUCED alone, and the rate scale and the release set lie in their ranges (R10, R18,
R194). -/
abbrev Tuned (s : State) : Prop :=
  s.sup.supplyLow = (s.ctl.mode == .reduced) ∧ s.ctl.rateScale ≤ Config.rateScaleMax ∧ ReleaseSet s.ctl.released

theorem Mode.upright {m : Mode} (h : m ≠ .reduced) : (m == .reduced) = false := beq_eq_false_iff_ne.mpr h

theorem tuned_enterMode (hm : m ≠ .reduced) (hl : s.sup.supplyLow = false)
    (hk : s.ctl.rateScale ≤ Config.rateScaleMax ∧ ReleaseSet s.ctl.released) : Tuned (enterMode m s) := by
  refine ⟨?_, ?_, ?_⟩
  · rw [enterMode_sup, hl, Mode.upright (enterMode_upright hm)]
  · rw [enterMode_rateScale]
    exact hk.1
  · rw [enterMode_released]
    exact hk.2

theorem Tuned.enterMode (h : Tuned s) (hm : m ≠ .reduced) (hs : s.ctl.mode ≠ .reduced) : Tuned (enterMode m s) := by
  obtain ⟨low, range⟩ := h
  exact tuned_enterMode hm (low.trans (Mode.upright hs)) range

theorem latchParts_tuned : LatchParts Tuned where
  enter _ _ h hs hm := h.enterMode (Mode.ne_reduced_of_takesCommands hm) (Mode.ne_reduced_of_takesCommands hs)

theorem moves_tuned : Moves Tuned fun _ => true := latchParts_tuned.moves

/-- SUPPLY LOW neither latches nor holds the station (R194). -/
theorem raise_supplyLow_kept (s : State) :
    (raiseCond .supplyLow s).ctl = s.ctl ∧ (raiseCond .supplyLow s).sup.supplyLow = s.sup.supplyLow := by
  cases h : s.isPresent .supplyLow with
  | true =>
    have same : raiseCond .supplyLow s = s := if_pos h
    rw [same]
    exact ⟨rfl, rfl⟩
  | false =>
    rw [raise_of_dull h rfl nofun]
    exact ⟨rfl, rfl⟩

theorem lapse_supplyLow_kept (s : State) :
    (lapseCond .supplyLow s).ctl = s.ctl ∧ (lapseCond .supplyLow s).sup.supplyLow = s.sup.supplyLow := by
  rw [lapseCond_of_ne_hold (s := s) (c := .supplyLow) nofun]
  exact ⟨rfl, rfl⟩

theorem returnTo_upright (h : ModeShape s) (hm : s.ctl.mode = .reduced) : returnTo s ≠ .reduced := by
  obtain ⟨held, upright⟩ := h
  rw [hm] at held
  obtain ⟨r, hr⟩ := Option.isSome_iff_exists.mp held
  rw [hr] at upright
  rw [returnTo, hr]
  show (if r.climbs = true then _ else r) ≠ _
  split
  · split <;> exact nofun
  · exact fun k => upright (congrArg some k)

theorem releaseSet_releaseSegment (k : Nat) (rs : List Nat) : ReleaseSet (releaseSegment k rs) := by
  refine (List.filter_congr fun j hj => ?_).symm
  show (releaseSegment k rs).contains j = _
  cases q : (j == k || rs.contains j) with
  | true => exact List.contains_iff_mem.mpr (List.mem_filter.mpr ⟨hj, q⟩)
  | false =>
    rw [← Bool.not_eq_true, List.contains_iff_mem]
    exact fun z => absurd (q.symm.trans (List.mem_filter.mp z).2) nofun

theorem supplyKeeps_tuned : SupplyKeeps fun s => Ground s ∧ Tuned s where
  supplyLow s t h hl e := by
    refine ⟨keeps_ground.supply.supplyLow s t h.1 hl e, ?_⟩
    obtain ⟨-, low, range⟩ := h
    obtain ⟨ctl, supply⟩ := raise_supplyLow_kept { s with sup.supplyLow := true }
    rw [← e] at ctl supply
    have upright : t.ctl.mode ≠ .reduced := fun k => by
      have mode : s.ctl.mode = .reduced := (congrArg ModeCtl.mode ctl).symm.trans k
      rw [hl, mode] at low
      cases low
    rw [if_neg upright]
    have F : FeedParts Tuned := {}
    have fallen : Tuned (toReduced t) := by
      refine ⟨supply, ?_⟩
      show t.ctl.rateScale ≤ _ ∧ ReleaseSet t.ctl.released
      rw [ctl]
      exact range
    have entered : Tuned (enterReduced t) := by
      rw [enterReduced_eq]
      exact F.rejudge _ fallen
    exact creditStrokes_keeps (fun ch v _ k => moves_tuned.credit (c := ch) k) entered
  supplyRecovery s t h hl e := by
    refine ⟨keeps_ground.supply.supplyRecovery s t h.1 hl e, ?_⟩
    have ground : Ground t := e ▸ moves_ground.lapse .supplyLow rfl (s := { s with sup.supplyLow := false }) h.1
    obtain ⟨-, low, range⟩ := h
    obtain ⟨ctl, supply⟩ := lapse_supplyLow_kept { s with sup.supplyLow := false }
    rw [← e] at ctl supply
    have mode : t.ctl.mode = .reduced := by
      rw [hl] at low
      exact (congrArg ModeCtl.mode ctl).trans (beq_iff_eq.mp low.symm)
    rw [if_pos mode]
    have ranges : t.ctl.rateScale ≤ Config.rateScaleMax ∧ ReleaseSet t.ctl.released := by
      rw [ctl]
      exact range
    exact tuned_enterMode (returnTo_upright ground.1 mode) supply ranges

theorem joinParts_tuned : JoinParts Tuned where
  adopt s h := by
    obtain ⟨st, e⟩ := adoptStack_eq (adoptedHeight s) (adoptedMaturity s) (setHeights (adoptedHeight s) s)
    rw [e]
    exact h
  leave _ _ h hm hs := h.enterMode (Mode.ne_reduced_of_takesCommands hm) hs

theorem tuned_goodCommit (hm : s.ctl.mode = .setup) (h : Tuned s) : Tuned (goodCommit s) := by
  have entered : Tuned (enterMode .joining (takeCommit s)) :=
    Tuned.enterMode (s := takeCommit s) h nofun (by rw [show (takeCommit s).ctl.mode = .setup from hm]; exact nofun)
  exact moves_tuned.judgePeers (s := bringIntoForce _) entered

theorem steering_tuned : Steering Tuned :=
  moves_tuned.steering (release := fun k s h => by
    obtain ⟨low, scale, -⟩ := h
    exact ⟨low, scale, releaseSet_releaseSegment k s.ctl.released⟩)

theorem keeps_tuned : Keeps fun s => Ground s ∧ Tuned s :=
  have F : FeedParts Tuned := {}
  have M := moves_tuned
  have H : MovedParts Tuned True := ChannelParts.movedParts {}
  have G := keeps_ground
  { steer := G.steer.and steering_tuned
    scale := fun _ _ hr h => ⟨h.1, h.2.1, hr, h.2.2.2⟩
    jacks := G.jacks.and (H.jacks M)
    concrete := G.concrete.and (F.concrete M)
    line := G.line.and M.line
    peers := G.peers.and (M.peers F fun _ k _ => joinParts_tuned.decide M k)
    setup :=
      { stage := fun id v s h hm hid => ⟨G.setup.stage id v s h.1 hm hid, h.2⟩
        refuseCommit := fun c s h hm => ⟨G.setup.refuseCommit c s h.1 hm, h.2⟩
        commit := fun c s h hm hc => ⟨G.setup.commit c s h.1 hm hc, tuned_goodCommit hm h.2⟩
        request := fun s h ht => ⟨G.setup.request s h.1 ht, h.2⟩
        window := fun s h ht => ⟨G.setup.window s h.1 ht,
          lockStation_keeps (P := Tuned) h.2 fun k => Tuned.enterMode (s := { s with
            join.stage := .closed, join.windowTimer := none, join.requestTimer := none }) (m := .locked) h.2 nofun fun z =>
              absurd (k.symm.trans z) nofun⟩
        listen := fun s h ht => ⟨G.setup.listen s h.1 ht, joinParts_tuned.decide M h.2⟩ }
    guards := G.guards.and M.guards
    supply := supplyKeeps_tuned }

theorem tuned_step {t : State} (hs : Sound s) (he : step s = .next t) : Tuned t := by
  have law : Ground s ∧ Tuned s := by
    obtain ⟨-, -, low, range⟩ := hs.mode
    exact ⟨hs.ground, low, range⟩
  have full : 100 ≤ Config.rateScaleMax := by decide
  refine step_keeps keeps_tuned he (fun _ => law) (fun v _ k => settled_keeps v k.2)
    (passTime_keeps (P := Tuned) law.2) ?_ ?_ ?_
  · exact fun _ _ _ _ _ _ _ => ⟨rfl, full, rfl⟩
  · exact fun _ _ _ _ => ⟨rfl, full, rfl⟩
  · intro strap inhibit cut a b image q _ _ hu _
    obtain ⟨-, low, -⟩ := restarted_restoreCourse strap inhibit a b image.kept { s with pending := q }
    obtain ⟨-, -, -, -, -, -, -, released, -⟩ := hs.kept hu
    obtain ⟨⟨p, r, e⟩, -⟩ := restored_restoreCourse (strap := strap) (inhibit := inhibit) (a := a) (b := b)
      (k := image.kept) (s := { s with pending := q })
    rw [e] at low ⊢
    exact ⟨low, full, released⟩

end

end Sys2Proof.Machine
end

section
/-! PROOFS. Every command keeps the pause-cause set and the entry checks in order (R6 to R11, R17). -/

namespace Sys2Proof.Machine

-- In order, so that the proofs waiting on one another do not hold a stack each.
set_option Elab.async false

section
variable {s t u : State} {c : Cond} {m : Mode}

/-! ### The families -/

/-- An entry to CLIMBING or PAUSED from another mode (R3, R4, R8, R17). -/
theorem lawful_enterMode_fresh (hm : m.climbs = true) (hs : s.ctl.mode.climbs = false)
    (hp : s.ctl.pause.faultHold = true → s.holdPresent = true) (range : ∀ k ∈ s.ctl.pause.segment, 2 ≤ k ∧ k ≤ 8)
    (full : m = .paused → s.ctl.pause.isEmpty = false) : Lawful (enterMode m s) := by
  have entry := entryPause_fresh hm hs
  have upright : m ≠ .reduced := Mode.ne_reduced_of_works (Mode.works_of_climbs hm)
  refine lawful_enterMode upright ?_ (fun k => ?_) (fun k => absurd (hm.symm.trans k) nofun) fun _ => ?_
  · rw [entry]
    exact range
  · have some_ := full k
    rw [entry]
    rw [← Bool.not_eq_true] at some_ ⊢
    intro none_
    have gone := PauseSet.isEmpty_iff.mp none_
    have hold : (s.holdPresent || s.ctl.pause.faultHold) = false := congrArg PauseSet.faultHold gone
    obtain ⟨-, off⟩ := Bool.or_eq_false_iff.mp hold
    refine some_ (PauseSet.isEmpty_iff.mpr (Eq.trans ?_ gone))
    rw [hold, ← off]
  · rw [entry]
    show (s.holdPresent || s.ctl.pause.faultHold) = s.holdPresent
    cases k : s.ctl.pause.faultHold with
    | false => exact Bool.or_false _
    | true => rw [hp k]; rfl

/-- EXTEND TIMEOUT is of class WARN, LATCH or TRIP (R206). -/
theorem extendTimeout_ne_hold (h : recordInRange s.setup = true) (ch : Ch) :
    s.classOf (.extendTimeout ch) ≠ .hold := by
  intro k
  have inRange := List.all_eq_true.mp h 74 (by decide)
  have gap : s.setup.item 75 ≠ 1 := by
    simp only [itemInRange, Bool.and_eq_true, bne_iff_ne] at inRange
    exact fun q => inRange.2 (congrArg some q.symm)
  have code : FaultClass.ofCode (s.setup.item 75) = .hold := k
  rw [FaultClass.ofCode, if_neg gap] at code
  split at code
  · cases code
  · split at code <;> cases code

theorem feedParts_lawful : FeedParts Lawful := {}

theorem steering_lawful : Steering Lawful where
  start s h hm _ := by
    obtain ⟨⟨idle, -, -, -⟩, -⟩ := h
    have off : s.ctl.mode.climbs = false := by rw [hm]; rfl
    have eff : s.effectiveMode.climbs = false := by
      rw [effectiveMode_of_ne_reduced (by rw [hm]; exact nofun)]
      exact off
    have empty := idle eff
    refine lawful_enterMode_fresh (s := { s with ctl.refusal := none }) rfl off (fun k => ?_) ?_ nofun
    · exact absurd ((congrArg PauseSet.faultHold empty).symm.trans k) nofun
    · show ∀ k ∈ s.ctl.pause.segment, _
      rw [empty]
      exact nofun
  stop _ _ _ := lawful_enterMode_still (.inl rfl)
  pause s h _ := by
    obtain ⟨shape, held, below, joined⟩ := h
    refine lawful_addPause (fun p => { p with operator := true }) shape below ?_ shape.2.2.2 held joined
    simp [PauseSet.isEmpty]
  resume s h _ := by
    obtain ⟨shape, held, below, joined⟩ := h
    obtain ⟨unjoined, kept⟩ := unjoined_dropPause (fun p => { p with operator := false }) shape below rfl
      (fun _ k => k) held
    exact unjoined.lawful (kept rfl joined)
  segment k s h _ _ _ _ := by
    obtain ⟨shape, held, below, -⟩ := h
    exact lawful_segmentCheck (unjoined_dropPause (s := releaseHeld k s) (fun p => { p with segment := none })
      shape below rfl nofun held).1
  raise c _ _ := lawful_raise c
  lapse c _ _ := lawful_lapse c

theorem jackKeeps_lawful : JackKeeps Lawful True where
  plan _ s h _ _ := by
    rw [planEvent_eq]
    exact startStrokes_keeps (P := Lawful) (fun _ _ k => k) (s := keepChange _ (planned s)) h
  bankB _ h _ := h
  opening _ _ _ h _ _ := h
  read ch reading s h _ := by
    unfold readChannel
    split
    · exact lawful_lapse _ h
    · exact lawful_raise _ h
  extendEnd _ _ h _ := lawful_raise _ h
  holdEnd ch s h _ := lawful_credit ch (s := updateCh ch (Channel.endHold s.setup s.now) s) h
  retractEnd _ _ h _ := lawful_lapse _ (lawful_raise _ h)
  blindHeld _ _ h _ := h
  blindFree _ _ h _ := h
  inhibitOn s h _ := lawful_raise _ (creditStrokes_keeps (P := Lawful) (fun ch _ _ k => lawful_credit ch k)
    (s := updateAll (Channel.inhibit s.now) { s with inhibitInput := true }) h)
  inhibitOff _ h _ := lawful_lapse _ h

theorem lawful_sampleDecision (d : Nat) (h : Lawful s) : Lawful (sampleDecision d s) := by
  unfold sampleDecision
  split
  · exact feedParts_lawful.askIfShort h
  · exact ite_keeps (P := Lawful) (fun _ => h) fun _ => h
  · exact ite_keeps (P := Lawful) (fun _ => lawful_lapse .feedTimeout (s := closeGate .idle s) h) fun _ => h

theorem concreteKeeps_lawful : ConcreteKeeps Lawful where
  feedHold _ _ h _ := feedParts_lawful.rejudge _ h
  cureRead raw s h _ := lawful_lapse .temperature (s := applyCure (temperatureRead raw (tickCure s))) h
  cureMissed s h := by
    have applied : Lawful (applyCure (temperatureMissed (tickCure s))) := h
    exact ite_keeps (fun k => absurd k nofun) fun _ =>
      ite_keeps (fun _ => lawful_raise _ applied) fun _ => applied
  probeGood d s h _ _ := by
    have lapsed := lawful_lapse .probe (s := { s with feed.depth := some d, feed.probeValid := true }) h
    exact lawful_sampleDecision d (ite_keeps (P := Lawful) (fun _ => lapsed) fun _ => lapsed)
  probeBad s h := lawful_raise _ (feedParts_lawful.rejudge _ h)
  settle s h _ := feedParts_lawful.admitIfSettled (s := { s with feed.settleTimer := none, feed.settled := true }) h
  feedEnd s h _ := lawful_raise _ (s := closeGate .idle s) h

theorem lineKeeps_lawful : LineKeeps Lawful where
  attempt _ h _ := beginAttempt_keeps (P := Lawful) h
  error s h _ := countError_keeps (P := Lawful) (fun _ => lawful_raise _) (s := retryAttempt s) h
  sent s h _ := lawful_lapse _ (s := attemptSent s) h
  busyEnd s h := countError_keeps (P := Lawful) (fun _ => lawful_raise _) (s := { s with line.busyTimer := none }) h

/-! ### The end of a join -/

/-- A station in a mode that takes no commands. -/
abbrev Untaken (s : State) : Prop := s.ctl.mode.takesCommands = false

theorem moves_untaken : Moves Untaken fun _ => true :=
  LatchParts.moves { enter := fun _ _ h hs _ => absurd (h.symm.trans hs) nofun }

theorem untaken_of_joining (h : s.effectiveMode = .joining) : Untaken s := by
  by_cases k : s.ctl.mode = .reduced
  · rw [Untaken, k]
    rfl
  · rw [effectiveMode_of_ne_reduced k] at h
    rw [Untaken, h]
    rfl

theorem untaken_armDeck (o : JoinOutcome) (h : Untaken s) : Untaken (armDeck (applyOutcome o s)) := by
  have M := moves_untaken
  have applied : Untaken (applyOutcome o s) := by
    cases o with
    | fresh => exact M.judgeSpread (s := { setHeights s.setup.programStart s with
        seq.strokeCount := 0, stack.layers := [] }) h
    | adoption =>
      obtain ⟨st, e⟩ := adoptStack_eq (adoptedHeight s) (adoptedMaturity s) (setHeights (adoptedHeight s) s)
      have adopted : Untaken (removeExited (adoptStack (adoptedHeight s) (adoptedMaturity s)
          (setHeights (adoptedHeight s) s))) := by
        rw [e]
        exact h
      exact M.judgeSpread adopted
    | restore => exact h
  exact M.armOne _ rfl (M.armOne _ rfl (M.armOne _ rfl (s := { applyOutcome o s with
    join.state := .done, join.listenTimer := none, sup.armed := true }) applied))

/-- No join ends in CLIMBING (R3). -/
theorem outcomeMode_ne_climbing (o : JoinOutcome) (s : State) : outcomeMode o s ≠ .climbing := by
  have either : ∀ m : Mode, m ≠ .climbing → (if s.noneLatched = true then m else .stopped) ≠ .climbing := by
    intro m hm
    split
    · exact hm
    · exact nofun
  unfold outcomeMode
  split
  · exact either _ nofun
  · exact either _ nofun
  · split
    · exact nofun
    · exact nofun
    · exact either _ nofun
    · exact either _ nofun

/-- The mode controller takes a join's outcome with the set of it (R3, R9, R17). -/
theorem lawful_takeOutcome (o : JoinOutcome) (h : Untaken s) : Lawful (takeOutcome o s) := by
  have takes := outcomeMode_takesCommands o s
  have upright := Mode.ne_reduced_of_takesCommands takes
  let p : PauseSet := if outcomeMode o s = .paused then rejoinPause else .empty
  have free : p.faultHold = false ∧ p.segment = none := by
    show (if outcomeMode o s = .paused then rejoinPause else .empty).faultHold = _
      ∧ (if outcomeMode o s = .paused then rejoinPause else .empty).segment = _
    split <;> exact ⟨rfl, rfl⟩
  have paused : (outcomeMode o s).climbs = true → outcomeMode o s = .paused :=
    fun k => (Mode.climbs_iff.mp k).resolve_left (outcomeMode_ne_climbing o s)
  unfold takeOutcome
  dsimp only
  split
  · rename_i mode
    refine lawful_checkRejoin (s := keepChange true _) ?_
    have eff : ({ s with ctl.returnMode := some (outcomeMode o s), ctl.pause :=
        if ((outcomeMode o s).climbs && s.holdPresent) = true then { p with faultHold := true } else p }
          : State).effectiveMode = outcomeMode o s := effectiveMode_of_reduced mode
    have off : (outcomeMode o s).climbs = false → p = .empty := fun k => if_neg fun q => by
      rw [q] at k
      cases k
    have segment : (if ((outcomeMode o s).climbs && s.holdPresent) = true then
        { p with faultHold := true } else p).segment = none := by
      split
      · exact free.2
      · exact free.2
    refine ⟨⟨fun k => ?_, fun k => absurd (mode.symm.trans k) nofun, fun k => absurd (mode.symm.trans k) nofun, ?_⟩,
      fun k => ?_, fun k => absurd mode (Mode.ne_reduced_of_works k),
      fun k => absurd mode (Mode.ne_reduced_of_works (Mode.works_of_climbs k))⟩
    · have k := (congrArg Mode.climbs eff).symm.trans k
      show (if ((outcomeMode o s).climbs && s.holdPresent) = true then { p with faultHold := true } else p) = _
      rw [k]
      exact off k
    · show ∀ k ∈ PauseSet.segment (if ((outcomeMode o s).climbs && s.holdPresent) = true then
        { p with faultHold := true } else p), _
      rw [segment]
      exact nofun
    · have k := (congrArg Mode.climbs eff).symm.trans k
      show PauseSet.faultHold (if ((outcomeMode o s).climbs && s.holdPresent) = true then
        { p with faultHold := true } else p) = s.holdPresent
      rw [k]
      cases s.holdPresent
      · exact free.1
      · rfl
  · have off : ({ s with ctl.pause := p } : State).ctl.mode.climbs = false := by
      rw [← Bool.not_eq_true]
      exact fun k => absurd (h.symm.trans (Mode.takesCommands_of_climbs k)) nofun
    refine lawful_checkRejoin (s := enterMode _ { s with ctl.pause := p }) ?_
    by_cases k : (outcomeMode o s).climbs = true
    · refine lawful_enterMode_fresh k off (fun q => absurd (free.1.symm.trans q) nofun) ?_ fun q => ?_
      · show ∀ k ∈ p.segment, _
        rw [free.2]
        exact nofun
      · show p.isEmpty = false
        rw [show p = rejoinPause from if_pos q]
        rfl
    · refine lawful_enterMode_still ?_
      revert k takes
      cases q : outcomeMode o s with
      | standing => exact fun _ _ => .inl rfl
      | stopped => exact fun _ _ => .inr (.inl rfl)
      | topped => exact fun _ _ => .inr (.inr rfl)
      | climbing | paused => exact fun _ k => absurd rfl k
      | _ => exact fun k => nomatch k

theorem lawful_decideJoin (g : Ground s) (h : Lawful s)
    (hs : s.join.state = .listening ∨ s.join.state = .waitingForLink) : Lawful (decideJoin s) := by
  obtain ⟨-, -, -, -, joining⟩ := g.joining hs
  unfold decideJoin
  split
  · exact lawful_takeOutcome _ (untaken_armDeck _ (untaken_of_joining joining))
  · exact h

/-! ### Arrivals, setup, clears and the supply -/

theorem peerKeeps_lawful : PeerKeeps fun s => Ground s ∧ Lawful s where
  duplicate s h := ⟨keeps_ground.peers.duplicate s h.1,
    lawful_raise _ (s := { s with peers.dupMiss := 0, peers.dupHeard := true }) h.2⟩
  arrival n p r s h hr := by
    refine ⟨keeps_ground.peers.arrival n p r s h.1 hr, ?_⟩
    let v : State := { s with peers.records := enterReport n r s.peers.records }
    have F : FeedParts Ground := {}
    have fed : Lawful (feedArrival v) := feedParts_lawful.arrival (s := v) h.2
    have ground : Ground (judgePeers (feedArrival v)) := moves_ground.judgePeers (F.arrival (s := v) h.1)
    have judged := lawful_judgePeers fed
    have checked := lawful_checkRejoin
      (ite_keeps (p := (judgePeers (feedArrival v)).peers.links.contains n = true)
        (fun _ => lawful_judge .tilt (tilted (judgePeers (feedArrival v))) judged) fun _ => judged)
    have grounded := moves_ground.checkRejoin
      (ite_keeps (p := (judgePeers (feedArrival v)).peers.links.contains n = true)
        (fun _ => moves_ground.judgeTilt ground) fun _ => ground)
    exact joinIfWaiting_keeps checked fun k => lawful_decideJoin grounded checked (.inr k)
  sweep s h := by
    refine ⟨keeps_ground.peers.sweep s h.1, ?_⟩
    let v : State := requestReport .periodic { s with line.reportTimer := some (s.now + s.setup.reportPeriod) }
    let w : State := { v with peers.records := v.peers.records.map (Peer.age v.setup.missLimit) }
    have F : FeedParts Ground := {}
    have aged : Lawful (ageDuplicate w) :=
      ite_keeps (P := Lawful) (fun _ => ite_keeps (P := Lawful) (fun _ => h.2) fun _ =>
        ite_keeps (P := Lawful) (fun _ => lawful_lapse .duplicateNumber
          (s := { w with peers.dupMiss := w.peers.dupMiss + 1 }) h.2) fun _ => h.2) fun _ => h.2
    have ground : Ground (ageDuplicate w) := moves_ground.ageDuplicate (s := w) h.1
    have checked := lawful_checkRejoin (feedParts_lawful.admitIfSettled (lawful_judgePeers aged))
    have grounded := moves_ground.checkRejoin (F.admitIfSettled (moves_ground.judgePeers ground))
    exact joinIfWaiting_keeps checked fun k => lawful_decideJoin grounded checked (.inr k)

/-- An empty set stays empty on the way to a mode that does not climb (R6). -/
theorem entryPause_of_empty (hm : m.climbs = false) (hp : s.ctl.pause = .empty) : entryPause m s = .empty := by
  cases m with
  | climbing | paused => cases hm
  | standing | stopped | topped => rfl
  | _ => exact hp

/-- An entry with an empty set to a mode that does not climb. -/
theorem lawful_enterMode_idle (hm : m.climbs = false) (hu : m ≠ .reduced) (hp : s.ctl.pause = .empty) :
    Lawful (enterMode m s) := by
  have entry := entryPause_of_empty hm hp
  refine lawful_enterMode hu ?_ (fun k => ?_) (fun _ => entry) fun k => absurd (hm.symm.trans k) nofun
  · rw [entry]
    exact nofun
  · rw [k] at hm
    cases hm

theorem Lawful.empty_of_setup (h : Lawful s) (hm : s.ctl.mode = .setup) : s.ctl.pause = .empty := by
  obtain ⟨⟨idle, -⟩, -⟩ := h
  refine idle ?_
  rw [effectiveMode_of_ne_reduced (by rw [hm]; exact nofun), hm]
  rfl

theorem lawful_lockStation (h : Lawful s) : Lawful (lockStation s) := by
  unfold lockStation
  split
  · exact lawful_enterMode_idle rfl nofun (h.empty_of_setup ‹_›)
  · rename_i mode
    refine ite_keeps (P := Lawful) (fun k => ?_) fun _ => h
    have before : s.effectiveMode = .setup := (effectiveMode_of_reduced mode).trans (by rw [k]; rfl)
    have empty : s.ctl.pause = .empty := h.1.1 (by rw [before]; rfl)
    let u : State := { s with ctl.returnMode := some .locked, line.setupRequest := s.line.setupRequest.leaveSetup }
    have after : u.effectiveMode = .locked := effectiveMode_of_reduced mode
    exact lawful_of_idle (s := u) (by rw [after]; rfl) empty fun q => absurd mode (Mode.ne_reduced_of_works q)
  · exact h

theorem setupKeeps_lawful : SetupKeeps fun s => Ground s ∧ Lawful s where
  stage id v s h hm hid := ⟨keeps_ground.setup.stage id v s h.1 hm hid, h.2⟩
  refuseCommit c s h hm := ⟨keeps_ground.setup.refuseCommit c s h.1 hm, h.2⟩
  commit check s h hm hc := ⟨keeps_ground.setup.commit check s h.1 hm hc,
    lawful_judgePeers (s := bringIntoForce _)
      (lawful_enterMode_idle (s := takeCommit s) (m := .joining) rfl nofun (h.2.empty_of_setup hm))⟩
  request s h ht := ⟨keeps_ground.setup.request s h.1 ht, h.2⟩
  window s h ht := ⟨keeps_ground.setup.window s h.1 ht, lawful_lockStation (s := { s with
    join.stage := .closed, join.windowTimer := none, join.requestTimer := none }) h.2⟩
  listen s h ht := ⟨keeps_ground.setup.listen s h.1 ht, lawful_decideJoin h.1 h.2 (.inl (h.1.listening ht))⟩

theorem lawful_closeClear (before : State) (h : Lawful s) : Lawful (closeClear before s) :=
  ite_keeps (P := Lawful) (fun _ => lawful_enterMode_still (.inl rfl)) fun _ => h

theorem guardKeeps_lawful : GuardKeeps Lawful True where
  clear _ s h _ := by
    have withdrawn := withdrawSpread_keeps (P := Lawful) (fun _ => lawful_lapse .jackSpread) h
    have cleared : Lawful (clearHalt (releaseDrive (unlatchAbsent (withdrawSpread s)))) :=
      clearHalt_keeps (P := Lawful) (releaseDrive_keeps (P := Lawful) (s := unlatchAbsent _) withdrawn)
    exact lawful_closeClear _ (s := freeChannels _ _) cleared
  loopAsserted _ h _ := lawful_raise _ h
  loopReleased _ s t h _ e := by
    have released : Lawful t := e ▸ lawful_lapse .haltLoop (s := { s with sup.loopSensed := false }) h
    exact ite_keeps (fun _ => lawful_closeClear t (s := unlatchHalt t) released) fun _ => released
  crystalStops _ h _ := lawful_raise _ h
  crystalBack _ h := lawful_lapse _ h

theorem lawful_toReduced (hm : s.ctl.mode ≠ .reduced) (h : Lawful s) : Lawful (toReduced s) := by
  obtain ⟨⟨idle, -, -, range⟩, held, -⟩ := h
  have eff : (toReduced s).effectiveMode = s.effectiveMode := toReduced_effectiveMode hm
  exact ⟨⟨fun k => idle ((congrArg Mode.climbs eff).symm.trans k), nofun, nofun, range⟩,
    fun k => held ((congrArg Mode.climbs eff).symm.trans k), nofun, nofun⟩

/-- The return from REDUCED takes the set as it stands (R17). -/
theorem lawful_return (hm : s.ctl.mode = .reduced) (g : ModeShape s) (h : Lawful s) :
    Lawful (enterMode (returnTo s) s) := by
  obtain ⟨⟨idle, -, -, range⟩, held, -⟩ := h
  have upright := returnTo_upright g hm
  obtain ⟨returns, -⟩ := g
  rw [hm] at returns
  obtain ⟨r, hr⟩ := Option.isSome_iff_exists.mp returns
  have eff : s.effectiveMode = r := by
    rw [effectiveMode_of_reduced hm, hr]
    rfl
  have back : returnTo s
      = if r.climbs = true then (if s.ctl.pause.isEmpty = true then .climbing else .paused) else r := by
    rw [returnTo, hr]
    rfl
  by_cases k : r.climbs = true
  · rw [if_pos k] at back
    have climbs : (returnTo s).climbs = true := by
      rw [back]
      split <;> rfl
    refine lawful_enterMode_fresh climbs (by rw [hm]; rfl) (fun q => ?_) range fun q => ?_
    · exact (held (by rw [eff]; exact k)).symm.trans q
    · rw [back] at q
      split at q
      · cases q
      · exact Bool.not_eq_true _ ▸ ‹¬s.ctl.pause.isEmpty = true›
  · have off : r.climbs = false := Bool.not_eq_true _ ▸ k
    have empty : s.ctl.pause = .empty := idle (by rw [eff]; exact off)
    rw [if_neg k] at back
    rw [back] at upright ⊢
    exact lawful_enterMode_idle off upright empty

theorem supplyKeeps_lawful : SupplyKeeps fun s => Ground s ∧ Lawful s where
  supplyLow s t h hl e := by
    refine ⟨keeps_ground.supply.supplyLow s t h.1 hl e, ?_⟩
    have raised : Lawful t := e ▸ lawful_raise .supplyLow (s := { s with sup.supplyLow := true }) h.2
    refine ite_keeps (P := Lawful) (fun _ => raised) fun hm => ?_
    have entered : Lawful (enterReduced t) := by
      rw [enterReduced_eq]
      exact feedParts_lawful.rejudge _ (lawful_toReduced hm raised)
    exact creditStrokes_keeps (P := Lawful) (fun ch _ _ k => lawful_credit ch k)
      (s := updateAll (Channel.reduce t.now) (enterReduced t)) entered
  supplyRecovery s t h hl e := by
    refine ⟨keeps_ground.supply.supplyRecovery s t h.1 hl e, ?_⟩
    have lapsed : Lawful t := e ▸ lawful_lapse .supplyLow (s := { s with sup.supplyLow := false }) h.2
    have ground : Ground t := e ▸ moves_ground.lapse .supplyLow rfl (s := { s with sup.supplyLow := false }) h.1
    refine ite_keeps (P := Lawful) (fun hm => ?_) fun _ => lapsed
    exact lawful_return (s := updateAll (Channel.recover t.setup t.now) { t with plan.ramp := 0 }) hm ground.1 lapsed

theorem keeps_lawful : Keeps fun s => Ground s ∧ Lawful s where
  steer := keeps_ground.steer.and steering_lawful
  jacks := keeps_ground.jacks.and jackKeeps_lawful
  concrete := keeps_ground.concrete.and concreteKeeps_lawful
  line := keeps_ground.line.and lineKeeps_lawful
  peers := peerKeeps_lawful
  setup := setupKeeps_lawful
  guards := keeps_ground.guards.and guardKeeps_lawful
  supply := supplyKeeps_lawful

/-! ### The close of a command and the resets -/

/-- EXTEND TIMEOUT is no HOLD-class condition (R206), and its ends at a command's close lift no FAULT HOLD. -/
theorem holdPresent_settled (g : Ground u) (v : State) : (settled v u).holdPresent = u.holdPresent := by
  obtain ⟨busy, e⟩ := settled_spec v u
  rw [e]
  show (u.sup.present.filter fun c => !extendTimeoutOver u c).any _ = u.sup.present.any _
  rw [List.any_filter]
  refine congrArg (u.sup.present.any ·) (funext fun c => ?_)
  cases c with
  | extendTimeout ch =>
    have other : (u.classOf (.extendTimeout ch) == .hold) = false :=
      beq_eq_false_iff_ne.mpr (extendTimeout_ne_hold g.2.2.1.inRange ch)
    show (!extendTimeoutOver u (.extendTimeout ch) && (u.classOf (.extendTimeout ch) == .hold && _))
      = (u.classOf (.extendTimeout ch) == .hold && _)
    rw [other, Bool.false_and, Bool.and_false, Bool.false_and]
  | _ => rfl

theorem lawful_settled (g : Ground u) (v : State) (h : Lawful u) : Lawful (settled v u) := by
  obtain ⟨shape, held, entry⟩ := h
  have hold := holdPresent_settled g v
  have follows : HeldAs u.holdPresent (settled v u) ∧ PauseShape (settled v u) ∧ EntryLaw (settled v u) := by
    clear hold
    obtain ⟨busy, e⟩ := settled_spec v u
    rw [e]
    exact ⟨held, shape, entry⟩
  obtain ⟨held, shape, entry⟩ := follows
  exact ⟨shape, hold ▸ held, entry⟩

/-- A reset leaves an empty set in a mode that does not climb (R20). -/
theorem lawful_of_reset (hm : s.ctl.mode.works = false) (hu : s.ctl.mode ≠ .reduced) (hp : s.ctl.pause = .empty) :
    Lawful s := by
  refine lawful_of_idle ?_ hp fun k => absurd (hm.symm.trans k) nofun
  rw [effectiveMode_of_ne_reduced hu, ← Bool.not_eq_true]
  exact fun k => absurd (hm.symm.trans (Mode.works_of_climbs k)) nofun

theorem lawful_step {t : State} (hs : Sound s) (he : step s = .next t) : Lawful t := by
  have law : Ground s ∧ Lawful s := ⟨hs.ground, lawful_iff.mpr ⟨hs.pause, hs.entry⟩⟩
  refine step_keeps keeps_lawful he (fun _ => law) (fun v _ k => lawful_settled k.1 v k.2)
    (passTime_keeps (P := Lawful) law.2) ?_ ?_ ?_
  · exact fun _ _ _ _ _ _ _ => lawful_of_reset rfl nofun rfl
  · exact fun _ _ _ _ => lawful_of_reset rfl nofun rfl
  · intro strap inhibit cut a b image q _ _ _ _
    obtain ⟨⟨p, r, e⟩, -⟩ := restored_restoreCourse (strap := strap) (inhibit := inhibit) (a := a) (b := b)
      (k := image.kept) (s := { s with pending := q })
    rw [e]
    exact lawful_of_reset rfl nofun rfl

end

/-- Settles O6: the set follows every onset, end, latch and credit, and every entry makes its own checks. -/
theorem stepKeepsModesInOrder : Obligations.StepKeepsModesInOrder := by
  intro s t hs he
  obtain ⟨⟨returns, upright⟩, -⟩ := ground_step hs he
  obtain ⟨low, scale, released⟩ := tuned_step hs he
  obtain ⟨pause, entry⟩ := lawful_iff.mp (lawful_step hs he)
  exact ⟨⟨returns, upright, low, scale, released⟩, pause, entry⟩

end Sys2Proof.Machine
end

section
/-! PROOFS. The retained record (R170 to R172): what a rewrite writes is in order, and the operations that change a
kept item leave the image in use at the station as it stands. -/

namespace Sys2Proof.Machine

-- In order, so that the proofs waiting on one another do not hold a stack each.
set_option Elab.async false

section
variable {s t u : State} {c : Cond} {m : Mode}

/-! ### The law in its parts -/

/-- Both images keep what is in order. -/
abbrev Stored (s : State) : Prop :=
  (∀ i ∈ s.join.imageA, KeptInOrder i) ∧ (∀ i ∈ s.join.imageB, KeptInOrder i)

/-- The image in use holds the station as it stands, while a record is kept. -/
abbrev Current (s : State) : Prop :=
  recordable s = true → (usedImage s.join.imageA s.join.imageB).map Image.kept = some (keptOf s)

/-- The number and the record of a station that has passed its commit (R167, R170). -/
abbrev Numbered (s : State) : Prop :=
  1 ≤ s.join.ownNumber ∧ s.join.ownNumber ≤ 59 ∧ s.join.committed.isSome = true
    ∧ GoodRecord s.join.ownNumber s.setup

/-- The items of the record that are no heights and no layers. -/
abbrev Listed (s : State) : Prop :=
  Numbered s ∧ ReleaseSet s.ctl.released ∧ LatchedSet s.setup s.sup.latched

/-- The heights, the stroke count and the layers of the record. -/
abbrev Charted (s : State) : Prop :=
  (∀ ch : Ch, (s.chan ch).climbed ≤ Config.heightMax) ∧ s.seq.strokeCount < 65536 ∧ LayersOrdered s.stack.layers

theorem Raised.charted {done : Prop} {ready : JoinState → Prop} {g : JoinState → Prop} (h : Raised done ready s)
    (k : Filled g s) : Charted s := by
  obtain ⟨core, -, -, count, -⟩ := h
  exact ⟨fun ch => (core ch).1.1, count, k.1.ordered⟩

theorem Built.charted (h : Built s) : Charted s := by
  obtain ⟨⟨core, -, -, -, count⟩, stocked, -⟩ := h
  exact ⟨fun ch => (core ch).1.1, count, stocked.ordered⟩

/-! ### A rewrite -/

/-- What a rewrite writes is in order (R170, R171). -/
theorem keptInOrder_newImage (hl : Listed s) (hc : Charted s) (hm : s.effectiveMode.retainable = true) :
    KeptInOrder (newImage s) := by
  obtain ⟨⟨low, high, -, good⟩, released, latched⟩ := hl
  obtain ⟨climbed, count, layers⟩ := hc
  refine ⟨low, high, good, hm, fun h hh => ?_, count, layers, released, latched, ?_⟩
  · obtain ⟨ch, -, e⟩ := PerChannel.mem_toList.mp hh
    have kept : (s.seq.chans.map Channel.climbed).get ch = h := e
    rw [PerChannel.get_map] at kept
    exact kept ▸ climbed ch
  · show nextGeneration _ _ < 256
    unfold nextGeneration
    split
    · exact Nat.mod_lt _ (by decide)
    · decide

theorem stored_keepChange (b : Bool) (hl : Listed s) (hc : Charted s) (hs : Stored s) : Stored (keepChange b s) := by
  cases k : b && recordable s with
  | false =>
    have same : keepChange b s = s := keepChange_idle ((Bool.and_eq_false_iff.mp k))
    rw [same]
    exact hs
  | true =>
    have retain : s.effectiveMode.retainable = true :=
      (Bool.and_eq_true_iff.mp (Bool.and_eq_true_iff.mp k).2).2
    have made := keptInOrder_newImage hl hc retain
    obtain ⟨ha, hb⟩ := hs
    have images : Stored (keepChange b s) = ((∀ i ∈ (rewritten s).1, KeptInOrder i) ∧ ∀ i ∈ (rewritten s).2, KeptInOrder i) := by
      show ((∀ i ∈ (if (b && recordable s) = true then (rewritten s).1 else s.join.imageA), KeptInOrder i)
        ∧ ∀ i ∈ (if (b && recordable s) = true then (rewritten s).2 else s.join.imageB), KeptInOrder i) = _
      rw [k]
      rfl
    rw [images]
    unfold rewritten
    split
    · exact ⟨ha, fun i hi => Option.some.inj hi ▸ made⟩
    · exact ⟨fun i hi => Option.some.inj hi ▸ made, hb⟩

/-- After a change that is kept the image in use is current, and without one it stays so. -/
theorem current_keepChange (b : Bool) (hl : Listed s) (hs : Stored s) (hc : b = false → Current s) :
    Current (keepChange b s) := by
  intro k
  have kept : recordable s = true := k
  cases b with
  | false =>
    have same : keepChange false s = s := keepChange_idle (.inl rfl)
    rw [same]
    exact hc rfl kept
  | true =>
    obtain ⟨⟨-, -, -, inRange, -⟩, -⟩ := hl
    obtain ⟨ha, hb⟩ := hs
    rw [keepChange_used kept inRange fun i hi => ?_]
    · rfl
    · have ordered : KeptInOrder i := (usedImage_eq_some hi).elim (ha i) (hb i)
      obtain ⟨-, -, -, -, -, -, -, -, -, generation⟩ := ordered
      exact generation

/-- A change of no kept item leaves the image in use current. -/
theorem current_of_kept (h : Current s) (hk : keptOf t = keptOf s) (hj : t.join.state = s.join.state)
    (ha : t.join.imageA = s.join.imageA) (hb : t.join.imageB = s.join.imageB) : Current t := by
  have mode : t.effectiveMode = s.effectiveMode := congrArg Kept.mode hk
  intro k
  rw [recordable, mode, hj] at k
  rw [ha, hb, hk]
  exact h k

/-! ### Entries -/

/-- A mode taken on, before its change is kept. -/
def modeTaken (m : Mode) (p : PauseSet) (s : State) : State :=
  requestReport .urgent
    { s with
      ctl.mode := m
      ctl.pause := p
      ctl.returnMode := none
      plan.last := if m.climbs then s.plan.last else .blank
      seq.cycleTimer :=
        if m.climbs then (if m.climbs && !s.ctl.mode.climbs then some s.now else s.seq.cycleTimer) else none
      seq.expiryHeld := m.climbs && !(m.climbs && !s.ctl.mode.climbs) && s.seq.expiryHeld
      line.setupRequest := if m = .setup then s.line.setupRequest else s.line.setupRequest.leaveSetup }

theorem takeMode_eq (m : Mode) (p : PauseSet) (s : State) :
    takeMode m p s = keepChange (m != s.effectiveMode) (modeTaken m p s) := rfl

theorem effectiveMode_modeTaken (m : Mode) (p : PauseSet) (s : State) : (modeTaken m p s).effectiveMode = m := by
  cases m <;> rfl

theorem feedParts_stored : FeedParts Stored := {}

theorem feedParts_current : FeedParts Current := {}

theorem stored_enterMode (m : Mode) (hl : Listed s) (hc : Charted s) (hs : Stored s) : Stored (enterMode m s) := by
  refine feedParts_stored.enter ?_
  rw [takeMode_eq]
  split <;> exact stored_keepChange (s := modeTaken _ _ _) _ hl hc hs

theorem current_takeMode (m : Mode) (p : PauseSet) (hl : Listed s) (hs : Stored s) (hc : Current s) :
    Current (takeMode m p s) := by
  rw [takeMode_eq]
  refine current_keepChange (s := modeTaken m p s) _ hl hs fun same => ?_
  have mode : m = s.effectiveMode := bne_eq_false_iff_eq.mp same
  have kept : keptOf (modeTaken m p s) = keptOf s :=
    congrArg (fun n => ({ keptOf s with mode := n } : Kept)) ((effectiveMode_modeTaken m p s).trans mode)
  exact current_of_kept hc kept rfl rfl rfl

theorem current_enterMode (m : Mode) (hl : Listed s) (hs : Stored s) (hc : Current s) : Current (enterMode m s) := by
  refine feedParts_current.enter ?_
  split
  · exact current_takeMode (s := { s with plan.ramp := 0 }) _ _ hl hs hc
  · exact current_takeMode _ _ hl hs hc

theorem Aside.numbered (h : Numbered s) (a : Aside s t) : Numbered t := by
  unfold Numbered
  rw [a.setup, a.committed]
  obtain ⟨p, q, e⟩ := a.join
  rw [e]
  exact h

theorem listed_enterMode (m : Mode) (h : Listed s) : Listed (enterMode m s) := by
  obtain ⟨numbered, released, latched⟩ := h
  have a := aside_enterMode m s
  refine ⟨a.numbered numbered, ?_, ?_⟩
  · rw [enterMode_released]
    exact released
  · rw [a.setup, enterMode_sup]
    exact latched

/-! ### Latches -/

theorem latchedSet_append {r : SetupRecord} {ls : List Cond} (h : LatchedSet r ls) (hn : ¬c ∈ ls)
    (hc : r.classOf c = .latch ∨ r.classOf c = .trip) : LatchedSet r (ls ++ [c]) := by
  obtain ⟨distinct, classes⟩ := h
  refine ⟨List.nodup_append.mpr ⟨distinct, List.nodup_singleton c, fun a ha b hb e => ?_⟩, fun d hd => ?_⟩
  · rw [List.mem_singleton.mp hb] at e
    exact hn (e ▸ ha)
  · rcases List.mem_append.mp hd with k | k
    · exact classes d k
    · rw [List.mem_singleton.mp k]
      exact hc

theorem listed_joinLatched (h : Listed s) (hn : s.isLatched c = false) (hc : s.latching c = true) :
    Listed (joinLatched c s) := by
  obtain ⟨numbered, released, latched⟩ := h
  refine ⟨numbered, released, latchedSet_append latched ?_ ?_⟩
  · rw [← List.contains_iff_mem, Bool.not_eq_true]
    exact hn
  · have classes : s.classOf c = .latch ∨ s.classOf c = .trip := by simpa using (Bool.and_eq_true_iff.mp hc).1
    exact classes

theorem listed_latch (h : Listed s) (hc : s.latching c = true) : Listed (latch c s) := by
  rcases latch_cases c s with ⟨-, e⟩ | ⟨hn, e⟩ <;> rw [e]
  · exact h
  · have joined := listed_joinLatched h hn hc
    have stopped : Listed (latchMode (joinLatched c s)) := by
      rcases latchMode_cases (joinLatched c s) with ⟨-, e⟩ | ⟨-, -, e⟩ | ⟨-, -, e⟩ <;> rw [e]
      · exact listed_enterMode .stopped joined
      · exact joined
      · exact joined
    rcases pullForTrip_cases c (cutExtensions (latchMode (joinLatched c s))) with ⟨-, e⟩ | ⟨-, e⟩ <;>
      rw [e] <;> exact stopped

theorem moves_listed : Moves Listed fun _ => true where
  enter m _ h _ _ := listed_enterMode m h
  pause _ _ h := h
  latch _ _ _ h hl := listed_latch h hl
  appear _ _ _ h _ := h
  vanish _ _ _ h := h

/-- The images through the latch up to its own rewrite. -/
theorem stored_latched (hl : Listed s) (hc : Charted s) (hs : Stored s) (hn : s.isLatched c = false)
    (hk : s.latching c = true) :
    Stored (pullForTrip c (cutExtensions (latchMode (joinLatched c s)))) := by
  have joined := listed_joinLatched hl hn hk
  have stopped : Stored (latchMode (joinLatched c s)) := by
    rcases latchMode_cases (joinLatched c s) with ⟨-, e⟩ | ⟨-, -, e⟩ | ⟨-, -, e⟩ <;> rw [e]
    · exact stored_enterMode .stopped joined hc hs
    · exact stored_keepChange (s := { joinLatched c s with ctl.returnMode := some .stopped, ctl.pause := .empty })
        true joined hc hs
    · exact hs
  rcases pullForTrip_cases c (cutExtensions (latchMode (joinLatched c s))) with ⟨-, e⟩ | ⟨-, e⟩ <;>
    rw [e] <;> exact stopped

/-- A latch is kept at its end, with the mode it has brought about (R184). -/
theorem recorded_latch (hl : Listed s) (hb : Built s) (hs : Stored s) (hr : Current s) (hk : s.latching c = true) :
    Stored (latch c s) ∧ Current (latch c s) := by
  have listed : Listed (latch c s) := listed_latch hl hk
  have charted : Charted (latch c s) := Built.charted (moves_built.latch c s rfl hb hk)
  rcases latch_cases c s with ⟨-, e⟩ | ⟨hn, e⟩
  · rw [e]
    exact ⟨hs, hr⟩
  · have stored := stored_latched hl hb.charted hs hn hk
    rw [e] at listed charted ⊢
    exact ⟨stored_keepChange true listed charted stored, current_keepChange true listed stored nofun⟩

/-! ### The station that has passed its commit -/

/-- The record's items in order, both images in order and the one in use current. -/
abbrev Logged (s : State) : Prop := Built s ∧ Listed s ∧ Stored s ∧ Current s

theorem logged_enterMode (m : Mode) (h : Logged s) : Logged (enterMode m s) := by
  obtain ⟨built, listed, stored, current⟩ := h
  exact ⟨⟨heights_enterMode m built.1, layered_enterMode m built.2⟩, listed_enterMode m listed,
    stored_enterMode m listed built.charted stored, current_enterMode m listed stored current⟩

theorem moves_logged : Moves Logged fun _ => true where
  enter m _ h _ _ := logged_enterMode m h
  pause _ _ h := h
  latch c s _ h hl := by
    obtain ⟨built, listed, stored, current⟩ := h
    exact ⟨moves_built.latch c s rfl built hl, listed_latch listed hl, recorded_latch listed built stored current hl⟩
  appear _ _ _ h _ := h
  vanish _ _ _ h := h

theorem feedParts_logged : FeedParts Logged :=
  feedParts_built.and (Q := fun s => Listed s ∧ Stored s ∧ Current s) {}

/-- A change of kept items handed to the join unit. -/
theorem logged_keepChange (b : Bool) (hb : Built (keepChange b s)) (hl : Listed s) (hs : Stored s)
    (hc : b = false → Current s) : Logged (keepChange b s) :=
  ⟨hb, hl, stored_keepChange b hl (Built.charted hb) hs, current_keepChange b hl hs hc⟩

theorem PerChannel.ext_get {α : Type} {p q : PerChannel α} (h : ∀ ch : Ch, p.get ch = q.get ch) : p = q := by
  obtain ⟨p1, p2, p3, p4⟩ := p
  obtain ⟨q1, q2, q3, q4⟩ := q
  have e1 : p1 = q1 := h .c1
  have e2 : p2 = q2 := h .c2
  have e3 : p3 = q3 := h .c3
  have e4 : p4 = q4 := h .c4
  rw [e1, e2, e3, e4]

theorem keptOf_moved {q : PerChannel Channel} (hq : ∀ ch : Ch, (q.get ch).climbed = (s.chan ch).climbed) :
    keptOf { s with seq.chans := q } = keptOf s := by
  have climbed : q.map Channel.climbed = s.seq.chans.map Channel.climbed := PerChannel.ext_get fun ch => by
    rw [PerChannel.get_map, PerChannel.get_map]
    exact hq ch
  exact congrArg (fun p => ({ keptOf s with climbed := p } : Kept)) climbed

theorem logged_moved {sweeps : Bool} {q : PerChannel Channel} (h : Logged s)
    (hq : ∀ ch : Ch, MovedBy sweeps s (s.chan ch) (q.get ch)) : Logged { s with seq.chans := q } := by
  obtain ⟨⟨heights, layered⟩, listed, stored, current⟩ := h
  exact ⟨⟨heights_moved heights hq, layered⟩, listed, stored,
    current_of_kept current (keptOf_moved fun ch => (hq ch).climbed) rfl rfl rfl⟩

theorem movedParts_logged : MovedParts Logged False true (· = .done) where
  moved _ _ h hq := logged_moved h hq
  credited ch s h hd := by
    obtain ⟨built, listed, stored, -⟩ := h
    exact logged_keepChange (s := creditHeight ch s) true (movedParts_built.credited ch s built hd) listed stored nofun
  planned hf := hf.elim

theorem takeTarget_climbed (t : Nat) (d : Channel) : (d.takeTarget t).climbed = d.climbed := by
  unfold Channel.takeTarget
  split <;> rfl

/-- A plan event raises the stroke count with a rise alone (R46, R171). -/
theorem logged_planEvent (h : Based s) (k : Logged s) (hm : s.ctl.mode.climbs = true) (hr : allAtRest s = true) :
    Logged (planEvent s) := by
  obtain ⟨⟨heights, layered⟩, listed, stored, current⟩ := k
  have takes := Mode.takesCommands_of_climbs hm
  have done := h.1.done_of_takesCommands (effectiveMode_of_takesCommands takes ▸ takes)
  rw [planEvent_eq]
  refine startStrokes_keeps (P := Logged) (fun pick _ z => movedParts_logged.startBank pick z) ?_
  refine logged_keepChange (s := planned s) _ ⟨heights_planned _ heights hr done, layered⟩ listed stored fun flat => ?_
  have still : ¬0 < (planOf (ramped s)).rise := of_decide_eq_false flat
  have climbed : (planned s).seq.chans.map Channel.climbed = s.seq.chans.map Channel.climbed :=
    PerChannel.ext_get fun ch => by
      rw [PerChannel.get_map, PerChannel.get_map]
      show ((PerChannel.ofFn _ : PerChannel Channel).get ch).climbed = _
      rw [PerChannel.get_ofFn]
      exact takeTarget_climbed _ _
  have count : (planned s).seq.strokeCount = s.seq.strokeCount := if_neg still
  have kept : keptOf (planned s) = { keptOf s with
      climbed := (planned s).seq.chans.map Channel.climbed
      strokeCount := (planned s).seq.strokeCount } := rfl
  rw [climbed, count] at kept
  exact current_of_kept current kept rfl rfl rfl

theorem logged_applyCure (h : Logged s) : Logged (applyCure s) := by
  obtain ⟨⟨heights, layered⟩, listed, stored, current⟩ := h
  refine logged_keepChange _ ⟨heights, layered_applyCure layered⟩ listed stored fun same => ?_
  have layers : addMaturity (sampleRate s) s.stack.layers = s.stack.layers := bne_eq_false_iff_eq.mp same
  exact current_of_kept current (congrArg (fun ls => ({ keptOf s with layers := ls } : Kept)) layers) rfl rfl rfl

theorem logged_stackSample (d : Nat) (hb : Based s) (h : Logged s) (hs : s.heightSet = true) :
    Logged (stackSample d s) := by
  obtain ⟨⟨heights, layered⟩, listed, stored, current⟩ := h
  refine logged_keepChange _ ⟨heights, layered_stackSample d hb heights layered hs⟩ listed stored fun same => ?_
  have layers : (sampledStack d s).layers = s.stack.layers := bne_eq_false_iff_eq.mp same
  exact current_of_kept current (congrArg (fun ls => ({ keptOf s with layers := ls } : Kept)) layers) rfl rfl rfl

/-- A released segment joins the set that the record keeps (R10, R171). -/
theorem logged_releaseHeld (k : Nat) (h : Logged s) : Logged (releaseHeld k s) := by
  obtain ⟨built, ⟨numbered, -, latched⟩, stored, current⟩ := h
  refine logged_keepChange _ built ⟨numbered, releaseSet_releaseSegment k _, latched⟩ stored fun same => ?_
  have released : releaseSegment k s.ctl.released = s.ctl.released := bne_eq_false_iff_eq.mp same
  exact current_of_kept current (congrArg (fun rs => ({ keptOf s with released := rs } : Kept)) released) rfl rfl rfl

/-! ### Entries that leave -/

theorem latchedSet_filter {r : SetupRecord} {ls : List Cond} (h : LatchedSet r ls) (p : Cond → Bool) :
    LatchedSet r (ls.filter p) :=
  ⟨h.1.filter p, fun d hd => h.2 d (List.mem_of_mem_filter hd)⟩

/-- The steps of a CLEAR up to its end, with the latched set alone ahead of the record. -/
abbrev Clearing (before s : State) : Prop :=
  Built s ∧ Listed s ∧ Stored s ∧ s.join = before.join
    ∧ keptOf s = { keptOf before with latched := s.sup.latched }

theorem Clearing.unlatched (h : Clearing t s) (p : Cond → Bool) {x : Supervisor}
    (hx : x.latched = s.sup.latched.filter p) : Clearing t { s with sup := x } := by
  obtain ⟨built, ⟨numbered, released, latched⟩, stored, join, kept⟩ := h
  refine ⟨built, ⟨numbered, released, hx ▸ latchedSet_filter latched p⟩, stored, join, ?_⟩
  exact congrArg (fun k => ({ k with latched := x.latched } : Kept)) kept

theorem movedParts_clearing (before : State) : MovedParts (Clearing before) False true fun _ => False where
  moved q s h hq := by
    obtain ⟨⟨heights, layered⟩, listed, stored, join, kept⟩ := h
    exact ⟨⟨heights_moved heights hq, layered⟩, listed, stored, join,
      (keptOf_moved fun ch => (hq ch).climbed).trans kept⟩
  credited _ _ _ k := k.elim
  planned hf := hf.elim

/-- The end of a CLEAR keeps a change of the latched set with the mode that has followed it (R171, R190). -/
theorem logged_closeClear (h : Clearing t s) (ht : Current t) : Logged (closeClear t s) := by
  obtain ⟨built, listed, stored, join, kept⟩ := h
  have followed : Built (latchedEmptied t s) ∧ Listed (latchedEmptied t s) ∧ Stored (latchedEmptied t s)
      ∧ (s.sup.latched = t.sup.latched → latchedEmptied t s = s) := by
    unfold latchedEmptied
    split
    · rename_i k
      refine ⟨⟨heights_enterMode .standing built.1, layered_enterMode .standing built.2⟩,
        listed_enterMode .standing listed, stored_enterMode .standing listed built.charted stored, fun same => ?_⟩
      have emptied : t.noneLatched = true := by
        rw [State.noneLatched, ← same]
        exact k.2.1
      exact absurd (k.1.symm.trans emptied) nofun
    · exact ⟨built, listed, stored, fun _ => rfl⟩
  obtain ⟨built, listed, stored, still⟩ := followed
  refine logged_keepChange (s := latchedEmptied t s) _ built listed stored fun same => ?_
  have latched : s.sup.latched = t.sup.latched := bne_eq_false_iff_eq.mp same
  rw [still latched]
  rw [latched] at kept
  exact current_of_kept ht kept (congrArg Join.state join) (congrArg Join.imageA join) (congrArg Join.imageB join)

end

end Sys2Proof.Machine
end

section
/-! PROOFS. Every step keeps the retained record current (R171, R179): of a station that has passed its commit
with the record's items in order, of any other since it writes no image. -/

namespace Sys2Proof.Machine

-- In order, so that the proofs waiting on one another do not hold a stack each.
set_option Elab.async false

section
variable {s t u : State} {c : Cond} {m : Mode}

/-! ### The end of a join -/

/-- Both images in order in JOINING, in REDUCED by the return mode. -/
abbrev StoredJoining (s : State) : Prop := Stored s ∧ s.effectiveMode = .joining

theorem recordable_of_joining (h : s.effectiveMode = .joining) : recordable s = false := by
  rw [recordable, h]
  exact Bool.and_false _

/-- Nothing is written in JOINING (R171). -/
theorem latchParts_storedJoining : LatchParts StoredJoining where
  enter m s h hs _ := by
    have joining : s.ctl.mode = .joining := (effectiveMode_of_takesCommands hs).symm.trans h.2
    rw [joining] at hs
    cases hs
  stop s h hm hr := by
    have joining : s.ctl.returnMode.getD .reduced = .joining := (effectiveMode_of_reduced hm).symm.trans h.2
    rw [joining] at hr
    cases hr
  keep b s h := by
    rw [keepChange_idle (.inr (recordable_of_joining h.2))]
    exact h

/-- What stands of the record while a join ends. -/
abbrev Ending (done : Prop) (ready : JoinState → Prop) (s : State) : Prop :=
  Raised done ready s ∧ Filled ready s ∧ Listed s ∧ StoredJoining s

theorem moves_ending (done : Prop) (ready : JoinState → Prop) : Moves (Ending done ready) fun _ => true :=
  (latchParts_raised done ready).moves.and ((latchParts_filled ready).moves.and
    (moves_listed.and latchParts_storedJoining.moves))

theorem Ending.current {done : Prop} {ready : JoinState → Prop} (h : Ending done ready s) : Current s := by
  obtain ⟨-, -, -, -, joining⟩ := h
  exact fun k => absurd ((recordable_of_joining joining).symm.trans k) nofun

theorem joinPhases_logged :
    JoinPhases (fun s => Joining .joining s ∧ Table s ∧ Logged s) (Ending False fun _ => True)
      (Ending True (· = .done)) Logged where
  wait s h := by
    obtain ⟨joining, table, ⟨heights, layered⟩, listed, stored, -⟩ := h
    exact ⟨⟨joinPhases_heights.wait s ⟨joining, table, heights⟩, joinPhases_layered.wait s ⟨joining, table, layered⟩⟩,
      listed, stored, fun k => absurd k nofun⟩
  fresh s h := by
    obtain ⟨joining, table, ⟨heights, layered⟩, listed, stored, -⟩ := h
    exact ⟨joinPhases_heights.fresh s ⟨joining, table, heights⟩, joinPhases_layered.fresh s ⟨joining, table, layered⟩,
      listed, stored, joining.2.2.2.2⟩
  adopt s h hk := by
    obtain ⟨joining, table, ⟨heights, layered⟩, listed, stored, -⟩ := h
    refine ⟨joinPhases_heights.adopt s ⟨joining, table, heights⟩ hk,
      joinPhases_layered.adopt s ⟨joining, table, layered⟩ hk, ?_⟩
    obtain ⟨st, e⟩ := adoptStack_eq (adoptedHeight s) (adoptedMaturity s) (setHeights (adoptedHeight s) s)
    rw [e]
    exact ⟨listed, stored, joining.2.2.2.2⟩
  restore s h hk := by
    obtain ⟨joining, table, ⟨heights, layered⟩, listed, stored, -⟩ := h
    exact ⟨joinPhases_heights.restore s ⟨joining, table, heights⟩ hk,
      joinPhases_layered.restore s ⟨joining, table, layered⟩ hk, listed, stored, joining.2.2.2.2⟩
  arm s h := by
    obtain ⟨raised, filled, rest⟩ := h
    exact ⟨joinPhases_heights.arm s raised, joinPhases_layered.arm s filled, rest⟩
  entry c s := (moves_ending True (· = .done)).latch c s rfl
  leave m p s h ht hm := by
    have current := h.current
    obtain ⟨raised, filled, listed, stored, -⟩ := h
    exact ⟨⟨joinPhases_heights.leave m p s raised ht hm, joinPhases_layered.leave m p s filled ht hm⟩,
      listed_enterMode (s := { s with ctl.pause := p }) m listed,
      stored_enterMode (s := { s with ctl.pause := p }) m listed (raised.charted filled) stored,
      current_enterMode (s := { s with ctl.pause := p }) m listed stored current⟩
  back m p s h ht hm := by
    obtain ⟨raised, filled, listed, stored, -⟩ := h
    exact logged_keepChange (s := { s with ctl.returnMode := some m, ctl.pause := p }) true
      ⟨joinPhases_heights.back m p s raised ht hm, joinPhases_layered.back m p s filled ht hm⟩ listed stored nofun

theorem logged_decideJoin (h : Based s) (k : Logged s)
    (hs : s.join.state = .listening ∨ s.join.state = .waitingForLink) : Logged (decideJoin s) :=
  joinPhases_logged.decide (moves_ending False fun _ => True) moves_logged ⟨h.1.joining hs, h.2, k⟩

/-! ### Every command of a station that has passed its commit -/

theorem not_setup_of_logged (h : Based s) (k : Logged s) : s.ctl.mode ≠ .setup := by
  intro hm
  obtain ⟨-, ⟨⟨-, -, committed, -⟩, -⟩, -⟩ := k
  rw [h.1.uncommitted (effectiveMode_of_setup hm)] at committed
  cases committed

theorem logged_toReduced (hm : s.ctl.mode ≠ .reduced) (h : Logged s) : Logged (toReduced s) := by
  obtain ⟨built, listed, stored, current⟩ := h
  exact ⟨built, listed, stored, current_of_kept current
    (congrArg (fun n => ({ keptOf s with mode := n } : Kept)) (toReduced_effectiveMode hm)) rfl rfl rfl⟩

/-- A station that locks keeps no record (R166, R171). -/
theorem logged_locked (h : Logged s) (hm : s.ctl.mode = .reduced) : Logged { s with
    ctl.returnMode := some .locked
    line.setupRequest := s.line.setupRequest.leaveSetup } := by
  obtain ⟨built, listed, stored, -⟩ := h
  refine ⟨built, listed, stored, fun k => ?_⟩
  let u : State := { s with ctl.returnMode := some .locked, line.setupRequest := s.line.setupRequest.leaveSetup }
  have mode : u.effectiveMode = .locked := effectiveMode_of_reduced hm
  have retain : u.effectiveMode.retainable = true := (Bool.and_eq_true_iff.mp k).2
  rw [mode] at retain
  cases retain

theorem guardKeeps_logged : GuardKeeps Logged True where
  clear _ s h _ := by
    have withdrawn := withdrawSpread_keeps (fun _ k => moves_logged.lapse .jackSpread rfl k) h
    obtain ⟨built, listed, stored, current⟩ := withdrawn
    have start : Clearing (withdrawSpread s) (withdrawSpread s) := ⟨built, listed, stored, rfl, rfl⟩
    have halted := clearHalt_keeps (leave := fun _ k => k.unlatched (· != .haltLoop) rfl)
      (releaseDrive_keeps (start.unlatched (fun c => !unlatchable (withdrawSpread s) c) (x := (unlatchAbsent (withdrawSpread s)).sup) rfl))
    exact logged_closeClear ((movedParts_clearing _).free (withdrawSpread s) halted) current
  loopAsserted s h _ := moves_logged.raise .haltLoop rfl (s := { s with sup.loopSensed := true }) h
  loopReleased _ s t h _ e := by
    have released : Logged t := e ▸ moves_logged.lapse .haltLoop rfl (s := { s with sup.loopSensed := false }) h
    refine ite_keeps (P := Logged) (fun _ => ?_) fun _ => released
    obtain ⟨built, listed, stored, current⟩ := released
    have start : Clearing t t := ⟨built, listed, stored, rfl, rfl⟩
    exact logged_closeClear (s := unlatchHalt t) (start.unlatched (· != .haltLoop) rfl) current
  crystalStops s h _ := moves_logged.raise .clockFallback rfl
    (s := { s with sup.crystalTimer := none, sup.onCrystal := false }) h
  crystalBack s h := moves_logged.lapse .clockFallback rfl
    (s := { s with sup.crystalTimer := none, sup.onCrystal := true }) h

theorem keeps_logged : Keeps fun s => Based s ∧ Logged s :=
  have F := feedParts_logged
  have M := moves_logged
  have H := movedParts_logged
  have G := keeps_table
  { steer := G.steer.and (M.steering (release := fun k _ h => logged_releaseHeld k h))
    jacks := G.jacks.andPlan (H.jacks M (stroking := fun _ _ h k => h.1.1.done_of_inStroke k))
      fun _ h k hm hr => logged_planEvent h k hm hr
    concrete := (feedParts_based.and F).concrete (moves_based.and M)
      (tick := fun _ h => ⟨h.1, ⟨h.2.1.1, layered_tickCure h.2.1.2⟩, h.2.2⟩)
      (apply := fun _ h => ⟨h.1, logged_applyCure h.2⟩)
      (sampled := fun d _ h _ hs => ⟨h.1, logged_stackSample d h.1 h.2 hs⟩)
      (close := fun _ h => ⟨h.1, ⟨h.2.1.1, layered_closeGate .idle h.2.1.2⟩, h.2.2⟩)
      (hC := fun _ hc => by simp [plain_ne_duplicate hc])
    line := G.line.and M.line
    peers := M.basedPeers F fun _ h k hw => logged_decideJoin h k (.inr hw)
    setup :=
      { stage := fun id v s h hm hid => ⟨G.setup.stage id v s h.1 hm hid, h.2⟩
        refuseCommit := fun c s h hm => ⟨G.setup.refuseCommit c s h.1 hm, h.2⟩
        commit := fun _ _ h hm _ => absurd hm (not_setup_of_logged h.1 h.2)
        request := fun s h ht => ⟨G.setup.request s h.1 ht, h.2⟩
        window := fun s h ht => ⟨G.setup.window s h.1 ht,
          lockStation_keeps (P := Logged) h.2 (fun hm => absurd hm (not_setup_of_logged (s := s) h.1 h.2)) logged_locked⟩
        listen := fun s h ht => ⟨G.setup.listen s h.1 ht, logged_decideJoin h.1 h.2 (.inl (h.1.1.listening ht))⟩ }
    guards := G.guards.and guardKeeps_logged
    supply := G.supply.and (F.supply M H (fun m _ h _ _ => logged_enterMode m h)
      (fall := fun _ h hm => logged_toReduced hm h)
      (stroking := fun _ _ h k => h.1.1.done_of_inStroke k)) }

/-! ### A station that keeps no record -/

/-- The join has not ended, and the images stand. -/
abbrev Unkept (a b : Option Image) (s : State) : Prop :=
  s.join.state ≠ .done ∧ s.join.imageA = a ∧ s.join.imageB = b

/-- Nothing has been committed, and the images stand. -/
abbrev Uncommitted (a b : Option Image) (s : State) : Prop := s.join.committed = none ∧ Unkept a b s

variable {a b : Option Image}

theorem unkept_keepChange (x : Bool) (h : Unkept a b s) : Unkept a b (keepChange x s) := by
  have none_ : recordable s = false := by
    rw [recordable, beq_eq_false_iff_ne.mpr h.1]
    rfl
  rw [keepChange_idle (.inr none_)]
  exact h

theorem unkept_enterMode (m : Mode) (h : Unkept a b s) : Unkept a b (enterMode m s) := by
  have F : FeedParts (Unkept a b) := {}
  refine F.enter ?_
  rw [takeMode_eq]
  split <;> exact unkept_keepChange (s := modeTaken _ _ _) _ h

theorem latchParts_unkept : LatchParts (Unkept a b) where
  enter m _ h _ _ := unkept_enterMode m h
  keep x _ h := unkept_keepChange x h

theorem uncommitted_keepChange (x : Bool) (h : Uncommitted a b s) : Uncommitted a b (keepChange x s) :=
  ⟨h.1, unkept_keepChange x h.2⟩

theorem uncommitted_enterMode (m : Mode) (h : Uncommitted a b s) : Uncommitted a b (enterMode m s) :=
  ⟨(aside_enterMode m s).committed.trans h.1, unkept_enterMode m h.2⟩

theorem latchParts_uncommitted : LatchParts (Uncommitted a b) where
  enter m _ h _ _ := uncommitted_enterMode m h
  keep x _ h := uncommitted_keepChange x h

theorem Ground.state_of_uncommitted (h : Ground s) (hc : s.join.committed = none) : s.join.state = .none := by
  obtain ⟨-, ⟨-, committed, -, state, -⟩, -⟩ := h
  rw [← committed, hc] at state
  exact bne_eq_false_iff_eq.mp state

theorem unkept_goodCommit (h : Unkept a b s) : Unkept a b (goodCommit s) := by
  have taken : Unkept a b (enterMode .joining (takeCommit s)) := unkept_enterMode .joining ⟨nofun, h.2⟩
  exact latchParts_unkept.moves.judgePeers (s := bringIntoForce _) taken

/-- Without a commit no command writes an image, nor does the commit (R171). -/
theorem keeps_uncommitted (a b : Option Image) :
    Keeps (fun s => Ground s ∧ Uncommitted a b s) True True (fun s => Ground s ∧ Unkept a b s) :=
  have F : FeedParts (Uncommitted a b) := {}
  have L : LatchParts (Uncommitted a b) := latchParts_uncommitted
  have M := L.moves
  have H : MovedParts (Uncommitted a b) True := ChannelParts.movedParts { keep := fun x _ h => uncommitted_keepChange x h }
  have G := keeps_ground
  have grounded : FeedParts Ground := {}
  { steer := G.steer.and (M.steering (release := fun k s h => uncommitted_keepChange (s := { s with
      ctl.released := releaseSegment k s.ctl.released }) _ h))
    jacks := G.jacks.and (H.jacks M)
    concrete := G.concrete.and (F.concrete M
      (apply := fun s h => uncommitted_keepChange (s := { s with
        cure.rate := sampleRate s, stack.layers := addMaturity (sampleRate s) s.stack.layers }) _ h)
      (sampled := fun d s h _ _ => uncommitted_keepChange (s := { s with stack := sampledStack d s }) _ h))
    line := G.line.and M.line
    peers := (moves_ground.and M).peers (grounded.and F) fun s h hw =>
      absurd ((h.1.state_of_uncommitted h.2.1).symm.trans hw) nofun
    setup :=
      { stage := fun id v s h hm hid => ⟨G.setup.stage id v s h.1 hm hid, h.2⟩
        refuseCommit := fun c s h hm => ⟨G.setup.refuseCommit c s h.1 hm, h.2⟩
        commit := fun c s h hm hc => ⟨G.setup.commit c s h.1 hm hc, unkept_goodCommit h.2.2⟩
        request := fun s h ht => ⟨G.setup.request s h.1 ht, h.2⟩
        window := fun s h ht => ⟨G.setup.window s h.1 ht,
          lockStation_keeps (P := Uncommitted a b) h.2 fun _ => uncommitted_enterMode .locked h.2⟩
        listen := fun s h ht =>
          absurd ((h.1.state_of_uncommitted h.2.1).symm.trans (h.1.listening ht)) nofun }
    guards := G.guards.and (M.guards (keep := fun x _ h => uncommitted_keepChange x h))
    supply := G.supply.and (F.supply M H fun m _ h _ _ => uncommitted_enterMode m h) }

/-! ### Every command, and the resets -/

theorem Answers.mono {P Q : State → Prop} {i : Instr} (h : Answers P i s) (hq : ∀ u : State, P u → Q u) :
    Answers Q i s := by
  obtain ⟨u, hu, k⟩ := h
  exact ⟨u, hu, hq u k⟩

/-- A SETUP COMMIT leaves the property where it is refused, and what is left of it where it is good (R167). -/
theorem Keeps.answersCommit {P Q : State → Prop} {plans clears : Prop} (K : Keeps P plans clears Q) (h : P s)
    (sender : BitVec 6) (target check : Byte) :
    Answers (fun u => P u ∨ Q u) (.setupCommit sender target check) s := by
  refine ⟨_, rfl, ite_keeps (P := fun u => P u ∨ Q u) (fun hm => ?_) fun _ => .inl h⟩
  split
  · exact .inl (K.setup.refuseCommit _ s h hm.1)
  · exact .inr (K.setup.commit _ s h hm.1 ‹_›)

theorem recordLaw_of_unkept (hs : Stored s) (h : Unkept s.join.imageA s.join.imageB u) : RecordLaw u := by
  obtain ⟨early, ha, hb⟩ := h
  refine ⟨ha ▸ hs.1, hb ▸ hs.2, fun k => ?_⟩
  exact absurd (beq_iff_eq.mp (Bool.and_eq_true_iff.mp k).1) early

theorem answers_record (hs : Sound s) (q : List Instr) {i : Instr} (hi : i.isReset = false) :
    Answers RecordLaw i { s with pending := q } := by
  obtain ⟨storedA, storedB, current⟩ := hs.record
  cases hc : s.join.committed with
  | none =>
    have ground := hs.ground
    have idle : Uncommitted s.join.imageA s.join.imageB s :=
      ⟨hc, by rw [ground.state_of_uncommitted hc]; exact nofun, rfl, rfl⟩
    have K := keeps_uncommitted s.join.imageA s.join.imageB
    cases hk : mayCommit i with
    | true =>
      cases i with
      | setupCommit sender target check =>
        refine (K.answersCommit (s := { s with pending := q }) ⟨ground, idle⟩ sender target check).mono fun u k => ?_
        rcases k with k | k
        · exact recordLaw_of_unkept ⟨storedA, storedB⟩ k.2.2
        · exact recordLaw_of_unkept ⟨storedA, storedB⟩ k.2
      | _ => cases hk
    | false =>
      exact (K.answers (s := { s with pending := q }) ⟨ground, idle⟩ hi (hq := fun k => absurd (hk.symm.trans k) nofun)).mono fun _ k =>
        recordLaw_of_unkept ⟨storedA, storedB⟩ k.2.2
  | some r =>
    have based := hs.based
    have built : Built s := by
      refine ⟨⟨fun ch => ?_, hs.height⟩, hs.layered⟩
      obtain ⟨-, ranges, early, -⟩ := hs.channels ch (Ch.mem_all ch)
      exact ⟨ranges, early⟩
    have numbered : Numbered s := by
      obtain ⟨high, committed, -, -, -, -, -, -, -, -, -, -, -, zero, -⟩ := hs.join
      refine ⟨Nat.one_le_iff_ne_zero.mpr fun k => ?_, high, by rw [hc]; rfl, ?_⟩
      · rw [hc, zero k] at committed
        exact absurd committed nofun
      · have inForce : s.setup = r := by
          rw [State.setup, hc]
          rfl
        rw [inForce]
        exact hs.setup.2 r hc
    obtain ⟨-, latched, -⟩ := hs.latch
    obtain ⟨-, -, -, -, released⟩ := hs.mode
    refine (keeps_logged.answers (s := { s with pending := q })
      ⟨based, built, ⟨numbered, released, latched⟩, ⟨storedA, storedB⟩, current⟩ hi).mono fun u k => ?_
    obtain ⟨-, -, -, stored, current⟩ := k
    exact ⟨stored.1, stored.2, current⟩

/-- The images that a brown-out finds keep what they kept (R171). -/
theorem stored_imagesFound (hs : Stored s) {cut : Bool} (h : imagesFound cut s = (a, b)) :
    (∀ i ∈ a, KeptInOrder i) ∧ ∀ i ∈ b, KeptInOrder i := by
  have cutOff : ∀ o : Option Image, (∀ i ∈ o, KeptInOrder i) → ∀ i ∈ o.map Image.cutOff, KeptInOrder i := by
    intro o ho i hi
    obtain ⟨j, hj, rfl⟩ := Option.mem_map.mp hi
    exact ho j hj
  unfold imagesFound at h
  dsimp only at h
  split at h
  · split at h
    · obtain ⟨rfl, rfl⟩ := Prod.mk.inj h
      exact ⟨hs.1, cutOff _ hs.2⟩
    · obtain ⟨rfl, rfl⟩ := Prod.mk.inj h
      exact ⟨cutOff _ hs.1, hs.2⟩
  · obtain ⟨rfl, rfl⟩ := Prod.mk.inj h
    exact hs

end

/-- Settles O17: every change of a kept item is handed to the join unit, and a rewrite becomes the image in use. -/
theorem stepKeepsRetainedRecord : Obligations.StepKeepsRetainedRecord := by
  intro s t hs he
  have stored : Stored s := ⟨hs.record.1, hs.record.2.1⟩
  refine step_answers he (fun q i hi => answers_record hs q hi)
    (fun v _ k => settled_keeps (P := RecordLaw) v k) (passTime_keeps (P := RecordLaw) hs.record) ?_ ?_ ?_
  · rintro strap inhibit a b q - (⟨rfl, rfl⟩ | ⟨cut, found⟩)
    · exact ⟨nofun, nofun, fun k => absurd k nofun⟩
    · obtain ⟨ha, hb⟩ := stored_imagesFound stored found
      exact ⟨ha, hb, fun k => absurd k nofun⟩
  · exact fun _ _ _ _ => ⟨nofun, nofun, fun k => absurd k nofun⟩
  · intro strap inhibit cut a b image q _ found _ _
    obtain ⟨ha, hb⟩ := stored_imagesFound stored found
    obtain ⟨⟨p, r, e⟩, -⟩ := restored_restoreCourse (strap := strap) (inhibit := inhibit) (a := a) (b := b)
      (k := image.kept) (s := { s with pending := q })
    rw [e]
    exact ⟨ha, hb, fun k => absurd k nofun⟩

end Sys2Proof.Machine
end
